-- ==== Sys2Proof/Word.lean ====
section
/-! DEFINITION. The word types of the TV4096: every register is 32 bits wide (R4), memory is addressed by the byte (R3). -/

namespace Sys2Proof

/-- A 32-bit register, packet or local store word (R3, R4). -/
abbrev Word := BitVec 32

/-- One byte of a memory, a packet or a record (R3). -/
abbrev Byte := BitVec 8

end Sys2Proof
end

