-- ==== Sys2Proof/Machine/Operands.lean ====
section
/-! DEFINITION. Operand forms: bit fields, sign extension, byte order (R3), tables keyed by number. -/

namespace Sys2Proof.Machine

/-- Bits [lo + n - 1 : lo] of a word read as a number. -/
def fld (w lo n : Nat) : Nat := w / 2 ^ lo % 2 ^ n

/-- Bit k of a word. -/
def bitAt (w k : Nat) : Bool := w / 2 ^ k % 2 == 1

/-- A number placed at bit lo, n bits wide: the register read of a field. -/
def put (v lo n : Nat) : Nat := v % 2 ^ n * 2 ^ lo

/-- A one-bit field. -/
def putb (b : Bool) (lo : Nat) : Nat := if b then 2 ^ lo else 0

/-- Bit k of a mask set. -/
def setBit (w k : Nat) : Nat := if bitAt w k then w else w + 2 ^ k

/-- Bit k of a mask cleared. -/
def clrBit (w k : Nat) : Nat := if bitAt w k then w - 2 ^ k else w

/-- The bits of w at which m is 0 (R6, RW1C: each 1 clears the bit). -/
def andNot (w m : Nat) : Nat := w - (w &&& m)

/-- Set bits of the low n bits of a mask. -/
def popcount : Nat → Nat → Nat
  | 0, _ => 0
  | n + 1, w => w % 2 + popcount n (w / 2)

/-- Members of a mask below n, ascending. -/
def maskList (n w : Nat) : List Nat := (List.range n).filter (bitAt w)

/-- Members of a mask as the mask of a list. -/
def maskOf (l : List Nat) : Nat := (l.map fun k => 2 ^ k).sum

/-- Two's complement value of the low n bits. -/
def sx (n w : Nat) : Int := if w % 2 ^ n < 2 ^ (n - 1) then (w % 2 ^ n : Nat) else (w % 2 ^ n : Nat) - (2 ^ n : Nat)

/-- ceil(a / b). -/
def cdiv (a b : Nat) : Nat := (a + b - 1) / b

/-- v held between two bounds. -/
def clamp (lo hi v : Nat) : Nat := max lo (min hi v)

/-- Little-endian bytes of a number (R3). -/
def leBytes : Nat → Nat → List Byte
  | 0, _ => []
  | n + 1, v => BitVec.ofNat 8 v :: leBytes n (v / 256)

/-- The number little-endian bytes spell (R3). -/
def leNat : List Byte → Nat
  | [] => 0
  | b :: t => b.toNat + 256 * leNat t

/-- The n-th 32-bit word of a byte string (R3: Word n starts at byte 4n). -/
def wordAt (bs : List Byte) (n : Nat) : Nat := leNat ((bs.drop (4 * n)).take 4)

/-- The 64-bit number in words n and n + 1. -/
def word64At (bs : List Byte) (n : Nat) : Nat := leNat ((bs.drop (4 * n)).take 8)

/-- The bytes of a list of words. -/
def wordsBytes (ws : List Nat) : List Byte := ws.flatMap (leBytes 4)

/-- A byte string cut or padded with zeros to n bytes. -/
def padTo (n : Nat) (bs : List Byte) : List Byte := bs.take n ++ List.replicate (n - bs.length) 0

/-- All bytes are zero (a reserved stretch, R9). -/
def allZero (bs : List Byte) : Bool := bs.all (· == 0)

/-- A table keyed by number; a key it does not list stands for a default. -/
abbrev Tab (α : Type) := List (Nat × α)

/-- The entry of key k, or the default d. -/
def tget {α : Type} (d : α) : Tab α → Nat → α
  | [], _ => d
  | (i, v) :: t, k => if i = k then v else tget d t k

/-- The entry of key k, if listed. -/
def tfind {α : Type} : Tab α → Nat → Option α
  | [], _ => none
  | (i, v) :: t, k => if i = k then some v else tfind t k

/-- The table with key k holding v, keys ascending. -/
def tset {α : Type} : Tab α → Nat → α → Tab α
  | [], k, v => [(k, v)]
  | (i, w) :: t, k, v => if i = k then (k, v) :: t else if k < i then (k, v) :: (i, w) :: t else (i, w) :: tset t k v

/-- The table without key k. -/
def tdel {α : Type} : Tab α → Nat → Tab α
  | [], _ => []
  | (i, w) :: t, k => if i = k then t else (i, w) :: tdel t k

/-- The table with the entry of key k changed by f, from default d. -/
def tmod {α : Type} (d : α) (t : Tab α) (k : Nat) (f : α → α) : Tab α := tset t k (f (tget d t k))

/-- Every listed entry changed. -/
def tmap {α : Type} (t : Tab α) (f : Nat → α → α) : Tab α := t.map fun p => (p.1, f p.1 p.2)

/-- The first member of a list with the smallest measure. -/
def minBy {α : Type} (m : α → Nat) : List α → Option α
  | [] => none
  | a :: t => match minBy m t with
    | none => some a
    | some b => if m b < m a then some b else some a

end Sys2Proof.Machine
end

