-- ==== Sys2Proof/Syntax.lean ====
section
/-! DEFINITION. The commands the block takes: one constructor per row of the spec's table of operations and events, with the
operands the row needs. An operand that the surroundings decide (a measurement, a verdict, data that arrives) is named so. -/

namespace Sys2Proof

/-- A word written to a register, with the events that fall in the cycle of the write: the RW1C bits hardware sets then, or, for a write that clears
counters, a bit for each counter it counts in (R8, R27). -/
structure Written where
  word : Nat
  same : Nat := 0
  deriving DecidableEq, Repr

/-- A vision engine at the end of a stripe, and whether the newest task group that waits for its flag was queued in that cycle (R217). -/
structure StripeEnd where
  engine : Nat
  same : Bool := false
  deriving DecidableEq, Repr

/-- A command: an operation on a register, an instruction on a core, a packet, or an event. -/
inductive Instr where
  /-- REGISTER_WRITE (R6). An aligned 32-bit MMIO write to a register that has no row of its own takes effect by field type, or is rejected and counted. -/
  | registerWrite (module offset : Nat) (word : Written) (size : Nat)
  /-- REG64_LOW_READ (R5). A read of the low word of a 64-bit register latches the high word for the next high-word read. -/
  | reg64LowRead (module tag offset size : Nat)
  /-- REG64_HIGH_WRITE (R5). A write of the high word of a 64-bit register is held until the low-word write. -/
  | reg64HighWrite (offset word : Nat)
  /-- REG64_LOW_WRITE (R5). A write of the low word commits both halves, or the low half alone when no high word is held. -/
  | reg64LowWrite (offset word : Nat)
  /-- CLR_REJECTS (R26). A GLOBAL_CTRL.CLR_REJECTS write sets GLOBAL_WRITE_REJECTS to 0, or to 1 when a rejection falls in the same cycle. -/
  | clrRejects (sameCycle : Bool)
  /-- PWRGOOD_RISE (R42). Power-good rises; AON leaves reset, the straps are sampled and the CTRL, SEC and PWR PLLs lock. -/
  | pwrgoodRise (duoId duoMode pll : Bool)
  /-- RECORD_READ_DONE (R39). The quad-SPI read of the die record from the NOR completes. -/
  | recordReadDone (ok : Bool) (record : List Byte)
  /-- PUF_IDENTITY_DONE (R426). The PUF read and identity key derivation of step 3b complete, or halt bring-up with ERROR 0x05. -/
  | pufIdentityDone (ok : Bool) (secret : List Byte)
  /-- LINK_TRAIN_DONE (R42). Training of UCIe module 0 at step 5 completes and the die waits for firmware, or halts with ERROR 0x32. -/
  | linkTrainDone (ok pll : Bool)
  /-- LOAD_FW (R44). GLOBAL_LOAD.LOAD_FW in WAIT_FIRMWARE starts the fetch and verification of the Bridle firmware. -/
  | loadFw (image : List Byte)
  /-- FIRMWARE_VERIFY_DONE (R425). The firmware fetch and verification complete; the firmware runs, or ERROR is set and the phase returns to WAIT_FIRMWARE. -/
  | firmwareVerifyDone
  /-- LOAD_PATTERN (R44). GLOBAL_LOAD.LOAD_PATTERN in WAIT_PATTERN starts the fetch, verification and checking of a full Pattern. -/
  | loadPattern (image : List Byte)
  /-- PATTERN_CHECK_DONE (R454). The staged Pattern checks complete; the Pattern is applied whole, or ERROR is set and the phase returns to WAIT_PATTERN. -/
  | patternCheckDone
  /-- APPLY_PLL_LOCK_DONE (R42). The PLLs of the CLOCKS.START domains lock at step 10 and ARITH starts at BOOT_OP. -/
  | applyPllLockDone (ok : Bool)
  /-- STALL_INIT_DONE (R42). The stalls, ungated by breeze-in, finish clearing their pools, and epochs are set to 0x0001. -/
  | stallInitDone
  /-- MEM_TRAIN_DONE (R343). Channel initialisation and training of step 11a completes, or fails with ERROR 0x30. -/
  | memTrainDone (failed : Nat) (densities : List Nat)
  /-- AMEND (R47). GLOBAL_LOAD.AMEND in READY starts an amendment and Bridle holds dispatch to the affected domains. -/
  | amend (image : List Byte)
  /-- AMENDMENT_END (R456). Verification of an amendment ends; it is applied whole or rejected with a REASON, and the hold ends. -/
  | amendmentEnd
  /-- GLOBAL_RESET_WARM (R45). GLOBAL_RESET.WARM starts a WARM reset that resumes bring-up at step 6. -/
  | globalResetWarm
  /-- GLOBAL_RESET_RELOAD (R45). GLOBAL_RESET.RELOAD starts a RELOAD reset that resumes at step 8, or is rejected before step 8. -/
  | globalResetReload
  /-- RESET_PIN_LOW (R439). RESET_N held low for at least 1 µs starts a WARM reset. -/
  | resetPinLow (pll : Bool)
  /-- PWRGOOD_FALL (R45). Power-good falls and a POWER_ON reset clears everything; outputs go safe within 1 µs. -/
  | pwrgoodFall
  /-- SUPPLY_FAULT (R444). A monitored rail leaves its limits, or REFCLK stops for more than 1 µs, and a POWER_ON reset follows. -/
  | supplyFault
  /-- TAP_RESET (R450). TRST_N low, or five TCK cycles with TMS high, resets the TAP alone. -/
  | tapReset
  /-- JTAG_BYPASS (R450). The TAP runs the BYPASS instruction. -/
  | jtagBypass (tdi : List Bool)
  /-- JTAG_SAMPLE_PRELOAD (R450). The TAP runs SAMPLE/PRELOAD on the CTRL_IO boundary. -/
  | jtagSamplePreload (levels : Nat) (tdi : List Bool)
  /-- JTAG_EXTEST (R450). The TAP runs EXTEST on the CTRL_IO boundary. -/
  | jtagExtest (levels : Nat) (tdi : List Bool)
  /-- JTAG_IDCODE (R450). The TAP returns IDCODE with the part number and vendor code 0xAC. -/
  | jtagIdcode
  /-- BEAM_TICK (R54). The master pipe's beam advances one tick, and the table entries and commit points at that position act. -/
  | beamTick
  /-- GHOST_TICK (R56). The ghost accumulator reaches GHOST_TICK and a ghost tick ends. -/
  | ghostTick
  /-- BEAM_LINE_READ (R69). A read of BEAM_LINE latches BEAM_FRAME and BEAM_HOLD. -/
  | beamLineRead
  /-- BEAM_GATE_OPEN (R67). BEAM_CMD.GATE_OPEN opens the named beam gates. -/
  | beamGateOpen (mask : Nat)
  /-- BEAM_PHASE_SLIP (R62). BEAM_CMD.PHASE_SLIP makes a phase slip pending. -/
  | beamPhaseSlip
  /-- BEAM_CLR_COUNTS (R69). BEAM_CMD.CLR_COUNTS clears the miss, skip and hold-timeout counters. -/
  | beamClrCounts
  /-- HELD_FIRE_RELEASE (R226). A fire held behind a CANCELLING chain of the same band acts once that cancel completes. -/
  | heldFireRelease
  /-- FG_ENABLE (R224). A write of BEAM_FG_CTRL.EN=1 starts the band board when it is idle and R224 holds, or is rejected. -/
  | fgEnable (word : Nat)
  /-- FG_DISABLE (R241). A write of BEAM_FG_CTRL.EN=0 schedules the band board to stop at the next frame start of the master pipe. -/
  | fgDisable (word : Nat)
  /-- FG_CLR_COUNTS (R241). BEAM_FG_CMD.CLR_COUNTS clears the six band counters and resets MIN_SLACK. -/
  | fgClrCounts
  /-- SOURCE_REGISTER (R233). A SOURCE command makes its slot READY with the next registration number once the slot is not IN_USE. -/
  | sourceRegister (queue : Nat)
  /-- ADD (R78). Awl ADD. -/
  | add (core d a b : Nat)
  /-- SUB (R78). Awl SUB. -/
  | sub (core d a b : Nat)
  /-- AND (R78). Awl AND. -/
  | and (core d a b : Nat)
  /-- OR (R78). Awl OR. -/
  | or (core d a b : Nat)
  /-- XOR (R78). Awl XOR. -/
  | xor (core d a b : Nat)
  /-- SHL (R78). Awl shift left by a register. -/
  | shl (core d a b : Nat)
  /-- SHR (R78). Awl logical shift right by a register. -/
  | shr (core d a b : Nat)
  /-- SRA (R78). Awl arithmetic shift right by a register. -/
  | sra (core d a b : Nat)
  /-- MUL (R78). Awl low 32-bit product. -/
  | mul (core d a b : Nat)
  /-- MULH (R78). Awl signed high product. -/
  | mulh (core d a b : Nat)
  /-- MULHU (R78). Awl unsigned high product. -/
  | mulhu (core d a b : Nat)
  /-- SLT (R78). Awl signed set-less-than. -/
  | slt (core d a b : Nat)
  /-- SLTU (R78). Awl unsigned set-less-than. -/
  | sltu (core d a b : Nat)
  /-- MIN (R78). Awl signed minimum. -/
  | min (core d a b : Nat)
  /-- MAX (R78). Awl signed maximum. -/
  | max (core d a b : Nat)
  /-- CLZ (R78). Awl count leading zeros. -/
  | clz (core d a : Nat)
  /-- POPC (R78). Awl population count. -/
  | popc (core d a : Nat)
  /-- ADDI (R78). Awl add immediate. -/
  | addi (core d a : Nat) (imm : BitVec 14)
  /-- ANDI (R78). Awl AND with a zero-extended immediate. -/
  | andi (core d a : Nat) (imm : BitVec 14)
  /-- ORI (R78). Awl OR with a zero-extended immediate. -/
  | ori (core d a : Nat) (imm : BitVec 14)
  /-- XORI (R78). Awl XOR with a zero-extended immediate. -/
  | xori (core d a : Nat) (imm : BitVec 14)
  /-- SHLI (R78). Awl shift left by an immediate. -/
  | shli (core d a : Nat) (imm : BitVec 14)
  /-- SHRI (R78). Awl logical shift right by an immediate. -/
  | shri (core d a : Nat) (imm : BitVec 14)
  /-- SRAI (R78). Awl arithmetic shift right by an immediate. -/
  | srai (core d a : Nat) (imm : BitVec 14)
  /-- SLTI (R78). Awl signed set-less-than against an immediate. -/
  | slti (core d a : Nat) (imm : BitVec 14)
  /-- LUI (R78). Awl load of an upper immediate. -/
  | lui (core d : Nat) (imm19 : BitVec 19)
  /-- LDW (R78). Awl local store word load. -/
  | ldw (core d a : Nat) (imm : BitVec 14)
  /-- LDH (R78). Awl local store half-word load. -/
  | ldh (core d a : Nat) (imm : BitVec 14)
  /-- LDB (R78). Awl local store byte load. -/
  | ldb (core d a : Nat) (imm : BitVec 14)
  /-- STW (R78). Awl local store word store. -/
  | stw (core d a : Nat) (imm : BitVec 14)
  /-- STH (R78). Awl local store half-word store. -/
  | sth (core d a : Nat) (imm : BitVec 14)
  /-- STB (R78). Awl local store byte store. -/
  | stb (core d a : Nat) (imm : BitVec 14)
  /-- LDP (R78). Awl stall pool word load. -/
  | ldp (core d a : Nat) (imm : BitVec 14)
  /-- STP (R78). Awl stall pool word store. -/
  | stp (core d a : Nat) (imm : BitVec 14)
  /-- BEQ (R78). Awl branch when equal. -/
  | beq (core a b : Nat) (off : BitVec 14)
  /-- BNE (R78). Awl branch when not equal. -/
  | bne (core a b : Nat) (off : BitVec 14)
  /-- BLT (R78). Awl branch when less, signed. -/
  | blt (core a b : Nat) (off : BitVec 14)
  /-- BGE (R78). Awl branch when greater or equal, signed. -/
  | bge (core a b : Nat) (off : BitVec 14)
  /-- BLTU (R78). Awl branch when less, unsigned. -/
  | bltu (core a b : Nat) (off : BitVec 14)
  /-- BGEU (R78). Awl branch when greater or equal, unsigned. -/
  | bgeu (core a b : Nat) (off : BitVec 14)
  /-- JMP (R78). Awl relative jump. -/
  | jmp (core : Nat) (off24 : BitVec 24)
  /-- CALL (R78). Awl call, writing the return address to x31. -/
  | call (core : Nat) (off24 : BitVec 24)
  /-- JR (R78). Awl jump to the address in a register. -/
  | jr (core a : Nat)
  /-- ILLEGAL_INSTRUCTION (R81). An instruction with an unknown opcode, a non-zero required field or another R81 breach ends the sliver with 0x10. -/
  | illegalInstruction (core : Nat)
  /-- EMMA (R76). EMMA reads its descriptor and starts a matrix multiply-accumulate on the named engines in the background. -/
  | emma (core a : Nat)
  /-- EMMA_END (R72). An EMMA finishes its steps, with expansion and corrections, in its engines. -/
  | emmaEnd (core : Nat)
  /-- ECONV_MAC_MAIN (R137). An ECONV with OP=MAC and MODE=MAIN starts a line-buffer convolution on the engines. -/
  | econvMacMain (core a : Nat)
  /-- ECONV_MAC_EDGE (R137). An ECONV with OP=MAC and MODE=EDGE starts a gathered convolution on the engines. -/
  | econvMacEdge (core a : Nat)
  /-- ECONV_MAX (R146). An ECONV with OP=MAX computes max pooling for 16 channels on the vector unit. -/
  | econvMax (core a : Nat)
  /-- ECONV_AVG (R146). An ECONV with OP=AVG computes average pooling for 16 channels on the vector unit. -/
  | econvAvg (core a : Nat)
  /-- ECONV_END (R143). A background ECONV finishes its steps. -/
  | econvEnd (core : Nat)
  /-- EZERO (R457). EZERO is queued to the named engines. -/
  | ezero (core mask : Nat)
  /-- EZERO_APPLY (R457). Once earlier EMMA and ECONV commands have ended, EZERO sets ACTIVE to +0. -/
  | ezeroApply (core engine : Nat)
  /-- ESWAP (R74). ESWAP is queued to the named engines. -/
  | eswap (core mask : Nat)
  /-- ESWAP_APPLY (R74). Once earlier commands have ended and drains have read their banks, ESWAP exchanges ACTIVE and DRAIN. -/
  | eswapApply (core engine : Nat)
  /-- EDRAIN (R457). EDRAIN starts copying the DRAIN banks to the local store in the background. -/
  | edrain (core a mask : Nat)
  /-- EDRAIN_END (R457). An EDRAIN has written its last bank. -/
  | edrainEnd (core : Nat)
  /-- EWAIT (R76). EWAIT holds the sequencer until every command of the named engines has ended. -/
  | ewait (core mask : Nat)
  /-- VADD (R84). VOP FN=0x00, FP32 lane add. -/
  | vadd (core d a b : Nat)
  /-- VSUB (R84). VOP FN=0x01, FP32 lane subtract. -/
  | vsub (core d a b : Nat)
  /-- VMUL (R84). VOP FN=0x02, FP32 lane multiply. -/
  | vmul (core d a b : Nat)
  /-- VMIN (R84). VOP FN=0x03, smaller lane under the R87 order. -/
  | vmin (core d a b : Nat)
  /-- VMAX (R84). VOP FN=0x04, larger lane under the R87 order. -/
  | vmax (core d a b : Nat)
  /-- VFMA (R84). VOP FN=0x05, fused multiply-add into VA. -/
  | vfma (core a b : Nat)
  /-- VLDA (R84). VOP FN=0x06, load VA. -/
  | vlda (core a : Nat)
  /-- VSTA (R84). VOP FN=0x07, store VA. -/
  | vsta (core d : Nat)
  /-- VEXP2 (R85). VOP FN=0x08, lane exp2 by the R85 procedure. -/
  | vexp2 (core d a : Nat)
  /-- VRCP (R84). VOP FN=0x09, correctly rounded reciprocal. -/
  | vrcp (core d a : Nat)
  /-- VRSQ (R84). VOP FN=0x0A, correctly rounded reciprocal square root. -/
  | vrsq (core d a : Nat)
  /-- VDIV (R84). VOP FN=0x0B, correctly rounded divide. -/
  | vdiv (core d a b : Nat)
  /-- VCVTI (R84). VOP FN=0x0C, saturating FP32 to INT32 conversion. -/
  | vcvti (core d a : Nat)
  /-- VCVTF (R84). VOP FN=0x0D, INT32 to FP32 conversion. -/
  | vcvtf (core d a : Nat)
  /-- VIADD (R84). VOP FN=0x0E, wrapping INT32 add. -/
  | viadd (core d a b : Nat)
  /-- VIMUL (R84). VOP FN=0x0F, INT32 low product. -/
  | vimul (core d a b : Nat)
  /-- VSUM (R84). VOP FN=0x10, R96 tree sum of the 16 lanes. -/
  | vsum (core d a : Nat)
  /-- VMAXR (R84). VOP FN=0x11, largest lane under the R87 order. -/
  | vmaxr (core d a : Nat)
  /-- SINT (R88). Sorted intersection by the set unit. -/
  | sint (core d a : Nat)
  /-- SMRG (R88). Sorted merge by the set unit. -/
  | smrg (core d a : Nat)
  /-- STOPK (R88). Top-k selection by the set unit. -/
  | stopk (core d a : Nat)
  /-- SCMP (R88). Stream compaction by the set unit. -/
  | scmp (core d a : Nat)
  /-- GATH (R90). Gather by index list; out-of-range indices yield zeros and are counted. -/
  | gath (core a : Nat)
  /-- SCAT (R90). Scatter by index list; the later position wins on duplicates. -/
  | scat (core a : Nat)
  /-- SCADD (R91). Scatter-add of FP32 elements, staged when EXACT=1 and the destination is in the pool or memory. -/
  | scadd (core a : Nat)
  /-- DMA_COPY (R308). A DMA instruction with OP=COPY queues a copy to the stall DMA agent and returns a ticket. -/
  | dmaCopy (core d a : Nat)
  /-- DMA_CONVERT (R308). A DMA instruction with OP=CONVERT queues a quantising conversion under a quantisation record. -/
  | dmaConvert (core d a : Nat)
  /-- DMA_ZC_STORE (R308). A DMA instruction with OP=ZC_STORE queues a zero-compressed store. -/
  | dmaZcStore (core d a : Nat)
  /-- DMA_ZC_LOAD (R308). A DMA instruction with OP=ZC_LOAD queues a zero-compressed load. -/
  | dmaZcLoad (core d a : Nat)
  /-- DMA_TICKET_END (R309). A DMA transfer completes or fails, its ticket ends and its descriptor slot returns. -/
  | dmaTicketEnd (core ticket : Nat)
  /-- DWAIT (R78). DWAIT waits until a DMA ticket has ended; it is a tile boundary. -/
  | dwait (core a : Nat)
  /-- TILE (R83). TILE marks a tile boundary once the core's earlier unit commands have ended. -/
  | tile (core : Nat)
  /-- TILE_OVERRUN (R83). A tile's cycle count reaches 513 and the sliver ends with 0x50. -/
  | tileOverrun (core : Nat)
  /-- FENCE (R78). FENCE waits until the core's earlier pool and DMA writes are visible to the stall. -/
  | fence (core : Nat)
  /-- SEMACQ (R306). SEMACQ requests semaphore tokens and waits, lending priority to the holder. -/
  | semacq (core a : Nat)
  /-- SEMREL (R307). SEMREL returns the tokens of the sliver's oldest unreleased request. -/
  | semrel (core a : Nat)
  /-- SEM_GRANT (R306). The oldest waiting semaphore request is granted when enough tokens become free. -/
  | semGrant (sem : Nat)
  /-- RWAIT (R287). RWAIT waits for a mailbox entry to be FULL, then copies the payload and returns the credit. -/
  | rwait (core d a b : Nat)
  /-- CSRR (R458). CSRR reads a CSR. -/
  | csrr (core d : Nat) (imm : BitVec 14)
  /-- CSRW (R458). CSRW writes an RW CSR, or ends the sliver on a breach. -/
  | csrw (core a : Nat) (imm : BitVec 14)
  /-- EXIT (R95). EXIT ends the sliver with a status and returns its permits. -/
  | exit (core a : Nat)
  /-- STALL_QSEL_WRITE (R103). A write of STALL_QSEL selects a head and word; a change of HEAD clears the latch. -/
  | stallQselWrite (stall word : Nat)
  /-- STALL_QDATA_READ (R103). A read of STALL_QDATA with WORD=0 latches all eight words of the head. -/
  | stallQdataRead (stall : Nat)
  /-- STALL_CLR_COUNTS (R103). STALL_CTRL.CLR_COUNTS clears the overrun, range and substitution counters. -/
  | stallClrCounts (stall : Nat)
  /-- STALL_QCLR_COUNTS (R132). STALL_QCTRL.CLR_COUNTS clears the four quantisation counters. -/
  | stallQclrCounts (stall : Nat)
  /-- TASK_PACKET (R298). A TASK packet with KERNEL=0 brings a Vexrok task group to READY, or completes with 0x10. -/
  | taskPacket (queue : Nat)
  /-- ATTN (R160). A TASK packet naming kernel 0x01 runs forward attention over one list. -/
  | attn (queue : Nat)
  /-- ATTN_BWD (R178). A TASK packet naming kernel 0x02 runs backward attention over one FLAT list. -/
  | attnBwd (queue : Nat)
  /-- KAPPEND (R171). A TASK packet naming kernel 0x03 converts and appends keys and values to a list. -/
  | kappend (queue : Nat)
  /-- KLIST_EVICT (R174). KLIST OP=EVICT evicts the lowest-SCORE eligible pages. -/
  | klistEvict (queue : Nat)
  /-- KLIST_PIN (R173). KLIST OP=PIN sets PINNED on the listed entries. -/
  | klistPin (queue : Nat)
  /-- KLIST_UNPIN (R173). KLIST OP=UNPIN clears PINNED on the listed entries. -/
  | klistUnpin (queue : Nat)
  /-- KLIST_SPILL (R175). KLIST OP=SPILL moves the lowest-index spillable pages to host slots. -/
  | klistSpill (queue : Nat)
  /-- KLIST_COMMIT (R176). KLIST OP=COMMIT keeps one speculative path and rolls back the rest. -/
  | klistCommit (queue : Nat)
  /-- LIST_LOCK_GRANT (R154). A kernel's shared or exclusive list lock is granted in request order. -/
  | listLockGrant (sem : Nat)
  /-- PREFETCH_LANDED (R164). A prefetch of a spilled page lands in its prefetch frame. -/
  | prefetchLanded (queue : Nat) (late : Bool)
  /-- KV_WAIT_EXPIRE (R172). A KV reservation wait reaches KV_WAIT; the kernel ends with 0x51 and returns its reservations. -/
  | kvWaitExpire (queue : Nat)
  /-- KV_GRANT_DEVICE (R179). KV_GRANT with HOST=0 adds device frames to the selected domain's pool. -/
  | kvGrantDevice (count : Nat)
  /-- KV_GRANT_HOST (R179). KV_GRANT with HOST=1 adds host slots to the selected domain's pool. -/
  | kvGrantHost (count : Nat)
  /-- KV_CLR_COUNTS (R179). KV_CTRL.CLR_COUNTS clears the spill, evict and prefetch-late counters. -/
  | kvClrCounts
  /-- NOP_PACKET (R296). A NOP packet completes at once with 0x00. -/
  | nopPacket (queue : Nat)
  /-- RASTER_PACKET (R297). A RASTER packet submits a render pass, which may pre-empt the ACTIVE pass or wait for a pass slot. -/
  | rasterPacket (queue : Nat)
  /-- VISION_FLOW (R206). A vision command of KIND FLOW enters the block queue. -/
  | visionFlow (queue : Nat)
  /-- VISION_STEREO (R206). A vision command of KIND STEREO enters the block queue. -/
  | visionStereo (queue : Nat)
  /-- VISION_FEATURE (R212). A vision command of KIND FEATURE enters the block queue. -/
  | visionFeature (queue : Nat)
  /-- SOURCE_PACKET (R233). A SOURCE packet asks to register a source descriptor into a slot. -/
  | sourcePacket (queue : Nat)
  /-- SEM_ACQUIRE_PACKET (R307). A SEM packet with REL=0 requests tokens for the job. -/
  | semAcquirePacket (queue : Nat)
  /-- SEM_RELEASE_PACKET (R307). A SEM packet with REL=1 releases the job's oldest request. -/
  | semReleasePacket (queue : Nat)
  /-- WRITE_PACKET (R297). A WRITE packet writes VALUE at ADDR and completes when it is visible. -/
  | writePacket (queue : Nat)
  /-- RESERVED_PACKET (R296). A packet of type 0x7 to 0xF completes at once with 0x10. -/
  | reservedPacket (queue : Nat)
  /-- DOORBELL (R334). A doorbell write updates a queue's WRITE, or is dropped, rejected, held or forwarded. -/
  | doorbell (queue word : Nat)
  /-- PACKET_FETCH (R295). The device fetches the packet at READ into a free task slot and increments READ. -/
  | packetFetch (queue : Nat)
  /-- SLIVER_DISPATCH (R94). Bridle places a sliver on a core once its permits are granted, and the dispatcher writes the task frame. -/
  | sliverDispatch (domain : Nat)
  /-- PERMIT_GRANT (R363). Girth grants a waiting holding in reserve, priority and age order. -/
  | permitGrant
  /-- PREEMPT_REQUEST (R274). Bridle requests pre-emption of a victim core for a waiting higher-priority sliver and reserves save granules. -/
  | preemptRequest (domain : Nat)
  /-- SAVE_COMPLETE (R275). A save completes, the victim's permits return and the pre-empting sliver is dispatched. -/
  | saveComplete (core : Nat)
  /-- RESTORE_COMPLETE (R279). A resumed sliver's restore completes and it continues. -/
  | restoreComplete (core : Nat)
  /-- DRAIN_WINDOW_CLOSE (R281). The drain window closes and the transfers still in flight are cancelled, with their credits returned. -/
  | drainWindowClose (core : Nat)
  /-- HOLD_LIMIT_EXPIRE (R284). A holder's timer reaches BRIDLE_HOLD_LIMIT; its job is cancelled with 0x50 and its tokens return. -/
  | holdLimitExpire (sem k : Nat)
  /-- SUSPEND_COPY_LANDED (R289). The last save of a suspending job lands in the context save area and the suspend completes. -/
  | suspendCopyLanded (job : Nat)
  /-- BREEZE_IN_STEP (R290). The next stall of a multi-stall release is released 31.25 ns after the previous one. -/
  | breezeInStep
  /-- STALL_WAKE (R376). A gated stall is woken: its awake holdings are taken and its power switch closes over 1 µs. -/
  | stallWake (stall : Nat)
  /-- BRIDLE_CLR_COUNTS (R293). BRIDLE_CTRL.CLR_COUNTS clears the eight Bridle counters and the two maxima. -/
  | bridleClrCounts
  /-- JOB_OPEN (R300). JOB_CMD OP=OPEN opens a FREE job record as QUEUED. -/
  | jobOpen
  /-- JOB_SUSPEND (R302). JOB_CMD OP=SUSPEND starts suspending a QUEUED or RUNNING job. -/
  | jobSuspend
  /-- JOB_RESUME (R300). JOB_CMD OP=RESUME resumes a SUSPENDED job, or is held while it is SUSPENDING. -/
  | jobResume
  /-- JOB_CANCEL (R303). JOB_CMD OP=CANCEL starts cancelling a job. -/
  | jobCancel
  /-- JOB_CLOSE (R300). JOB_CMD OP=CLOSE returns a DONE or FAILED job record to FREE. -/
  | jobClose
  /-- JOB_CANCEL_END (R303). All the work of a CANCELLING job has stopped and its resources have returned; the job ends FAILED. -/
  | jobCancelEnd (job : Nat)
  /-- SEM_CFG_WRITE (R316). A write of SEM_CFG.TOTAL is taken only while no token is held and no request waits. -/
  | semCfgWrite (word : Nat)
  /-- QCFG_BASE_WRITE (R316). A write of QCFG_BASE on an idle queue sets RING_BASE and resets READ and WRITE to 0. -/
  | qcfgBaseWrite (base : Nat)
  /-- QCFG_RING_WRITE (R316). A write of QCFG_RING on an idle queue sets RING_LOG2, clamped, and resets READ and WRITE to 0. -/
  | qcfgRingWrite (word : Nat)
  /-- CTX_CALM_EXIT (R315). CTX_CALM_EXIT.GO releases a context from Calm when no job of it is CANCELLING. -/
  | ctxCalmExit (word : Nat)
  /-- CONS_TOTAL_READ (R316). A read of CONS_TOTAL latches CONS_FREE and CONS_HELD. -/
  | consTotalRead
  /-- CONS_CLR_COUNTS (R316). CONS_CTRL.CLR_COUNTS clears the fault, sweep and automatic-return counters. -/
  | consClrCounts
  /-- AUDIT_SWEEP (R313). Every 1,000 µs the firmware compares the sum of holders' records with HELD in each pool instance. -/
  | auditSweep
  /-- RASTER_PASS_START (R181). A render pass takes the ACTIVE slot and its front end starts. -/
  | rasterPassStart
  /-- PRIMITIVE_PROCESS (R191). The front end reserves pages and sets up and bins a primitive once its vertices are shaded. -/
  | primitiveProcess
  /-- GROW_WAIT_EXPIRE (R192). The page wait timer expires; the pass is abandoned and completes with 0x51. -/
  | growWaitExpire
  /-- TILE_SLICE_CONSUME (R187). A tile owner takes a tile slice, evaluates coverage and early depth, and issues quad fragments. -/
  | tileSliceConsume (owner : Nat)
  /-- FRAGMENT_RETIRE (R188). A shaded quad fragment retires in key order, testing depth where late and blending into the target. -/
  | fragmentRetire (owner qx qy : Nat) (colors : List Nat) (keep : Nat) (depths : List Nat)
  /-- TEXTURE_SAMPLE (R195). A texture unit serves a sample request from a shading core. -/
  | textureSample (unit draw idx : Nat) (uv : List Nat)
  /-- RASTER_GRANT (R201). RASTER_GRANT adds pages to the selected domain's tile-list pool. -/
  | rasterGrant (count : Nat)
  /-- RASTER_CLR_COUNTS (R201). RASTER_CTRL.CLR_COUNTS clears the three raster counters. -/
  | rasterClrCounts
  /-- VISION_COMMAND_START (R218). A queued or stopped vision command starts or resumes on an engine of its kind once its permits are granted. -/
  | visionCommandStart (engine : Nat)
  /-- FLAG_STRIPE_ADVANCE (R216). Once a stripe's output is visible, the engine advances STRIPES in the flag line. -/
  | flagStripeAdvance (engine : StripeEnd)
  /-- VISION_STOP (R219). A vision command stops at the end of its current row for pre-emption or suspend and saves its progress. -/
  | visionStop (engine row level : Nat) (dir final : Bool)
  /-- VISION_CLR_COUNTS (R222). VISION_CTRL.CLR_COUNTS clears the five vision counters. -/
  | visionClrCounts
  /-- PIPE_ENABLE (R256). A write of PIPEn_CTRL.EN=1 starts AUX reads and link training, or is refused for a held resource. -/
  | pipeEnable (pipe : Nat)
  /-- LINK_TRAINING_END (R256). Link training ends; the pipe becomes ACTIVE at its next frame start, or returns to OFF with TRAIN_FAIL. -/
  | linkTrainingEnd (pipe : Nat) (ok : Bool)
  /-- PIPE_FRAME_START (R247). A pipe's timing starts a frame: FB_ADDR and FB_PITCH are latched and a pending Calm exit takes effect. -/
  | pipeFrameStart (pipe : Nat)
  /-- LINE_FETCH_START (R248). The fetch of an active line begins FETCH_AHEAD lines ahead, after its band's commit point in band mode. -/
  | lineFetchStart (pipe line late : Nat)
  /-- PIPE_CALM_ENTER (R258). PIPEn_CTRL.CALM_ENTER records the DRIVER cause and the pipe enters Calm. -/
  | pipeCalmEnter (pipe : Nat)
  /-- PIPE_CALM_EXIT (R261). PIPEn_CTRL.CALM_EXIT clears the DRIVER cause. -/
  | pipeCalmExit (pipe : Nat)
  /-- CALM_TIMER_EXPIRE (R259). The 2 s Calm timer expires and the pipe sends black frames from the next frame start. -/
  | calmTimerExpire (pipe : Nat)
  /-- STILL_ENTER (R254). PIPE0_CTRL.STILL_ENTER puts pipe 0 into Panel Replay at the end of the frame and stops its timing. -/
  | stillEnter
  /-- STILL_EXIT (R254). PIPEn_CTRL.STILL_EXIT restarts the timing at the next ghost frame start. -/
  | stillExit (pipe : Nat)
  /-- SU_ARM (R255). PIPE0_SU.ARM sends one selective-update frame in Still, merged with any pending update. -/
  | suArm (first last : Nat)
  /-- PIPE_CLR_COUNTS (R265). PIPEn_CTRL.CLR_COUNTS clears the underrun and Calm frame counters. -/
  | pipeClrCounts (pipe : Nat)
  /-- AUX_NATIVE_WRITE (R264). AUX_CMD GO with CMD native write starts a DPCD write. -/
  | auxNativeWrite (pipe addr len : Nat)
  /-- AUX_NATIVE_READ (R264). AUX_CMD GO with CMD native read starts a DPCD read. -/
  | auxNativeRead (pipe addr len : Nat)
  /-- AUX_I2C_WRITE (R264). AUX_CMD GO with CMD I2C write starts an I²C-over-AUX write. -/
  | auxI2cWrite (pipe addr len : Nat)
  /-- AUX_I2C_READ (R264). AUX_CMD GO with CMD I2C read starts an I²C-over-AUX read. -/
  | auxI2cRead (pipe addr len : Nat)
  /-- AUX_REPLY (R264). An AUX reply arrives; the transaction ends or, on DEFER, waits to be retried. -/
  | auxReply (pipe code : Nat) (data : List Byte)
  /-- AUX_DEFER_RETRY (R264). After 400 µs a deferred AUX transaction is retried, up to 7 times. -/
  | auxDeferRetry (pipe : Nat)
  /-- AUX_TIMEOUT (R264). An AUX transaction with no reply within 3.2 ms fails. -/
  | auxTimeout (pipe : Nat)
  /-- HPD_LOW_TIMEOUT (R256). HPD held low for more than 2 ms puts the pipe in LINK_DOWN and stops its timing. -/
  | hpdLowTimeout (pipe : Nat)
  /-- HPD_PULSE (R256). A short HPD pulse sets HPD and leaves the pipe running. -/
  | hpdPulse (pipe : Nat)
  /-- LANE_LOCK_LOSS (R256). Loss of lane lock puts the pipe in LINK_DOWN. -/
  | laneLockLoss (pipe : Nat)
  /-- HOST_DEVMEM_WRITE (R324). A host MWR to DEVMEM is written through the loft cache to device memory, or dropped. -/
  | hostDevmemWrite (module addr fbe lbe : Nat) (data : List Byte)
  /-- HOST_DEVMEM_READ (R322). A host MRD to DEVMEM is answered with a CPL or CPLE. -/
  | hostDevmemRead (module tag addr len : Nat)
  /-- HOST_CPL (R329). A host completion for a device read arrives and is delivered, or is discarded when late. -/
  | hostCpl (module tag : Nat) (data : List Byte)
  /-- HOST_CPLE (R329). A host CPLE ends the device transfer with 0x30. -/
  | hostCple (module tag : Nat)
  /-- HOST_CRD (R326). A credit return from the host returns credits from the ledger to FREE. -/
  | hostCrd (module ph pd nph : Nat)
  /-- HOST_INIT (R325). The host's INIT sets the credit totals; too few credits keep the module from coming UP. -/
  | hostInit (module ph nph pd : Nat)
  /-- MALFORMED_PACKET (R323). A malformed host packet is dropped and counted, and a read is answered with CPLE. -/
  | malformedPacket (module tag : Nat) (read : Bool)
  /-- FLIT_CRC_FAIL (R327). A flit that fails its CRC is replayed with the flits after it, and a retrain follows after 8 replays. -/
  | flitCrcFail (module : Nat) (again : Bool)
  /-- MODULE_RETRAIN_END (R328). A retrain ends; the module resumes, or goes DOWN after its third failure within 1 ms. -/
  | moduleRetrainEnd (module : Nat) (ok : Bool)
  /-- LINK_LANE_LOSS (R328). Loss of a module's lanes puts it DOWN. -/
  | linkLaneLoss (module : Nat)
  /-- CPL_TIMEOUT (R329). A device read with no completion within HOSTLINK_CPL_TIMEOUT ends its transfer with 0x30. -/
  | cplTimeout (module tag : Nat)
  /-- MODULE1_TRAIN_END (R319). Module 1 training in SOLO ends; the module comes UP, or M1_FAIL is set. -/
  | module1TrainEnd (ok : Bool)
  /-- VEC_RAISE_CMD (R335). HOSTLINK_VECv.RAISE raises the vector from the register. -/
  | vecRaiseCmd (vector word : Nat)
  /-- VEC_MASK_CLEAR (R335). Clearing MASK while PENDING=1 queues one MSG and clears PENDING. -/
  | vecMaskClear (vector : Nat)
  /-- INV_PAGE (R333). INV_CTRL.GO with SCOPE=PAGE invalidates the cached translations of one page. -/
  | invPage (context : Nat)
  /-- INV_CONTEXT (R333). INV_CTRL.GO with SCOPE=CONTEXT invalidates one context's translations. -/
  | invContext (context : Nat)
  /-- INV_ALL (R333). INV_CTRL.GO with SCOPE=ALL invalidates every context's translations. -/
  | invAll
  /-- INV_DONE (R333). An invalidation has reached every TLB; BUSY clears and DONE is set. -/
  | invDone
  /-- HOSTLINK_CLR_COUNTS (R337). HOSTLINK_CTRL.CLR_COUNTS clears the six host link counters. -/
  | hostlinkClrCounts
  /-- REFRESH_INTERVAL (R345). A refresh interval elapses; refresh is issued or postponed, and forced at a debt of 8. -/
  | refreshInterval (channel : Nat) (scanoutWaits : Bool)
  /-- MR4_POLL (R345). Every 4 ms MR4 is polled, the refresh rate updated, and HOT set beyond the limit. -/
  | mr4Poll (channel rate : Nat) (beyond : Bool)
  /-- WCK_DRIFT_SAMPLE (R344). Every 32 ms the WCK oscillator is sampled and the write clock retrained on drift. -/
  | wckDriftSample (channel : Nat) (beyond : Bool)
  /-- SELF_REFRESH_ENTRY (R346). A channel idle for MEM_SR_IDLE µs enters self-refresh. -/
  | selfRefreshEntry (channel : Nat)
  /-- SELF_REFRESH_EXIT (R346). A request to a channel in self-refresh makes it leave within 1 µs. -/
  | selfRefreshExit (channel : Nat)
  /-- PATROL_SCRUB (R349). The patrol scrub reads and corrects each block once per MEM_SCRUB.HOURS. -/
  | patrolScrub (block found : Nat)
  /-- LOFT_WRITE_BACK (R354). LOFT_CMD GO with INVALIDATE=0 writes back every dirty line of a domain. -/
  | loftWriteBack (domain : Nat)
  /-- LOFT_WRITE_BACK_INVALIDATE (R354). LOFT_CMD GO with INVALIDATE=1 writes back and invalidates a domain's lines. -/
  | loftWriteBackInvalidate (domain : Nat)
  /-- LOFT_CMD_DONE (R354). A LOFT_CMD completes and LOFT_DONE is set. -/
  | loftCmdDone (domain : Nat)
  /-- MEM_CLR_COUNTS (R357). MEM_CTRL.CLR_COUNTS clears the six memory counters. -/
  | memClrCounts
  /-- GOVERNOR_DECISION (R367). Every 100 µs, and on triggers, Girth chooses a target point and starts a step. -/
  | governorDecision
  /-- POWER_MEASUREMENT (R365). At each 1 ms measurement Girth reads the rails, adjusts MEM_LEVEL and LINK_LEVEL and calibrates the gain. -/
  | powerMeasurement (answered : Bool) (rail other : Nat)
  /-- THERMAL_SAMPLE (R374). Every 100 µs Girth reads the hottest sensor and throttles, goes to OP6 or trips. -/
  | thermalSample (celsius : Nat)
  /-- VOLTAGE_SETTLED (R370). A rail 0 voltage change settles and the step goes on to its frequency or permit phase. -/
  | voltageSettled
  /-- AVS_TIMEOUT (R380). An AVSBus transaction not acknowledged in 10 µs is retried, and sets AVS_FAIL on the third failure. -/
  | avsTimeout
  /-- DROOP_TRIP (R371). A droop detector trips, the ARITH clock is stretched and any step freezes. -/
  | droopTrip (detector : Nat)
  /-- DROOP_CLEAR (R371). The stretch ends after 16 delivered cycles with no detector tripped. -/
  | droopClear (edges : Nat)
  /-- STEP_RESUME (R372). A frozen step resumes once every detector has stayed clear for 10 µs. -/
  | stepResume
  /-- SQUALL_FALL (R373). VR_ALERT_N falls for at least 20 ns; ARITH goes to OP6 within 50 ns. -/
  | squallFall
  /-- SQUALL_RISE (R373). VR_ALERT_N rises and the squall hold timer starts. -/
  | squallRise
  /-- SQUALL_HOLD_EXPIRE (R373). The squall hold ends and the governor decides at once. -/
  | squallHoldExpire
  /-- GATE_IDLE_EXPIRE (R376). A stall idle for GATE_IDLE µs is gated when the gating conditions hold. -/
  | gateIdleExpire (stall : Nat)
  /-- GIRTH_CAP_WRITE (R367). A write of GIRTH_CAP sets the cap and triggers a governor decision. -/
  | girthCapWrite (word : Nat)
  /-- GIRTH_MODE_WRITE (R369). A write of GIRTH_MODE sets fixed mode and triggers a decision, or is rejected outside OP_MASK. -/
  | girthModeWrite (word : Nat)
  /-- GIRTH_HINT_WRITE (R368). A write of GIRTH_HINTc sets FLOOR and CEIL and triggers a decision. -/
  | girthHintWrite (ctx word : Nat)
  /-- GIRTH_CLR_COUNTS (R382). GIRTH_CTRL.CLR_COUNTS clears the step, droop, stretch and reason counters and PEAK. -/
  | girthClrCounts
  /-- HARNESS_TRAIN_END (R383). Module 1 trains as the Harness at READY and the die sends HELLO. -/
  | harnessTrainEnd
  /-- HELLO (R383). A HELLO from the peer is checked and the Duo forms, or FORM_FAIL is set. -/
  | hello (config duoId : Nat) (digest : List Byte) (ctxs : Nat) (doms : List Nat)
  /-- DUO_FORM_TIMEOUT (R383). No Duo formed within 1,050 µs of READY; the die raises DUO_SPLIT_BRAIN. -/
  | duoFormTimeout
  /-- HBEAT_SEND (R385). Every 1 µs the die sends an HBEAT with its claim and epoch. -/
  | hbeatSend
  /-- HBEAT (R394). A received HBEAT updates the claim and epoch, and enters or leaves DUO_HOLD. -/
  | hbeat (word0 epoch digest0 : Nat)
  /-- PEER_SILENCE_TIMEOUT (R395). No HBEAT for 16 µs; PEER_LOST is set and the Harness is handled as DOWN. -/
  | peerSilenceTimeout
  /-- DUO_HOLD_TIMEOUT (R397). After 50 µs in DUO_HOLD the die raises DUO_SPLIT_BRAIN and cancels its jobs with 0x41. -/
  | duoHoldTimeout
  /-- BEAMPOS (R389). The worker takes the manager's beam position from a BEAMPOS message. -/
  | beampos (line tick held source phase frame : Nat)
  /-- SCHED (R390). A SCHED message carries dispatch decisions, forwarded doorbells or beam fires to the other die. -/
  | sched (words : List Nat)
  /-- RREQ (R388). A remote request arrives; the die reads the bytes and returns an RRSP. -/
  | rreq (tag stall entry addr len : Nat)
  /-- RRSP (R388). A remote response lands in its mailbox entry, sets FULL and takes an MBOX credit. -/
  | rrsp (tag stall entry status : Nat) (data : List Byte)
  /-- DIGEST (R393). The manager compares a worker's mirror digest with its own for the task group or band. -/
  | digest (key : Nat) (digest : List Byte)
  /-- MIRROR (R391). The worker applies a forwarded host write in the manager's order. -/
  | mirror (addr value : Nat) (data : List Byte)
  /-- DIGEST_WAIT_EXPIRE (R393). A worker digest not in within HARNESS_DIGEST_WAIT cancels the job with 0x50. -/
  | digestWaitExpire (key : Nat)
  /-- BAND_DIGEST_LATE (R393). A band digest not in one frame after the commit point sets BAND_MISMATCH. -/
  | bandDigestLate (band kind frame : Nat)
  /-- TAKEOVER (R394). HARNESS_CMD.TAKEOVER on a worker with a live manager raises its epoch and claims MANAGER. -/
  | takeover
  /-- ASSUME (R397). HARNESS_CMD.ASSUME with SPLIT=1 makes the die MANAGER and ALONE. -/
  | assume
  /-- HARNESS_CLR_COUNTS (R408). HARNESS_CMD.CLR_COUNTS clears the four Harness counters. -/
  | harnessClrCounts
  /-- FAULT_DETECT (R400). A detected error is classified, logged and handled by its class. -/
  | faultDetect (site a b : Nat) (permanent : Bool)
  /-- AUTO_RELOAD_EXPIRE (R403). With AUTO_RELOAD=1, 1 ms after die Calm the fault block orders RELOAD. -/
  | autoReloadExpire
  /-- FAULT_LOG_READ (R407). A read of FAULT_LOG_DATA0 latches all eight words of the selected entry. -/
  | faultLogRead
  /-- FAULT_CLR_COUNTS (R407). FAULT_CTRL.CLR_COUNTS clears the three fault counters. -/
  | faultClrCounts
  /-- SEAL (R418). SEC_MODEL_CMD.SEAL seals a region against writes and starts hashing it, or is rejected. -/
  | seal
  /-- SEAL_HASH_DONE (R418). A sealed region's hash completes and the slot becomes SEALED. -/
  | sealHashDone (slot : Nat)
  /-- UNSEAL (R418). SEC_MODEL_CMD.UNSEAL returns a slot to EMPTY, unless a live job names it. -/
  | unseal
  /-- REGION_HASH_DONE (R416). A start or end digest of a manifest region completes on a hash engine. -/
  | regionHashDone (job index : Nat) (atEnd : Bool)
  /-- ATT_GO (R428). SEC_ATT_CMD.GO snapshots the report fields and starts signing a report. -/
  | attGo
  /-- ATT_REPORT_WRITTEN (R428). The signed report is written to host memory and ATT_DONE is raised, or ATT_FAIL on failure. -/
  | attReportWritten (ok : Bool)
  /-- SEC_CLR_COUNTS (R431). SEC_CTRL.CLR_COUNTS clears the seal-reject and Brand-fail counters. -/
  | secClrCounts
  /-- RECORD_VERIFY_DONE (R455). The die record's signature and binding check of step 4 completes; bring-up goes on to step 5, or halts with an error code. -/
  | recordVerifyDone (block : List Byte)
  /-- TEXTURE_UNIT_IDLE (R200). A texture unit that has had no requests for 1 µs returns its TEXTURE permits. -/
  | textureUnitIdle (unit : Nat)
  /-- STALL_WAKE_COMPLETE (R376). A waking stall's power switch has closed over 1 µs; the stall's epoch rises and it is released to work. -/
  | stallWakeComplete (stall : Nat)
  /-- ARITH_PLL_RELOCK (R378). On Lull exit the ARITH PLL relocks at OP6 within 10 µs and the governor decides at once. -/
  | arithPllRelock
  /-- DIE_STILL_ENTRY_DONE (R379). The 20 µs entry into the die STILL state completes, with module 0 in L1 and the channels in self-refresh. -/
  | dieStillEntryDone
  /-- DIE_STILL_EXIT_DONE (R379). The exit from STILL to LULL completes after PLL relock, self-refresh exit and L1 exit, and waiting host requests proceed. -/
  | dieStillExitDone
  /-- HPD_RISE (R256). The HPD input of a pipe rises (hot plug) and sets PIPEn_EVENTS.HPD. -/
  | hpdRise (pipe : Nat)
  /-- TAP_EXIT_TEST_LOGIC_RESET (R450). TCK with TMS low moves the TAP out of Test-Logic-Reset, and GLOBAL_DOMAINS bit 17 reads 1. -/
  | tapExitTestLogicReset (trst : Bool)
  /-- PEER_WINDOW_REQUEST (R387). A peer-window MWR or MRD from the other die arrives on the Harness and is carried out on this die's memory. -/
  | peerWindowRequest (write : Bool) (tag addr len : Nat) (data : List Byte)
  /-- PEER_WINDOW_COMPLETION (R387). A CPL or CPLE for a peer-window read arrives on the Harness and completes the issuing transfer. -/
  | peerWindowCompletion (tag : Nat) (ok : Bool) (data : List Byte)
  /-- HARNESS_CREDIT_RETURN (R386). A CRD from the peer die returns Harness PH, PD and NPH credits from the link ledger to FREE in pool 2. -/
  | harnessCreditReturn (ph pd nph : Nat)
  deriving DecidableEq, Repr

end Sys2Proof
end

