-- ==== Sys2Proof/Decode.lean ====
section
/-! DEFINITION. The words of the opcode table, and the Awl instruction words (R77, R78). The table of this block gives no row any bits: its commands are
register accesses, packets, pins, instructions of a core and events, and each comes with its operands. An Awl instruction has a word of its own
in a stall's pool, which Machine/Fetch.lean fetches and this file decodes. -/

namespace Sys2Proof

/-- The command a word spells by the table's bits: none, for the table gives bits to no row. -/
def decodeTableWord (_nbits _w : Nat) : Option Instr := none

/-! ### Fields of an Awl word (R77) -/

/-- Register field d of formats T, I, U and X; a of format B. -/
def awlD (w : Nat) : Nat := Machine.fld w 19 5
/-- Register field a of formats T, I and X; b of format B. -/
def awlA (w : Nat) : Nat := Machine.fld w 14 5
/-- Register field b of formats T and X. -/
def awlB (w : Nat) : Nat := Machine.fld w 9 5
/-- Bits [8:0]: 0 in format T, FN in format X. -/
def awlFn (w : Nat) : Nat := Machine.fld w 0 9
/-- imm14 and off14. -/
def awlImm (w : Nat) : BitVec 14 := BitVec.ofNat 14 w

/-- An instruction whose bits [8:0] must be 0; another word breaks R77 and ends the sliver. -/
def awlZero (core w : Nat) (i : Instr) : Instr := if awlFn w = 0 then i else .illegalInstruction core

/-- An engine instruction: its engines are FN[3:0], and FN[8:4] must be 0 (R77). -/
def awlEngines (core w : Nat) (i : Nat → Instr) : Instr := if awlFn w < 16 then i (awlFn w) else .illegalInstruction core

/-- VOP by its FN (R84). -/
def decodeVop (core w : Nat) : Instr :=
  let d := awlD w
  let a := awlA w
  let b := awlB w
  match awlFn w with
  | 0x00 => .vadd core d a b
  | 0x01 => .vsub core d a b
  | 0x02 => .vmul core d a b
  | 0x03 => .vmin core d a b
  | 0x04 => .vmax core d a b
  | 0x05 => .vfma core a b
  | 0x06 => .vlda core a
  | 0x07 => .vsta core d
  | 0x08 => .vexp2 core d a
  | 0x09 => .vrcp core d a
  | 0x0A => .vrsq core d a
  | 0x0B => .vdiv core d a b
  | 0x0C => .vcvti core d a
  | 0x0D => .vcvtf core d a
  | 0x0E => .viadd core d a b
  | 0x0F => .vimul core d a b
  | 0x10 => .vsum core d a
  | 0x11 => .vmaxr core d a
  | _ => .illegalInstruction core

/-- The instructions of format T, whose bits [8:0] must be 0 (R78). -/
def decodeT (core w : Nat) : Instr :=
  let d := awlD w
  let a := awlA w
  let b := awlB w
  match w / 2 ^ 24 % 256 with
  | 0x01 => .add core d a b
  | 0x02 => .sub core d a b
  | 0x03 => .and core d a b
  | 0x04 => .or core d a b
  | 0x05 => .xor core d a b
  | 0x06 => .shl core d a b
  | 0x07 => .shr core d a b
  | 0x08 => .sra core d a b
  | 0x09 => .mul core d a b
  | 0x0A => .mulh core d a b
  | 0x0B => .mulhu core d a b
  | 0x0C => .slt core d a b
  | 0x0D => .sltu core d a b
  | 0x0E => .min core d a b
  | 0x0F => .max core d a b
  | 0x10 => .clz core d a
  | 0x11 => .popc core d a
  | 0x38 => .jr core a
  | 0x61 => .dwait core a
  | 0x68 => .tile core
  | 0x69 => .fence core
  | 0x6A => .semacq core a
  | 0x6B => .semrel core a
  | 0x6C => .rwait core d a b
  | 0x70 => .exit core a
  | _ => .illegalInstruction core

/-- The instructions of formats I, U, B and J (R78). -/
def decodeImm (core w : Nat) : Instr :=
  let d := awlD w
  let a := awlA w
  let imm := awlImm w
  match w / 2 ^ 24 % 256 with
  | 0x18 => .addi core d a imm
  | 0x19 => .andi core d a imm
  | 0x1A => .ori core d a imm
  | 0x1B => .xori core d a imm
  | 0x1C => .shli core d a imm
  | 0x1D => .shri core d a imm
  | 0x1E => .srai core d a imm
  | 0x1F => .slti core d a imm
  | 0x20 => .lui core d (BitVec.ofNat 19 w)
  | 0x28 => .ldw core d a imm
  | 0x29 => .ldh core d a imm
  | 0x2A => .ldb core d a imm
  | 0x2B => .stw core d a imm
  | 0x2C => .sth core d a imm
  | 0x2D => .stb core d a imm
  | 0x2E => .ldp core d a imm
  | 0x2F => .stp core d a imm
  | 0x30 => .beq core d a imm
  | 0x31 => .bne core d a imm
  | 0x32 => .blt core d a imm
  | 0x33 => .bge core d a imm
  | 0x34 => .bltu core d a imm
  | 0x35 => .bgeu core d a imm
  | 0x36 => .jmp core (BitVec.ofNat 24 w)
  | 0x37 => .call core (BitVec.ofNat 24 w)
  | 0x6E => .csrr core d imm
  | 0x6F => .csrw core a imm
  | _ => .illegalInstruction core

/-- The instructions of format X (R77, R78). form is the row that the descriptor of an ECONV (0 MAC MAIN, 1 MAC EDGE, 2 MAX, 3 AVG) or of a DMA (its OP)
names. -/
def decodeX (core w form : Nat) : Instr :=
  let d := awlD w
  let a := awlA w
  let zero := awlZero core w
  match w / 2 ^ 24 % 256, form with
  | 0x40, _ => zero (.emma core a)
  | 0x41, 0 => zero (.econvMacMain core a)
  | 0x41, 1 => zero (.econvMacEdge core a)
  | 0x41, 2 => zero (.econvMax core a)
  | 0x41, _ => zero (.econvAvg core a)
  | 0x42, _ => awlEngines core w fun m => .ezero core m
  | 0x43, _ => awlEngines core w fun m => .eswap core m
  | 0x44, _ => awlEngines core w fun m => .edrain core a m
  | 0x45, _ => awlEngines core w fun m => .ewait core m
  | 0x48, _ => decodeVop core w
  | 0x50, _ => zero (.sint core d a)
  | 0x51, _ => zero (.smrg core d a)
  | 0x52, _ => zero (.stopk core d a)
  | 0x53, _ => zero (.scmp core d a)
  | 0x58, _ => zero (.gath core a)
  | 0x59, _ => zero (.scat core a)
  | 0x5A, _ => zero (.scadd core a)
  | 0x60, 0 => zero (.dmaCopy core d a)
  | 0x60, 1 => zero (.dmaConvert core d a)
  | 0x60, 2 => zero (.dmaZcStore core d a)
  | 0x60, _ => zero (.dmaZcLoad core d a)
  | _, _ => .illegalInstruction core

/-- Opcodes of formats I, U, B and J. -/
def awlImmOp (op : Nat) : Bool := decide (0x18 ≤ op ∧ op ≤ 0x37) || op == 0x6E || op == 0x6F

/-- Opcodes of format X. -/
def awlXOp (op : Nat) : Bool := decide (0x40 ≤ op ∧ op ≤ 0x60)

/-- The instruction an Awl word spells on a core, the illegal instruction where the word breaks R77 or its opcode is not in R78. -/
def decodeAwl (core w form : Nat) : Instr :=
  let op := w / 2 ^ 24 % 256
  if awlImmOp op then decodeImm core w
  else if awlXOp op then decodeX core w form
  else awlZero core w (decodeT core w)

end Sys2Proof
end

