-- ==== Sys2Proof/Machine/Flags.lean ====
section
/-! DEFINITION. Flag and status computations: completion status codes (R11, R12), counters, event bits (R8). -/

namespace Sys2Proof.Machine

/-- Largest value of a 32-bit counter: counters saturate at 0xFFFF_FFFF (R26, R293, R337, R357, R382, R407, R408). -/
def cntMax : Nat := 0xFFFFFFFF

/-- A saturating counter counts n events. -/
def satAdd (c n : Nat) : Nat := min cntMax (c + n)

/-- A saturating counter counts one event. -/
def satInc (c : Nat) : Nat := min cntMax (c + 1)

/-- A counter after a clear in whose cycle a count event may fall: it ends at 1 then (R27, R69, R293, R316). -/
def clrCount (sameCycle : Bool) : Nat := if sameCycle then 1 else 0

/-- Counter k of a block after a clear: bit k of the mask says that a count event falls in the clear's cycle (R27 and the rules like it). -/
def cleared (same k : Nat) : Nat := clrCount (bitAt same k)

/-- RW1C: each 1 written clears its bit, unless hardware sets it in the same cycle (R6, R8). -/
def rw1c (old written hwSet : Nat) : Nat := andNot old written ||| hwSet

/-- The group of R12 a status code falls in; a smaller group goes first. -/
def statusGroup (c : Nat) : Nat :=
  if c = 0x10 ∨ c ≥ 0x30 then 0 else if c = 0x01 then 1 else if c = 0x02 then 2 else 3

/-- R12 over two statuses: the first applicable group, and in it the numerically highest code. -/
def statusJoin (a b : Nat) : Nat :=
  if statusGroup a < statusGroup b then a
  else if statusGroup b < statusGroup a then b
  else max a b

/-- R12 over all statuses of one completion; 0x00 when there is none. -/
def statusOf (cs : List Nat) : Nat := cs.foldl statusJoin 0

/-- The result is published under R11: OK, EMPTY_OUTPUT, RERUN_WIDE, SATURATED. -/
def publishes (c : Nat) : Bool := c == 0x00 || c == 0x11 || c == 0x20 || c == 0x21

/-- The status codes the device produces (R11). -/
def statusCodes : List Nat := [0x00, 0x01, 0x02, 0x10, 0x11, 0x20, 0x21, 0x30, 0x31, 0x40, 0x41, 0x50, 0x51, 0x60]

end Sys2Proof.Machine
end

