-- ==== Sys2Proof/Config.lean ====
section
/-! DEFINITION. What the implementation or the surroundings fix and the spec leaves open: free values (constants without
a body, so that no proof can know one), and the outside functions the spec names without giving them. -/

namespace Sys2Proof.Config

/-- The n-th free 32-bit value: a result the spec does not state (log entry 3). -/
opaque freeWord : Nat → Word

/-- The n-th free natural number: a choice the spec leaves open, to be reduced to its range by the user (log entry 3). -/
opaque freeNat : Nat → Nat

/-- SLH-DSA verification (R37, R41, R425): parameter set name, public key, message, signature (log entry 5). -/
opaque slhVerify : String → List Byte → List Byte → List Byte → Bool

/-- SLH-DSA signing of the attestation report (R428): private seed, message (log entry 5). -/
opaque slhSign : List Byte → List Byte → List Byte

/-- The identity public key derived from a PUF secret (R426): SLH-DSA-SHAKE-128f key generation (log entry 5). -/
opaque slhPublicKey : List Byte → List Byte

/-- The 32-byte Acbex root key hash held in the mask ROM (R41, R423). -/
opaque rootKeyHash : List Byte

/-- The gain held by the die record's CAL bytes, whose layout is internal to the device (R366); none when it holds none. -/
opaque calGain : List Byte → Option Nat

/-- The place of the first of N probes along the major axis, and the distance from each to the next, as FP32 shares of the axis (R195 says that
the probes lie evenly and gives no place, log entry 27). -/
opaque probeStart : Nat → Nat
opaque probeStep : Nat → Nat

/-- The victim way of a loft set (pseudo-LRU, R351), among the allowed ways: a seed and the number of candidates. -/
opaque loftVictim : Nat → Nat

/-- The vertex where an edge meets a clip plane (R183 gives the method, not the arithmetic): plane number, the edge's two vertices as words
(log entry 24). -/
opaque clipPoint : Nat → List Nat → List Nat → List Nat

/-- A channel as FP32 of a texel of format 0, whose name the spec gives and whose layout it does not (R194, log entry 6): the texel's byte,
channel. -/
opaque texel0 : Nat → Nat → Nat

/-- The bits DSC 1.2a makes of one line of a slice (R252 names the coding and does not give it, log entry 69): the settings of R251, the lines of the
slice so far, oldest first. -/
opaque dscBits : List Nat → List (List Nat) → List Byte

/-- The DSC picture parameter set of a list of settings (R251, log entry 69). -/
opaque dscPps : List Nat → List Nat

/-- The number of slivers of KAPPEND (3) or KLIST (4) for a parameter block: R152 says what it follows from and gives no formula (log entry 79). -/
opaque kernelParts : Nat → List Byte → Nat

/-- The version field of the JTAG IDCODE (R450 does not give it). -/
opaque idVersion : Nat

end Sys2Proof.Config
end

