-- ==== Sys2Proof/Machine/State.lean ====
section
/-! DEFINITION. The machine's state as plain data: every register, FIFO, buffer, counter, mode and pin of the spec, the free
value counter, and the queue of waiting commands. Default field values are the reset values (R10, R45); each table's unlisted
keys stand for the default of its structure. -/

namespace Sys2Proof.Machine

/-! ### Outputs -/

/-- The secondary-data packets a pipe sends (R242). -/
inductive Sdp where
  /-- Colorimetry (R244). -/
  | vsc
  /-- HDR static metadata (R265). -/
  | hdr
  /-- Once per frame with VRR=1 (R253). -/
  | adaptiveSync
  /-- The DSC picture parameter set (R251). -/
  | pps
  deriving DecidableEq, Repr

/-- One thing the device puts on its wires (the observable output of the block). -/
inductive OutPkt where
  /-- A posted write to host memory (R322 MWR, SPACE=HOSTMEM): module, context, address, data. -/
  | mwr (module ctx addr : Nat) (data : List Byte)
  /-- A read request to host memory (R322 MRD): module, tag, context, address, bytes. -/
  | mrd (module tag ctx addr len : Nat)
  /-- A completion with data for a host read (R322 CPL). -/
  | cpl (module tag : Nat) (data : List Byte)
  /-- A completion without data (R322 CPLE): code. -/
  | cple (module tag code : Nat)
  /-- A message interrupt (R322 MSG): vector. -/
  | msg (module vector : Nat)
  /-- The INIT of a module (R325): PH, NPH, PD. -/
  | init (module ph nph pd : Nat)
  /-- Credits the device returns as its receive buffers empty (R325 CRD): PH, NPH, PD. -/
  | crd (module ph nph pd : Nat)
  /-- A Harness packet (R384): message kind and its words. -/
  | harness (kind : String) (words : List Nat) (data : List Byte)
  /-- An AUX request of a pipe (R264): request words and data. -/
  | aux (pipe cmd addr len : Nat) (data : List Byte)
  /-- A line of pixels a pipe sends to its panel (R248): pipe, line, pixel words. -/
  | line (pipe line : Nat) (pixels : List Nat)
  /-- A line of a pipe compressed under DSC (R251, R252): pipe, line, the bits of each slice. -/
  | dsc (pipe line : Nat) (slices : List (List Byte))
  /-- A secondary-data packet of a pipe (R242): its payload as words. -/
  | sdp (pipe : Nat) (kind : Sdp) (data : List Nat)
  /-- The main stream attributes of a frame: timing to be ignored (R253), sync polarities, DISPLAY words 1 to 4 (R244, R245). -/
  | msa (pipe : Nat) (ignore hpol vpol : Bool) (timing : List Nat)
  /-- Panel Replay is signalled active or left (R254, R259). -/
  | panelReplay (pipe : Nat) (active : Bool)
  /-- A pipe's main link is trained: rate code, lanes code, down-spread, forward error correction (R242, R244, R256). -/
  | trained (pipe rate lanes : Nat) (ssc fec : Bool)
  /-- An AVSBus voltage write on rail 0 (R370, R380): millivolts. -/
  | avs (millivolts : Nat)
  /-- TDO bits the TAP shifts out (R450). -/
  | tdo (bits : List Bool)
  deriving DecidableEq, Repr

/-! ### Stores -/

/-- A store with valid bits per granule (R52): the bytes of valid granules, zero where not listed, and the valid granules. -/
structure Store where
  cells : List (Nat × Byte) := []
  valid : List Nat := []
  deriving DecidableEq, Repr

/-! ### Identity and global registers -/

/-- The ID and global block (R26, R44), run-time part. -/
structure Glob where
  /-- GLOBAL_ID.PART, 16 bits, from the record (R26). -/
  part : Nat := 0
  /-- GLOBAL_ID[23:16], STEP, 8 bits, from the record (R26, R40). -/
  step : Nat := 0
  /-- GLOBAL_STALL_EN, 64 bits, from the record (R26, R40). -/
  stallEn : Nat := 0
  /-- GLOBAL_UNITS.CONFIG: 0 SOLO, 1 TEAM, 2 TANDEM (R2, R26). -/
  config : Nat := 0
  /-- DUO_ID strap as GLOBAL_UNITS shows it (R26). -/
  duoId : Bool := false
  /-- The clock domains started, bits 16 to 0 (R26): 0x0_4000 after reset. GLOBAL_DOMAINS.RUN shows those of them that the power state lets run
  (R377). -/
  domainsRun : Nat := 0x4000
  /-- GLOBAL_WRITE_REJECTS.COUNT (R26). -/
  rejects : Nat := 0
  /-- GLOBAL_LOAD_ADDR (R44). -/
  loadAddr : Nat := 0
  /-- GLOBAL_AMEND_STATUS.STATE: 0 IDLE, 1 BUSY, 2 DONE, 3 REJECTED (R44). -/
  amendState : Nat := 0
  /-- GLOBAL_AMEND_STATUS.REASON (R44, R456). -/
  amendReason : Nat := 0
  /-- GLOBAL_AMEND_COUNT (R44). -/
  amendCount : Nat := 0
  /-- The effective Pattern digest, 32 bytes (R38, R44); all zero before a load. -/
  patternDigest : List Byte := List.replicate 32 0
  /-- Held high words of 64-bit registers (R5), by low-word offset. -/
  hiHeld : Tab Nat := []
  /-- Latched high words of 64-bit registers (R5), by low-word offset. -/
  hiLatch : Tab Nat := []
  /-- The value the last register read returned (R4, R5). -/
  rd : Nat := 0
  /-- The device has reached READY (R42 step 12) and accepts doorbells (R43); kept beside the boot phase for the run-time blocks. -/
  ready : Bool := false
  /-- The device is past step 11 (R323: DEVMEM requests are accepted). -/
  memUp : Bool := false
  /-- Reference cycles at 38.4 MHz since power-on (R405, R429). -/
  refCycles : Nat := 0
  /-- Domains held by an amendment (R48), a mask. -/
  heldDomains : Nat := 0
  deriving DecidableEq, Repr

/-! ### Memory system -/

/-- One LPDDR5X channel (R338, R345, R346, R357). -/
structure Chan where
  /-- MEM_CH_STATUS.STATE: 0 RESET, 1 TRAINING, 2 ACTIVE, 3 SELF_REFRESH, 4 FAILED. -/
  st : Nat := 0
  /-- MR4_RATE field (R357). -/
  mr4 : Nat := 0
  /-- Refresh intervals owed, 0 to 8 (R345). -/
  debt : Nat := 0
  /-- Density code of the channel's device: 0 512 MiB, 1 1 GiB, 2 2 GiB (R338). -/
  density : Nat := 0
  /-- MODEL: write-clock retrainings so far (R344). -/
  retrains : Nat := 0
  /-- Its device last reported a temperature beyond its upper limit (R345). -/
  hot : Bool := false
  deriving DecidableEq, Repr

/-- One line of the loft cache (R351, R352). -/
structure LoftLine where
  /-- Line number: device physical address / 128. -/
  line : Nat
  /-- Slice = channel. -/
  slice : Nat
  /-- Set index (R351). -/
  set : Nat
  /-- Way within the domain's WAYS mask. -/
  way : Nat
  /-- Owning domain. -/
  dom : Nat
  dirty : Bool
  /-- The 128 bytes of a dirty line; empty while clean (the channel holds them). -/
  data : List Byte
  deriving DecidableEq, Repr

/-- A cached translation (R331, R333). -/
structure Xlat where
  ctx : Nat
  /-- First virtual address and log2 of the size of the page. -/
  va : Nat
  lg : Nat
  pa : Nat
  write : Bool
  host : Bool
  noalloc : Bool
  deriving DecidableEq, Repr

/-- The memory system (R338 to R357) with the translation caches (R331). -/
structure MemSys where
  /-- Device memory by device physical address; a byte not listed reads 0 (log entry 2). -/
  dram : List (Nat × Byte) := []
  /-- Host memory by host physical address; a byte not listed reads 0 (log entry 2). -/
  host : List (Nat × Byte) := []
  /-- Lines present in the loft cache (R351). -/
  loft : List LoftLine := []
  /-- 64-byte blocks of device memory that fail every read until rewritten (R350), by address / 64. -/
  bad : List Nat := []
  /-- What channels that belong to no domain hold since a RELOAD (R45), by channel × 2^40 + place, and the blocks there that fail. -/
  shelf : List (Nat × Byte) := []
  shelfBad : List Nat := []
  chans : Tab Chan := []
  /-- MEM_CFG.RATE, TYPE, INLINE_ECC (Pattern), DENSITY (R357). -/
  rate : Nat := 0
  lp5 : Bool := false
  inlineEcc : Bool := false
  density : Nat := 0
  /-- Per-domain channel masks, way masks, in ID order (R33, R340). -/
  domChans : List Nat := []
  domWays : List Nat := []
  chSel : Nat := 0
  domSel : Nat := 0
  /-- MEM_SR_IDLE, 16 bits, reset 0x0064. -/
  srIdle : Nat := 0x64
  /-- MEM_SCRUB.HOURS, 8 bits, reset 0x18. -/
  scrub : Nat := 0x18
  events : Nat := 0
  irq : Nat := 0
  errAddr : Nat := 0
  /-- MEM_ERR_INFO: CH, KIND, VALID. -/
  errInfo : Nat := 0
  linkCorr : Nat := 0
  inlineCorr : Nat := 0
  uncorr : Nat := 0
  loftCorr : Nat := 0
  /-- LOFT_HITS and LOFT_MISSES per domain. -/
  hits : Tab Nat := []
  misses : Tab Nat := []
  /-- LOFT_STATUS.BUSY, 8 bits. -/
  loftBusy : Nat := 0
  /-- Domains whose running LOFT_CMD also invalidates (R354). -/
  loftInval : Nat := 0
  /-- The memory-hot condition of R345 holds (R365). -/
  hot : Bool := false
  /-- The shared TLB, 4,096 entries, newest first (R331). -/
  tlb : List Xlat := []
  /-- The TLB of each stall, 64 entries, newest first (R331). -/
  stallTlb : Tab (List Xlat) := []
  deriving DecidableEq, Repr

/-! ### Host link -/

/-- A device read outstanding on a module (R322, R326, R329). -/
structure Read where
  tag : Nat
  /-- The DMA transfer it belongs to (its ident), and where its bytes go in it. -/
  xfer : Nat
  off : Nat
  len : Nat
  /-- Completion space held, in 16-byte units. -/
  units : Nat
  deriving DecidableEq, Repr

/-- One UCIe module (R317 to R329). -/
structure Module where
  /-- State: 0 DOWN, 1 TRAINING, 2 INIT, 3 UP, 4 RETRAIN, 5 HARNESS (R337). -/
  st : Nat := 0
  /-- Credit totals from the host's INIT (R325). -/
  ph : Nat := 0
  nph : Nat := 0
  pd : Nat := 0
  /-- Credits in the link ledger by class: PH, PD, NPH, CPLBUF (R326). -/
  ledger : List Nat := [0, 0, 0, 0]
  /-- Reads outstanding. -/
  reads : List Read := []
  /-- Replays of the flit now failing (R327). -/
  replays : Nat := 0
  /-- Reference cycles at which its retrains of the last 1 ms began, newest first (R328). -/
  retrainAt : List Nat := []
  /-- Posted writes and message interrupts waiting to be sent, oldest first (R324, R335). -/
  txq : List OutPkt := []
  /-- The next tag to use. -/
  nextTag : Nat := 0
  deriving DecidableEq, Repr

/-- A HOSTLINK_VECv register (R337): MASK reset 1. -/
structure Vec where
  mask : Bool := true
  pending : Bool := false
  deriving DecidableEq, Repr

/-- A host request that waits for the exit from the die's STILL (R379): kind 0 register write, 1 register read, 2 DEVMEM write, 3 DEVMEM
read; module, offset or address, tag, value or byte count, data. -/
structure HeldReq where
  kind : Nat
  module : Nat := 0
  addr : Nat
  tag : Nat := 0
  n : Nat := 0
  data : List Byte := []
  mask : List Bool := []
  deriving DecidableEq, Repr

/-- The host link block (R317 to R337). -/
structure Link where
  m0 : Module := {}
  m1 : Module := {}
  /-- HOSTLINK_CPL_TIMEOUT, reset 0x03E8. -/
  cplTimeout : Nat := 0x3E8
  events : Nat := 0
  irq : Nat := 0
  kvIrq : Nat := 0
  replays : Nat := 0
  retrains : Nat := 0
  dbDropped : Nat := 0
  dbRange : Nat := 0
  lateCpl : Nat := 0
  malformed : Nat := 0
  xlatAddr : Nat := 0
  /-- HOSTLINK_XLAT_INFO: CONTEXT, KIND, WRITE, VALID. -/
  xlatInfo : Nat := 0
  invAddr : Nat := 0
  /-- HOSTLINK_INV_CTRL CONTEXT and SCOPE. -/
  invCtrl : Nat := 0
  invBusy : Bool := false
  invDone : Bool := false
  /-- HOSTLINK_CTX_PTc (R331), reset 0. -/
  ctxPt : Tab Nat := []
  vecs : Tab Vec := []
  /-- Host requests waiting for the exit from the die's STILL (R379), oldest first. -/
  stillHeld : List HeldReq := []
  /-- The module 0 link is in the UCIe L1 state (R377). -/
  l1 : Bool := false
  deriving DecidableEq, Repr

/-! ### Conserved pools -/

/-- One instance of a conserved pool (R310, R311). -/
structure Pool where
  total : Nat := 0
  free : Nat := 0
  held : Nat := 0
  deriving DecidableEq, Repr

/-- Pools and audit registers (R310 to R316). -/
structure Cons where
  /-- Pool instances, keyed 64 × pool + instance. -/
  pools : Tab Pool := []
  sel : Nat := 0
  faults : Nat := 0
  sweeps : Nat := 0
  semAuto : Nat := 0
  events : Nat := 0
  /-- CONS_LAST: POOL, INST, CHECK, CONTEXT, CTX_VALID. -/
  last : Nat := 0
  /-- Latched FREE and HELD of the last CONS_TOTAL read (R316). -/
  latchFree : Option Nat := none
  latchHeld : Option Nat := none
  deriving DecidableEq, Repr

/-! ### Jobs, packets, semaphores -/

/-- Who holds or asks for semaphore tokens (R307). -/
inductive SemHolder where
  /-- A sliver: task group, sliver number. -/
  | sliver (tg sliver : Nat)
  /-- A task group (the lock of a built-in kernel, R154). -/
  | group (tg : Nat)
  /-- A job. -/
  | job (job : Nat)
  deriving DecidableEq, Repr

/-- Tokens held, one entry per granted request, oldest first (R307). -/
structure SemHold where
  who : SemHolder
  n : Nat
  deriving DecidableEq, Repr

/-- A waiting request (R306). -/
structure SemReq where
  who : SemHolder
  all : Bool
  deriving DecidableEq, Repr

/-- A semaphore (R306). -/
structure Sem where
  total : Nat := 0
  holds : List SemHold := []
  waits : List SemReq := []
  deriving DecidableEq, Repr

/-- A job record (R300 to R305). -/
structure Job where
  /-- State code of R300. -/
  st : Nat := 0
  ctx : Nat := 0
  exact : Bool := true
  brand : Bool := false
  irqDone : Bool := false
  vector : Nat := 0
  complAddr : Nat := 0
  /-- Statuses of its packets joined by R12. -/
  status : Nat := 0
  opens : Nat := 0
  packets : Nat := 0
  /-- GROUP of the first task group whose status decided STATUS. -/
  group : Nat := 0
  reruns : Nat := 0
  reexec : Nat := 0
  lastDone : Bool := false
  started : Bool := false
  /-- Status a cancel adds: 0x01, or 0x31, 0x41, 0x50 by its cause (R284, R303, R315, R397). -/
  cancelWith : Nat := 0
  /-- RESUME held while SUSPENDING (R300). -/
  resumeHeld : Bool := false
  /-- SEC_MANIFEST of the job, device physical; 0 for none (R415, R431). -/
  manifest : Nat := 0
  /-- Effective Pattern digest when the job first entered RUNNING (R38). -/
  digest : List Byte := []
  /-- The Brand formed for the job (R419). -/
  brandValue : List Byte := []
  deriving DecidableEq, Repr

/-- A packet fetched into a task slot (R295). -/
structure Pkt where
  /-- The sixteen words. -/
  words : List Nat
  /-- The packet has started (is in progress). -/
  started : Bool := false
  /-- The task group, pass or command it became, when any. -/
  work : Option Nat := none
  deriving DecidableEq, Repr

/-- A queue head (R98). -/
structure Queue where
  ctx : Nat := 0
  isOpen : Bool := false
  ringBase : Nat := 0
  ringLog2 : Nat := 4
  write : Nat := 0
  read : Nat := 0
  lastStatus : Nat := 0
  done : Nat := 0
  /-- Fetched packets, at most two: the one in progress and the next (R295). -/
  slots : List Pkt := []
  /-- A ring fetch faulted: the queue fetches again on its next doorbell (R332). -/
  blocked : Bool := false
  deriving DecidableEq, Repr

/-- A context (R34, R266, R293, R315). -/
structure Ctx where
  valid : Bool := false
  domain : Nat := 0
  /-- BRIDLE_CTX_PRIOc.PRIO. -/
  prio : Nat := 0
  compositor : Bool := false
  realtime : Bool := false
  saveAddr : Nat := 0
  mixEn : Bool := true
  prefillMax : Nat := 1
  calm : Bool := false
  deriving DecidableEq, Repr

/-- An isolation domain (R33). -/
structure Dom where
  stalls : Nat := 0
  contexts : Nat := 0
  topPrio : Nat := 0
  deriving DecidableEq, Repr

/-! ### Cores, engines, slivers -/

/-- The two accumulator banks of an engine, 16 FP32 values each, row-major (R74). -/
structure Engine where
  active : List Word := List.replicate 16 0
  drain : List Word := List.replicate 16 0
  deriving DecidableEq, Repr

/-- Kinds of engine command (R76). -/
inductive EngKind where
  | mac | conv | zero | swap | drain
  deriving DecidableEq, Repr

/-- One step of an engine, captured at issue (R82): the sixteen sums s of R72, the correction products of R115 with the output
element each is added to, and whether a product or sum saturated (R73). -/
structure EngStep where
  sums : List Word
  corr : List (Nat × Word) := []
  sat : Bool := false
  deriving DecidableEq, Repr

/-- One engine's share of an EMMA or ECONV: its steps in order, and whether ACTIVE is set to +0 first (R76). -/
structure EngWork where
  engine : Nat
  zeroFirst : Bool
  steps : List EngStep
  deriving DecidableEq, Repr

/-- An engine command in flight (R457): the engines that have still to carry it out, and its captured data. -/
structure EngCmd where
  kind : EngKind
  mask : Nat
  work : List EngWork := []
  /-- EDRAIN: local store address. -/
  addr : Nat := 0
  /-- Expansion saturations of its operands (R117), and whether a group is malformed (R112). -/
  expSat : Nat := 0
  malformed : Bool := false
  /-- EMMA, ECONV: an idle core takes the second half of its steps (R97): 0 no, 1 its half ends last, 2 its half ends first. -/
  steal : Nat := 0
  deriving DecidableEq, Repr

/-- What a core waits for (R83). -/
inductive Wait where
  | none
  /-- EWAIT on the engines of a mask (R76). -/
  | engines (mask : Nat)
  /-- TILE, until the core's engine commands have ended (R83). -/
  | tile
  /-- A boundary instruction has completed, and the tile it ends stays open until the last engine command in flight ends (R83). -/
  | tileOpen
  /-- FENCE, until earlier DMA writes are visible (R78). -/
  | fence
  /-- DWAIT on a ticket (R78). -/
  | ticket (t : Nat)
  /-- A DMA issue that waits for one of the core's four descriptor slots (R309): destination register and descriptor address. -/
  | dmaSlot (d addr : Nat)
  /-- SEMACQ (R306). -/
  | sem (s : Nat)
  /-- RWAIT on a mailbox entry (R287): entry, destination register, local store address. -/
  | mbox (e d addr : Nat)
  /-- EXIT, until the core's transfers have ended: the sliver's status (log entry 15). -/
  | exit (st : Nat)
  deriving DecidableEq, Repr

/-- Who asks for a core (R274, R277): the next sliver of a task group, or a save that may be resumed (its order number). -/
inductive Cand where
  | fresh (tg : Nat)
  | saved (seq : Nat)
  deriving DecidableEq, Repr

/-- A pre-emption request standing against a running sliver (R274 to R276). -/
structure PreReq where
  /-- The waiting sliver S; none for a suspend (R289). -/
  cand : Option Cand
  prio : Nat
  /-- Save granules reserved. -/
  granules : Nat
  /-- LIVE at the request: a CSRW above it is a boundary. -/
  live : Nat
  /-- Reference cycles at the request (R278). -/
  time : Nat := 0
  deriving DecidableEq, Repr

/-- The tally of one quantisation record a task group uses (R129 to R131). -/
structure Tally where
  /-- Device virtual address of the record. -/
  qrec : Nat
  action : Nat := 0
  thresh : Nat := 0
  hasWide : Bool := false
  sat : Nat := 0
  escOv : Nat := 0
  regauged : Nat := 0
  nans : Nat := 0
  /-- What each sliver has added: saturations, escape overflows, regauged groups, NaNs; a withheld sliver's share is taken back (R401). -/
  parts : List (Nat × List Nat) := []
  /-- It qualified, and the re-run writes the wide form (R130). -/
  wide : Bool := false
  deriving DecidableEq, Repr

/-- A staged scatter-add element (R91): sliver, position, destination in pool or memory, FP32 value. -/
structure Staged where
  sliver : Nat
  pool : Bool
  stall : Nat
  addr : Nat
  value : Word
  deriving DecidableEq, Repr

/-- The Awl state of a running sliver (R79, R92 to R94). -/
structure Run where
  tg : Nat
  sliver : Nat
  /-- x0 to x31; entry 0 stays 0. -/
  regs : List Word := List.replicate 32 0
  pc : Nat := 0
  arg : Nat := 0
  exact : Bool := true
  live : Nat := 64
  round : Nat := 0
  seed : Word := 0
  tensor : Word := 0
  accSat : Nat := 0
  setCnt : Nat := 0
  va : List Word := List.replicate 16 0
  engines : List Engine := List.replicate 4 {}
  cmds : List EngCmd := []
  /-- Codes the expansion and conversion paths have set (R95). -/
  codes : Nat := 0
  /-- Tickets issued so far (R309). -/
  tickets : Nat := 0
  wait : Wait := .none
  /-- Status with which the sliver ends at its next tile boundary (a cancel, R303). -/
  cancel : Option Nat := none
  pre : Option PreReq := none
  /-- It is a sliver of a built-in kernel, whose instructions the spec does not give (R152). -/
  kernel : Bool := false
  deriving DecidableEq, Repr

/-- A save of a pre-empted, parked or suspended sliver (R92, R93, R279, R287, R289). -/
structure Save where
  run : Run
  /-- Live local store bytes. -/
  ls : List Byte
  granules : Nat
  seq : Nat
  /-- Mailbox entry the sliver is parked on (stall, entry). -/
  parked : Option (Nat × Nat) := none
  /-- The stall it was saved in (its mailbox). -/
  stall : Nat := 0
  /-- Transfers cancelled in flight, to be issued again (R281): tickets. -/
  reissue : List Nat := []
  /-- Cores a fault took from it while they were being saved for it (R280). -/
  shun : List Nat := []
  deriving DecidableEq, Repr

/-- What a core does (R103 STALL_COREc.STATE). -/
inductive CoreSt where
  | idle | running | saving | restoring | failed
  deriving DecidableEq, Repr

/-- A logical core (R94, R103). -/
structure Core where
  st : CoreSt := .idle
  run : Option Run := none
  ls : Store := {}
  epoch : Nat := 1
  /-- The sliver that takes the core when a save completes (R275): task group, sliver, and the order number of its save when it resumes. -/
  next : Option (Nat × Nat × Option Nat) := none
  /-- It stands at a boundary and its save is requested or runs (R275, R283, R289, R396). -/
  frozen : Bool := false
  /-- The save it restores: order number (R279). -/
  resume : Option Nat := none
  /-- Reference cycles of the SLIVER-class faults of its physical slot within the last second, newest first (R402). -/
  faultAt : List Nat := []
  deriving DecidableEq, Repr

/-- A stall mailbox entry (R286). -/
structure Mbox where
  pending : Bool := false
  full : Bool := false
  parked : Bool := false
  orphan : Bool := false
  status : Nat := 0
  tag : Nat := 0
  srcDie : Bool := false
  data : List Byte := []
  /-- MODEL: the sliver whose remote request names the entry (R288): task group, sliver. -/
  owner : Option (Nat × Nat) := none
  deriving DecidableEq, Repr

/-- A stall (R16, R50, R93, R98 to R103, R132). -/
structure Stall where
  gated : Bool := true
  /-- A wake is in progress: the power switch is closing (R376). -/
  waking : Bool := false
  failed : Bool := false
  epoch : Nat := 1
  slotMap : List Nat := []
  failedPhys : List Nat := []
  pool : Store := {}
  /-- Bytes of pool granules that fault on every read until rewritten (R400 SHARED_DATA), by byte address. -/
  badPool : List Nat := []
  saves : List Save := []
  saveFree : Nat := 1024
  mbox : Tab Mbox := []
  qselHead : Nat := 0
  qselWord : Nat := 0
  qlatch : Option (List Nat) := none
  tileOverruns : Nat := 0
  gsRange : Nat := 0
  subst : Nat := 0
  expSat : Nat := 0
  convSat : Nat := 0
  escapes : Nat := 0
  regauges : Nat := 0
  deriving DecidableEq, Repr

/-! ### Task groups and Bridle -/

/-- Where a task group stands (R268). -/
inductive TgSt where
  /-- Waits for a beam fire (R64). -/
  | beamWait
  /-- READY but undispatched, waiting on its flag line (R216). -/
  | flagWait
  | ready
  /-- A built-in kernel waiting for its list lock (R154), for a page frame or host slot (R172), or between the two. -/
  | lockWait
  | pageWait
  | running
  deriving DecidableEq, Repr

/-- A task group (R95, R298). -/
structure Tg where
  queue : Nat := 0
  ctx : Nat := 0
  job : Nat := 0
  kernel : Nat := 0
  eng : Nat := 0
  vec : Bool := false
  setgs : Bool := false
  aff : Nat := 0
  slivers : Nat := 1
  code : Nat := 0
  stripes : Nat := 0
  group : Nat := 0
  param : Nat := 0
  args : List Nat := []
  cls : Nat := 0
  bandEnd : Bool := false
  gateEn : Bool := false
  gate : Nat := 0
  flagAddr : Nat := 0
  arg : Nat := 0
  exact : Bool := true
  st : TgSt := .ready
  /-- The next sliver not yet dispatched, and slivers to dispatch again (R401). -/
  next : Nat := 0
  redo : List Nat := []
  /-- Slivers above next that were dispatched already, taken for their affinity (R271). -/
  ahead : List Nat := []
  ended : Nat := 0
  status : Nat := 0
  /-- Order in which it became READY (R272), and in which it was queued (R216). -/
  seq : Nat := 0
  queued : Nat := 0
  /-- Its flag line released it before its beam fire: with the status of a failed command, if any (R216). -/
  flagEnd : Option (Option Nat) := none
  /-- It is the wide re-run of the task group (R130). -/
  wide : Bool := false
  tallies : List Tally := []
  staged : List Staged := []
  /-- Where its slivers ended: sliver, core, core epoch, stall epoch (R270). -/
  places : List (Nat × Nat × Nat × Nat) := []
  /-- Times each sliver was re-executed after a fault (R401). -/
  retries : Tab Nat := []
  /-- The band chain it belongs to: band and kind, 0 GEN, 1 WARP (R225). -/
  chain : Option (Nat × Nat) := none
  /-- Mirror digest of its writes in TANDEM (R392). -/
  digest : Nat := 0
  /-- A permit request for its next sliver is waiting (R102), with the core chosen. -/
  wantCore : Option Nat := none
  /-- Slivers a fault kept from a core that was being saved for them, with the core (R280). -/
  shun : List (Nat × Nat) := []
  /-- Page frames and host slots a built-in kernel has reserved and not yet used (R172). -/
  frames : List Nat := []
  slots : List Nat := []
  /-- It is the vertex task group of a draw of the queue's render pass (R180); frag: the fragment task group (R197). -/
  shader : Option Nat := none
  frag : Bool := false
  /-- Its pass ends: its slivers end at their next tile boundary (R192). -/
  cut : Bool := false
  deriving DecidableEq, Repr

/-- An affinity record (R270). -/
structure Aff where
  tag : Nat
  sliver : Nat
  core : Nat
  coreEpoch : Nat
  stallEpoch : Nat
  deriving DecidableEq, Repr

/-- The Bridle block (R266 to R294). -/
structure Bridle where
  ctxs : Tab Ctx := []
  doms : List Dom := []
  queues : Tab Queue := []
  /-- Queue ranges of QUEUES (R34): first, count, context. -/
  ranges : List (Nat × Nat × Nat) := []
  tgs : Tab Tg := []
  nextTg : Nat := 0
  /-- Counts the order of events (readiness, saves, requests). -/
  seq : Nat := 0
  aff : List Aff := []
  /-- Task group served last at each priority (R272), by its seq. -/
  served : Tab Nat := []
  /-- Saves moved to context save areas (R289), by context. -/
  areas : Tab (List Save) := []
  /-- Stalls a multi-stall release has still to release (R290). -/
  breeze : List Nat := []
  holdLimit : Nat := 0xC8
  events : Nat := 0
  irq : Nat := 0
  preempts : Nat := 0
  preemptBlocked : Nat := 0
  lends : Nat := 0
  holdCancels : Nat := 0
  parks : Nat := 0
  affHits : Nat := 0
  affStale : Nat := 0
  drainCancels : Nat := 0
  maxSwitch : Nat := 0
  maxPreempt : Nat := 0
  semSel : Nat := 0
  jobSel : Nat := 0
  qcfgSel : Nat := 0
  deriving DecidableEq, Repr

/-- Jobs and semaphores (R300 to R307). -/
structure Work where
  jobs : Tab Job := []
  sems : Tab Sem := []
  deriving DecidableEq, Repr

/-! ### Girth -/

/-- Who holds or asks for draw permits (R358). -/
inductive Holder where
  | coreAwake (stall : Nat)
  | stallAwake (stall : Nat)
  | sliver (tg sliver : Nat)
  | save (core : Nat)
  | dma (stall : Nat)
  | rasterFront
  | tileOwner (n : Nat)
  | texture (n : Nat)
  | vision (n : Nat)
  deriving DecidableEq, Repr

/-- A holding (R359): n equal shares of cost C at OP1 prices, and the point whose prices it was taken or repriced at. -/
structure Holding where
  who : Holder
  cost : Nat
  n : Nat := 1
  ctx : Nat := 64
  op : Nat := 1
  deriving DecidableEq, Repr

/-- What a grant lets happen (R102, R275, R279, R309, R376). -/
inductive Act where
  /-- A sliver of a task group is dispatched on a core. -/
  | dispatch (tg sliver core : Nat)
  /-- The save of a pre-empted core starts. -/
  | save (core : Nat)
  /-- A saved sliver is restored on a core: its save's order number. -/
  | resume (seq core : Nat)
  | wake (stall : Nat)
  | dma (stall : Nat)
  | rasterFront
  | tileOwner (n : Nat)
  | texture (n : Nat)
  /-- A vision engine starts the block queue's command of an order number. -/
  | vision (n cmd : Nat)
  deriving DecidableEq, Repr

/-- A waiting request (R363), oldest first in its list: the holdings are granted together or not at all. -/
structure PermReq where
  holds : List Holding
  prio : Nat
  act : Act
  deriving DecidableEq, Repr

/-- Phases of an operating point step (R370). -/
inductive StepPh where
  | idle | voltageUp | voltageDown | frozenUp | frozenDown
  /-- A forced change to OP6 whose voltage is being lowered (R373, R374). -/
  | forced
  deriving DecidableEq, Repr

/-- The Girth block (R358 to R382). -/
structure Girth where
  /-- Point in force (clock), point at whose prices new requests are granted, and the governor's target. -/
  op : Nat := 1
  priceOp : Nat := 1
  target : Nat := 1
  /-- Rail 0 voltage requested, mV. -/
  mv : Nat := 620
  step : StepPh := .idle
  /-- End point of the step in progress; the ramp of a frozen upward step has settled (R372). -/
  stepTo : Nat := 1
  rampDone : Bool := false
  opMask : Nat := 0
  bootOp : Nat := 1
  /-- 0 RUN, 1 LULL, 2 STILL (R377). -/
  state : Nat := 0
  /-- Transition in progress between power states: 0 none, 1 Lull exit relock, 2 Still entry, 3 Still exit. -/
  moving : Nat := 0
  cap : Nat := 0x186A0
  pool : Nat := 0
  compReserve : Nat := 0
  costs : List Nat := []
  limit : Nat := 0
  withheld : Nat := 0
  holds : List Holding := []
  reqs : List PermReq := []
  /-- Gain G, 1/4,096 units (R366). -/
  gain : Nat := 4096
  rail : Nat := 0
  other : Nat := 0
  fixed : Bool := false
  fixedOp : Nat := 1
  slew : Nat := 0x0A
  settle : Nat := 0x02
  squallHold : Nat := 0x3E8
  gateIdle : Nat := 0x32
  thTarget : Nat := 0x64
  hottest : Nat := 0
  peak : Nat := 0
  memLevel : Nat := 0
  linkLevel : Nat := 0
  reasons : Nat := 0
  events : Nat := 0
  irq : Nat := 0
  reasonUs : Tab Nat := []
  /-- Reference cycles counted toward the next microsecond of each reason, 5 per cycle of 192 (R375). -/
  reasonAcc : Nat := 0
  steps : Nat := 0
  droops : Nat := 0
  stretch : Nat := 0
  hints : Tab (Nat × Nat) := []
  /-- Detectors tripped now (R371), a mask, and whether the clock is stretched. -/
  droopNow : Nat := 0
  stretched : Bool := false
  /-- The squall line is low, or its hold runs (R373). -/
  squallLow : Bool := false
  squallHeld : Bool := false
  /-- Throttling below TARGET (R374), and the 105 °C condition. -/
  throttle : Bool := false
  hot : Bool := false
  avsTries : Nat := 0
  avsFail : Bool := false
  /-- HELD at gain 1.0 summed over the reference cycles of the running millisecond, and those cycles (R366's E). -/
  heldSum : Nat := 0
  heldCycles : Nat := 0
  /-- A step or a stretch fell within the millisecond (R366). -/
  disturbed : Bool := false
  /-- THERMTRIP_N driven low (R445). -/
  thermtrip : Bool := false
  deriving DecidableEq, Repr

/-! ### Beam -/

/-- A Line Schedule Table entry (R60): word 0 and word 1. -/
structure BEntry where
  line : Nat
  tick : Nat
  kind : Nat
  phases : Nat
  w1 : Nat
  deriving DecidableEq, Repr

/-- The Beam unit (R53 to R70). -/
structure Beam where
  /-- The unit has started (R42 step 12, R70). -/
  on : Bool := false
  /-- BEAM.MASTER: 0 pipe 0, 1 pipe 1, 2 NONE. -/
  master : Nat := 2
  period : Nat := 1
  band : Nat := 64
  lead : Nat := 24
  ghostTick : Nat := 0
  ghostVtotal : Nat := 0
  ghostVactive : Nat := 0
  table : List BEntry := []
  line : Nat := 0
  tick : Nat := 0
  /-- A hold repeats its line. -/
  heldNow : Bool := false
  held : Nat := 0
  last : Nat := 0
  /-- SOURCE: 0 pipe 0, 1 pipe 1, 2 ghost. -/
  source : Nat := 2
  phase : Nat := 0
  frame : Nat := 0
  next : Nat := 0
  slip : Bool := false
  gates : Nat := 0
  acc : Nat := 0
  misses : Nat := 0
  skips : Nat := 0
  holdTimeouts : Nat := 0
  events : Nat := 0
  mark : Nat := 0
  markFrame : Nat := 0
  irq : Nat := 0
  latchFrame : Option Nat := none
  latchHold : Option Nat := none
  /-- A BEAM amendment waits for the next frame (R49): MASTER, PERIOD, BAND, LEAD, ghost words, table. -/
  newMaster : Option Nat := none
  newPeriod : Nat := 1
  newBand : Nat := 64
  newLead : Nat := 24
  newGhost : Nat × Nat × Nat := (0, 0, 0)
  newTable : List BEntry := []
  /-- Contexts whose old entries are held back until the new table runs (R49), a mask. -/
  heldBack : Nat := 0
  /-- The pipe, running already when the unit started, that the beam moves to at its next frame start (R70). -/
  moveTo : Option Nat := none
  deriving DecidableEq, Repr

/-! ### DMA agents -/

/-- A host packet a transfer has still to send (R321, R322): read or write, host address, bytes, place in the transfer's stream. -/
structure HPkt where
  read : Bool
  addr : Nat
  len : Nat
  off : Nat
  /-- The peer window is the target, not host memory (R387). -/
  peer : Bool := false
  deriving DecidableEq, Repr

/-- A transfer of a stall DMA agent (R308, R309). -/
structure Xfer where
  id : Nat
  stall : Nat
  core : Nat
  ticket : Nat
  tg : Nat
  sliver : Nat
  ctx : Nat
  /-- 0 COPY, 1 CONVERT, 2 ZC_STORE, 3 ZC_LOAD, 4 the remote request of R388. -/
  op : Nat
  /-- The sixteen descriptor words, copied at issue. -/
  words : List Nat
  round : Nat := 0
  seed : Nat := 0
  tensor : Nat := 0
  /-- CONVERT: the quantisation record's bytes, read at issue (R122). -/
  qrec : List Byte := []
  todo : List HPkt := []
  /-- Bytes of the stream that have arrived from the host or the peer, by place. -/
  buf : List (Nat × Byte) := []
  /-- Failure status, once one is known (R308, R329, R332). -/
  fail : Option Nat := none
  /-- Cancelled when the drain window closed; issued again at the restore (R281). -/
  cancelled : Bool := false
  /-- A pre-emption's drain window runs for it (R281). -/
  draining : Bool := false
  deriving DecidableEq, Repr

/-- The DMA agents. -/
structure Dma where
  xfers : List Xfer := []
  next : Nat := 0
  deriving DecidableEq, Repr

/-! ### Duo -/

/-- The Harness block (R383 to R399, R408). -/
structure Duo where
  /-- 0 DOWN, 1 TRAINING, 2 INIT, 3 FORMED, 4 RETRAIN. -/
  st : Nat := 0
  /-- 0 NONE, 1 WORKER, 2 MANAGER. -/
  role : Nat := 0
  peerLive : Bool := false
  hold : Bool := false
  split : Bool := false
  alone : Bool := false
  peerCalm : Bool := false
  epoch : Nat := 0
  peerEpoch : Nat := 0
  digestWait : Nat := 0x7D0
  events : Nat := 0
  irq : Nat := 0
  mismatches : Nat := 0
  bandMismatches : Nat := 0
  hbMissed : Nat := 0
  roleChanges : Nat := 0
  /-- DIGEST0 of the last HBEAT received (R385). -/
  peerDigest0 : Nat := 0
  /-- Harness lane rate from DUO (R36). -/
  gts : Nat := 0
  /-- SEQ of the next HBEAT (R385). -/
  seq : Nat := 0
  /-- CLAIM of the last two HBEATs received, newest first (R394). -/
  claims : List Nat := []
  /-- Module 1 as the Harness: ledger and reads (R386). -/
  hm : Module := {}
  /-- Own digests of completed task groups and band chains waiting for the worker's: key, job, digest (R393). -/
  waiting : List (Nat × Nat × Nat) := []
  /-- Worker digests that arrived before the manager's own: key, digest. -/
  early : List (Nat × Nat) := []
  /-- Jobs whose mismatch was recorded during DUO_HOLD: job, status (R399). -/
  deferred : List (Nat × Nat) := []
  /-- The die was MANAGER and gave the role up: its pipes stay in Calm until it is reset (R398). -/
  demoted : Bool := false
  /-- Jobs opened before the peer joined, unmirrored (R398). -/
  unmirrored : List Nat := []
  /-- The peer's domain ranges as the environment gives them with its HELLO: base and size per domain (R387). -/
  peerDoms : List (Nat × Nat) := []
  /-- The contexts that the peer's Pattern makes VALID, as its HELLO gives them: a mask (R383, R390). -/
  peerCtxs : Nat := 0
  /-- The shadow of the manager's decisions on the worker (R390): SCHED messages received, newest first. -/
  shadow : List (List Nat) := []
  deriving DecidableEq, Repr

/-! ### Faults and telemetry -/

/-- The fault and telemetry block (R400 to R407). -/
structure Fault0 where
  dieCalm : Bool := false
  cause : Nat := 0
  logSel : Nat := 0
  logCount : Nat := 0
  /-- Entries by index modulo 512, eight words each (R405, R406). -/
  log : Tab (List Nat) := []
  latch : Option (List Nat) := none
  reexec : Nat := 0
  corrected : Nat := 0
  stallsLost : Nat := 0
  events : Nat := 0
  irq : Nat := 0
  autoReload : Bool := false
  /-- FAULT_CORE_LIMIT, reset 3 (R407). -/
  coreLimit : Nat := 3
  deriving DecidableEq, Repr

/-! ### Security -/

/-- A model slot (R418, R431). -/
structure Model where
  /-- 0 EMPTY, 1 SEALING, 2 SEALED. -/
  st : Nat := 0
  /-- SEC_MODEL_ADDR and SEC_MODEL_LEN as written, the length in units of 64 bytes. -/
  regAddr : Nat := 0
  regLen : Nat := 0
  /-- The region taken at SEAL. -/
  addr : Nat := 0
  len : Nat := 0
  dom : Nat := 0
  digest : List Byte := List.replicate 32 0
  deriving DecidableEq, Repr

/-- A manifest entry (R415). -/
structure MEntry where
  addr : Nat
  len : Nat
  kind : Nat
  deriving DecidableEq, Repr

/-- The Brand state of a job (R415 to R419): its manifest as copied, region digests, packet sum. -/
structure BrandSt where
  entries : List MEntry := []
  /-- 0 not started, 1 start digests run, 2 started, 3 end digests run, 4 done. -/
  st : Nat := 0
  starts : Tab (List Byte) := []
  ends : Tab (List Byte) := []
  sum : Nat := 0
  /-- Packets fetched per queue so far (R417). -/
  counts : Tab Nat := []
  models : List (List Byte) := []
  /-- Packets held until the start checks and digests are complete (R416, R420): queues. -/
  heldQueues : List Nat := []
  deriving DecidableEq, Repr

/-- A waiting or running hash request (R421). -/
inductive HashReq where
  /-- A region digest of a job: job, entry index, at the end. -/
  | region (job idx : Nat) (atEnd : Bool)
  /-- The digest of a sealing slot. -/
  | seal (slot : Nat)
  deriving DecidableEq, Repr

/-- The security block (R414 to R431). -/
structure Sec where
  keyOk : Bool := false
  idOk : Bool := false
  fwVersion : Nat := 0
  idPk : List Byte := List.replicate 32 0
  /-- Hash requests waiting, in arrival order, and those the two engines run (R421). -/
  hashes : List HashReq := []
  eng0 : Option HashReq := none
  eng1 : Option HashReq := none
  models : Tab Model := []
  modelSel : Nat := 0
  jobSel : Nat := 0
  brands : Tab BrandSt := []
  nonce : List Nat := List.replicate 8 0
  user : List Nat := List.replicate 8 0
  attAddr : Nat := 0
  /-- 0 IDLE, 1 BUSY, 2 DONE, 3 FAILED. -/
  attSt : Nat := 0
  /-- The 256 report bytes snapshotted at GO (R428, R429). -/
  attBody : List Byte := []
  attSeq : Nat := 0
  events : Nat := 0
  irq : Nat := 0
  sealRejects : Nat := 0
  brandFails : Nat := 0
  /-- SERIAL and the digest of the record before its signature, for the report (R429). -/
  serial : Nat := 0
  recordDigest : List Byte := []
  deriving DecidableEq, Repr


/-! ### KV pools (R152 to R179) -/

/-- A granted pool of numbered units (R179, R201): runs of contiguous units in grant order, and the numbers taken. -/
structure UnitPool where
  /-- Start address and count of each granted run, oldest first. -/
  runs : List (Nat × Nat) := []
  /-- Numbers in use. -/
  used : List Nat := []
  deriving DecidableEq, Repr

/-- The KV pools and counters of a domain (R179). -/
structure KvDom where
  frames : UnitPool := {}
  slots : UnitPool := {}
  spills : Nat := 0
  evicts : Nat := 0
  pfLate : Nat := 0
  deriving DecidableEq, Repr

/-- A prefetch in flight (R164): its kernel, host slot address, frame at PF_ADDR. -/
structure Prefetch where
  tg : Nat
  /-- The sliver whose walk it serves. -/
  sliver : Nat := 0
  slot : Nat
  frame : Nat
  deriving DecidableEq, Repr

/-- The KV part of Bridle (R179). -/
structure Kv where
  sel : Nat := 0
  grantAddr : Nat := 0
  /-- KV_WAIT.MICROS, reset 0x07D0. -/
  wait : Nat := 0x7D0
  events : Nat := 0
  doms : Tab KvDom := []
  prefetches : List Prefetch := []
  deriving DecidableEq, Repr

/-! ### Flits (R320) -/

/-- Packets of `out` that have left in flits, and the 240 protocol bytes of each flit of module 0 and of module 1, newest first. -/
structure Wire where
  sent : Nat := 0
  m0 : List (List Byte) := []
  m1 : List (List Byte) := []
  deriving DecidableEq, Repr

/-! ### Raster (R180 to R201) -/

/-- A vertex in the raster pipeline: clip x, y, z, w and the attributes, FP32 (R182). -/
abbrev Vert := List Nat

/-- A setup record (R186): screen positions with 8 fraction bits, z/w, w and attributes of the three vertices, and the vertex numbers of the
triangle it is or comes from. -/
structure Setup where
  seq : Nat
  piece : Nat
  draw : Nat
  xs : List Int
  ys : List Int
  zs : List Nat
  ws : List Nat
  attrs : List (List Nat)
  verts : List Nat := []
  deriving DecidableEq, Repr

/-- A tile-list entry (R185). -/
structure TEntry where
  seq : Nat
  page : Nat
  slot : Nat
  piece : Nat
  draw : Nat
  deriving DecidableEq, Repr

/-- A tile list: its pages still held, oldest first; entries written in the newest page; entries consumed in the oldest; the entries not
yet consumed (R184, R185, R187). -/
structure TList where
  pages : List Nat := []
  written : Nat := 0
  consumed : Nat := 0
  entries : List TEntry := []
  deriving DecidableEq, Repr

/-- A setup page (R186): records written and REFS. -/
structure SetupPage where
  page : Nat
  used : Nat := 0
  refs : Nat := 0
  records : List Setup := []
  deriving DecidableEq, Repr

/-- A quad fragment (R188): key, draw, quad position in the target, covered samples (pixel × samples + sample) with depth and attributes. -/
structure Frag where
  seq : Nat
  piece : Nat
  draw : Nat
  tile : Nat
  qx : Nat
  qy : Nat
  samples : List Nat
  depths : List Nat
  attrs : List (List Nat)
  /-- Depth is tested at retirement (R190). -/
  late : Bool := false
  /-- The draw is LATE_Z=1. -/
  lateDraw : Bool := false
  /-- Issue index of its batch within its draw (R197). -/
  batch : Nat := 0
  deriving DecidableEq, Repr

/-- A tile owner (R184, R188, R189): its slice in work, and the fragments issued and not yet retired. -/
structure Owner where
  work : List Frag := []
  issued : List Frag := []
  /-- Stopped on a full record, that of the quad its work stands at (R189). -/
  stalled : Bool := false
  /-- The tile it last took a slice of, plus one. -/
  lastTile : Nat := 0
  deriving DecidableEq, Repr

/-- A render pass (R181, R191, R198). -/
structure Pass where
  queue : Nat
  ctx : Nat
  job : Nat
  /-- The 128 descriptor bytes. -/
  desc : List Byte
  /-- Draw and primitive the front end stands at, and SEQ of the next primitive. -/
  draw : Nat := 0
  prim : Nat := 0
  seq : Nat := 0
  /-- Strip state: the last two vertex numbers and the winding parity (R182). -/
  strip : List Nat := []
  parity : Bool := false
  started : Bool := false
  /-- The front end holds its permits (R200). -/
  front : Bool := false
  growing : Bool := false
  /-- Pages the primitive it stopped before needs (R191). -/
  need : Nat := 0
  stopping : Bool := false
  /-- It was cancelled, abandoned or failed: it ends once its slivers have (R192). -/
  ending : Bool := false
  frontDone : Bool := false
  pages : List Nat := []
  setups : List SetupPage := []
  tiles : Tab TList := []
  owners : Tab Owner := []
  /-- Fragment batches issued per draw, and the shaded ones: draw, sliver number (R197). -/
  batches : Tab Nat := []
  shots : List (Nat × Nat) := []
  /-- Draws whose vertex task group has completed (R180), and task groups issued for draws. -/
  shaded : List Nat := []
  /-- Status of a task group that did not publish, or of the cancel or fault that ends the pass. -/
  fail : Option Nat := none
  /-- Status joined from its task groups (R12). -/
  status : Nat := 0
  vsIssued : List Nat := []
  deriving DecidableEq, Repr

/-- The raster block (R180 to R201). -/
structure Raster where
  active : Option Pass := none
  parked : Option Pass := none
  /-- Passes that wait for a slot, in order of arrival (R198). -/
  waiting : List Pass := []
  sel : Nat := 0
  grantAddr : Nat := 0
  pools : Tab UnitPool := []
  growWait : Nat := 0x7D0
  irq : Nat := 0
  events : Nat := 0
  grows : Nat := 0
  abandoned : Nat := 0
  quadStalls : Nat := 0
  /-- Last results of each texture unit, four channels FP32 (R195), and the units with requests pending (R200). -/
  texOut : Tab (List Nat) := []
  /-- Sample requests that wait for their unit's permits: unit, draw, descriptor, coordinates (R200). -/
  texHeld : List (Nat × Nat × Nat × List Nat) := []
  deriving DecidableEq, Repr

/-! ### Vision (R202 to R222) -/

/-- A vision command (R203, R218). -/
structure VCmd where
  id : Nat
  queue : Nat
  ctx : Nat
  job : Nat
  desc : List Byte
  /-- 0 queued or stopped, 1 running, 2 stopping, 3 waiting for permits (R222). -/
  st : Nat := 0
  engine : Nat := 0
  started : Bool := false
  /-- Restarted after a fault (R217). -/
  restarts : Nat := 0
  /-- Order number of its first start (R216). -/
  startSeq : Nat := 0
  stripes : Nat := 0
  row : Nat := 0
  level : Nat := 0
  dir : Bool := false
  final : Bool := false
  deriving DecidableEq, Repr

/-- The vision block (R222). -/
structure Vision where
  cmds : List VCmd := []
  next : Nat := 0
  notex : Nat := 0
  occl : Nat := 0
  refined : Nat := 0
  features : Nat := 0
  stops : Nat := 0
  events : Nat := 0
  irq : Nat := 0
  deriving DecidableEq, Repr

/-! ### Frame generation (R223 to R241) -/

/-- Where a band chain stands (R225). -/
inductive ChSt where
  | idle | running | done | failed | cancelling
  deriving DecidableEq, Repr

/-- The board's state of a band (R225, R229). -/
structure Band where
  shown : Option Nat := none
  tag0 : Option Nat := none
  tag1 : Option Nat := none
  gen : ChSt := .idle
  warp : ChSt := .idle
  /-- The frame its states stand for: the earliest commit point not yet passed. -/
  frame : Nat := 0
  /-- WARP's mode (REPROJ when true) and output slot. -/
  reproj : Bool := false
  out : Nat := 0
  /-- Jobs of its chains. -/
  genJob : Nat := 0
  warpJob : Nat := 0
  /-- Tick count at the completion of its WARP chain. -/
  doneAt : Nat := 0
  /-- Handed to scanout: the slot, none for BLACK; and the frame it was committed for. -/
  handed : Option Nat := none
  committed : Option Nat := none
  /-- Mirror digest of the chain in progress (R392). -/
  digest : Nat := 0
  deriving DecidableEq, Repr

/-- A source slot (R233, R234). -/
structure SrcSlot where
  ready : Bool := false
  reg : Nat := 0
  desc : Nat := 0
  app : Nat := 0
  /-- Frame in which it was first latched as SRC. -/
  first : Option Nat := none
  deriving DecidableEq, Repr

/-- The sources latched for a frame in flight (R233). -/
structure Latched where
  frame : Nat
  src : Nat
  prev : Option Nat
  age : Nat
  deriving DecidableEq, Repr

/-- A fire held behind a CANCELLING chain (R226): kind 0 GEN, 1 WARP. -/
structure HeldFire where
  kind : Nat
  band : Nat
  frame : Nat
  deriving DecidableEq, Repr

/-- The band board (R223 to R241). -/
structure Fg where
  en : Bool := false
  /-- EN=0 was written: the board stops at the next frame start of the master pipe (R241). -/
  stopping : Bool := false
  irqEn : Bool := false
  vector : Nat := 0
  mask : Nat := 0
  genQ : Nat := 0
  warpQ : Nat := 0
  ticket : Nat := 0
  outAddr : Nat := 0
  inter : Nat := 0
  pose : Nat := 0
  slotBytes : Nat := 0
  interBytes : Nat := 0
  bands : Tab Band := []
  slots : Tab SrcSlot := []
  nextReg : Nat := 1
  latches : List Latched := []
  level1 : Nat := 0
  level2 : Nat := 0
  level3 : Nat := 0
  genLate : Nat := 0
  warpLate : Nat := 0
  noSource : Nat := 0
  minSlack : Nat := 0xFFFF
  last : Nat := 0
  /-- Bands committed at levels 1, 2, 3 in the frame being committed. -/
  cur1 : Nat := 0
  cur2 : Nat := 0
  cur3 : Nat := 0
  events : Nat := 0
  held : List HeldFire := []
  /-- The chain that the next task groups of the GEN and of the WARP queue belong to (R225): its band. -/
  openGen : Option Nat := none
  openWarp : Option Nat := none
  /-- The open chain of the GEN, of the WARP queue was cancelled: its further task groups are cancelled as they come (R230). -/
  cutGen : Bool := false
  cutWarp : Bool := false
  /-- Beam ticks counted, for the slack (R229). -/
  ticks : Nat := 0
  deriving DecidableEq, Repr

/-! ### Display pipes (R242 to R265) -/

/-- Link state of a pipe (R256, R265). -/
inductive PipeSt where
  | off | training | active | still | linkDown
  deriving DecidableEq, Repr

/-- A display pipe (R242 to R265). -/
structure Pipe where
  /-- The sixteen words of its DISPLAY entry (R244). -/
  words : List Nat := List.replicate 16 0
  st : PipeSt := .off
  /-- Trained: it becomes ACTIVE at its next frame start (R256). -/
  trained : Bool := false
  en : Bool := false
  /-- Calm causes recorded: bit 0 DRIVER, 1 CONTEXT, 2 DIE, 3 DUO, 4 RELOAD (R258). -/
  cause : Nat := 0
  /-- It shows Calm (from the first cause to the frame start after the last one clears, R258, R261). -/
  calm : Bool := false
  /-- The Calm timer runs; it has expired; black frames are sent since the frame start after it (R259). -/
  timer : Bool := false
  expired : Bool := false
  black : Bool := false
  rate : Nat := 0
  lanes : Nat := 0
  holdValid : Bool := false
  /-- The complete hold frame, and the lines written of the frame now written (R260). -/
  holdFrame : Nat := 0
  holdLines : Nat := 0
  hdrSend : Bool := false
  hdrNow : Bool := false
  fbAddr : Nat := 0
  fbPitch : Nat := 0
  fbNow : Nat := 0
  pitchNow : Nat := 0
  suFirst : Nat := 0
  suLast : Nat := 0
  /-- A pending selective update (R255). -/
  su : Option (Nat × Nat) := none
  /-- The selective update whose frame is being sent (R255). -/
  suRun : Option (Nat × Nat) := none
  /-- The fetch of line 0 of the next frame has begun (R247, R248). -/
  line0 : Bool := false
  /-- STILL_ENTER taken, acting at the end of the frame; STILL_EXIT taken, acting at the next ghost frame start (R254). -/
  stillReq : Bool := false
  exitReq : Bool := false
  /-- Band mode as latched for the frame being fetched (R241, R247). -/
  bandMode : Bool := false
  underPx : Nat := 0
  underLines : Nat := 0
  calmFrames : Nat := 0
  events : Nat := 0
  irq : Nat := 0
  /-- PIPEn_AUX_CMD (without GO), data bytes, STATE, REPLY, retries made, waiting for the retry time (R264). -/
  auxCmd : Nat := 0
  auxData : List Nat := [0, 0, 0, 0]
  auxSt : Nat := 0
  auxReply : Nat := 0
  auxTries : Nat := 0
  auxDefer : Bool := false
  hdr : List Nat := List.replicate 7 0
  /-- Line fetches that wait for their band's commit (R248), oldest first: the line, and its late pixels. -/
  waiting : List (Nat × Nat) := []
  /-- Panel Replay is signalled active (R254, R259). -/
  replay : Bool := false
  /-- The hold frame that the lines of the frame being fetched go to (R260). -/
  holdNow : Nat := 0
  /-- Lines of the row of DSC slices being encoded, oldest first (R252). -/
  dscRows : List (List Nat) := []
  /-- The pipe's own AUX transaction is in flight; the driver's waits behind it (R256, R264). -/
  auxOwn : Bool := false
  /-- The last pixel delivered in the frame (R250). -/
  lastPx : Option (List Nat) := none
  /-- HPD input level (R256). -/
  hpd : Bool := false
  deriving DecidableEq, Repr

/-! ### The run-time blocks together -/

/-- Every block of the die that runs work. -/
structure Sys where
  /-- Identity and global registers (R26, R44). -/
  glob : Glob := {}
  /-- Memory system, loft cache, TLBs (R331, R338 to R357). -/
  mem : MemSys := {}
  /-- Host link (R317 to R337). -/
  link : Link := {}
  /-- Conserved pools and the audit (R310 to R316). -/
  cons : Cons := {}
  /-- Bridle: contexts, queues, task groups (R266 to R294). -/
  bridle : Bridle := {}
  /-- Jobs and semaphores (R300 to R307). -/
  work : Work := {}
  /-- Girth (R358 to R382). -/
  girth : Girth := {}
  /-- Beam unit (R53 to R70). -/
  beam : Beam := {}
  /-- Stalls 0 to 63 (R103). -/
  stalls : Tab Stall := []
  /-- Logical cores 0 to 4,095 (R14, R94). -/
  cores : Tab Core := []
  /-- DMA agents (R308, R309). -/
  dma : Dma := {}
  /-- Harness and Duo (R383 to R399). -/
  duo : Duo := {}
  /-- Faults and telemetry (R400 to R407). -/
  flt : Fault0 := {}
  /-- Security (R409 to R431). -/
  sec : Sec := {}
  /-- KV pools and list kernels (R152 to R179). -/
  kv : Kv := {}
  /-- Raster pipeline (R180 to R201). -/
  raster : Raster := {}
  /-- Vision engines (R202 to R222). -/
  vision : Vision := {}
  /-- Frame generation (R223 to R241). -/
  fg : Fg := {}
  /-- Display pipe 0 (R242 to R265). -/
  pipe0 : Pipe := {}
  /-- Display pipe 1. -/
  pipe1 : Pipe := {}
  /-- What the device has put on its wires, newest first (log entry 1). -/
  out : List OutPkt := []
  /-- The flits the two UCIe modules have sent (R320). -/
  flits : Wire := {}
  /-- MODEL: counts the free values drawn (log entry 3); no field of the spec. -/
  chance : Nat := 0
  deriving DecidableEq, Repr

/-- glob changed. -/
def Sys.modGlob (y : Sys) (f : Glob → Glob) : Sys := { y with glob := f y.glob }
/-- mem changed. -/
def Sys.modMem (y : Sys) (f : MemSys → MemSys) : Sys := { y with mem := f y.mem }
/-- link changed. -/
def Sys.modLink (y : Sys) (f : Link → Link) : Sys := { y with link := f y.link }
/-- cons changed. -/
def Sys.modCons (y : Sys) (f : Cons → Cons) : Sys := { y with cons := f y.cons }
/-- bridle changed. -/
def Sys.modBridle (y : Sys) (f : Bridle → Bridle) : Sys := { y with bridle := f y.bridle }
/-- work changed. -/
def Sys.modWork (y : Sys) (f : Work → Work) : Sys := { y with work := f y.work }
/-- girth changed. -/
def Sys.modGirth (y : Sys) (f : Girth → Girth) : Sys := { y with girth := f y.girth }
/-- beam changed. -/
def Sys.modBeam (y : Sys) (f : Beam → Beam) : Sys := { y with beam := f y.beam }
/-- stalls changed. -/
def Sys.modStalls (y : Sys) (f : Tab Stall → Tab Stall) : Sys := { y with stalls := f y.stalls }
/-- cores changed. -/
def Sys.modCores (y : Sys) (f : Tab Core → Tab Core) : Sys := { y with cores := f y.cores }
/-- dma changed. -/
def Sys.modDma (y : Sys) (f : Dma → Dma) : Sys := { y with dma := f y.dma }
/-- duo changed. -/
def Sys.modDuo (y : Sys) (f : Duo → Duo) : Sys := { y with duo := f y.duo }
/-- flt changed. -/
def Sys.modFlt (y : Sys) (f : Fault0 → Fault0) : Sys := { y with flt := f y.flt }
/-- sec changed. -/
def Sys.modSec (y : Sys) (f : Sec → Sec) : Sys := { y with sec := f y.sec }
/-- kv changed. -/
def Sys.modKv (y : Sys) (f : Kv → Kv) : Sys := { y with kv := f y.kv }
/-- raster changed. -/
def Sys.modRaster (y : Sys) (f : Raster → Raster) : Sys := { y with raster := f y.raster }
/-- vision changed. -/
def Sys.modVision (y : Sys) (f : Vision → Vision) : Sys := { y with vision := f y.vision }
/-- fg changed. -/
def Sys.modFg (y : Sys) (f : Fg → Fg) : Sys := { y with fg := f y.fg }
/-- pipe0 changed. -/
def Sys.modPipe0 (y : Sys) (f : Pipe → Pipe) : Sys := { y with pipe0 := f y.pipe0 }
/-- pipe1 changed. -/
def Sys.modPipe1 (y : Sys) (f : Pipe → Pipe) : Sys := { y with pipe1 := f y.pipe1 }
/-- out changed. -/
def Sys.modOut (y : Sys) (f : List OutPkt → List OutPkt) : Sys := { y with out := f y.out }
/-- chance changed. -/
def Sys.modChance (y : Sys) (f : Nat → Nat) : Sys := { y with chance := f y.chance }

/-! ### Bring-up, always-on block, TAP -/

/-- The phases of bring-up (R42, R44 PHASE). -/
inductive Phase where
  | powerUp | record | link | waitFirmware | firmware | waitPattern | pattern | apply | ready | halted
  deriving DecidableEq, Repr

/-- PHASE code (R44). -/
def Phase.code : Phase → Nat
  | .powerUp => 0 | .record => 1 | .link => 2 | .waitFirmware => 3 | .firmware => 4 | .waitPattern => 5 | .pattern => 6
  | .apply => 7 | .ready => 8 | .halted => 15

/-- Bring-up and the always-on block (R28 to R49, R439 to R447). -/
structure Boot where
  /-- PWRGOOD is high. -/
  power : Bool := false
  phase : Phase := .powerUp
  error : Nat := 0
  /-- GLOBAL_RESET_CAUSE, reset 0x1. -/
  cause : Nat := 1
  /-- Levels of the strap bumps and of VR_ALERT_N, and the straps as sampled (R439, R440). -/
  duoId : Bool := false
  duoMode : Bool := false
  /-- The die record copy (R39), whether its read and the identity derivation are complete (steps 3a, 3b). -/
  record : List Byte := []
  recordRead : Bool := false
  pufDone : Bool := false
  /-- The identity key's secret seed and the public key's digest as derived at step 3b (R426). -/
  secret : List Byte := []
  idDigest : List Byte := []
  /-- The Acbex root public key of the NOR's key block, once accepted (R423). -/
  rootKey : List Byte := []
  /-- Step 6 has been reached since power-on (R46). -/
  linked : Bool := false
  /-- The record was accepted (R41). -/
  recordOk : Bool := false
  /-- The staged image (R44), an amendment's idle outcome and affected domains (R47, R48). -/
  image : List Byte := []
  amendIdle : Bool := true
  amendDoms : Nat := 0
  /-- Sections of the loaded Pattern kept for amendments and for step 12: QUEUES, PERMITS, BEAM, PINS, CLOCKS and DUO words (R32 to R36, R59,
  R446). -/
  queueWords : List Nat := []
  permitWords : List Nat := []
  beamWords : List Nat := []
  pinWords : List Nat := []
  clockWords : List Nat := []
  duoWords : List Nat := []
  /-- Steps 11a and 11b of APPLY are complete; APPLY follows a RELOAD with unchanged memory (R45). -/
  memDone : Bool := false
  stallsDone : Bool := false
  /-- Step 10 is complete. -/
  pllDone : Bool := false
  keepMem : Bool := false
  /-- The CLOCKS words in force before a RELOAD (R45). -/
  oldClocks : List Nat := []
  /-- Die record GPIO function: every GPIO is NONE until APPLY and after WARM (R447). -/
  pinsOn : Bool := false
  /-- The outputs are safe: low or high impedance after PWRGOOD falls (R443). -/
  safe : Bool := true
  deriving DecidableEq, Repr

/-- The JTAG TAP (R450). -/
structure Tap where
  /-- The TAP stands in Test-Logic-Reset (R26 bit 17). -/
  reset : Bool := true
  /-- Instruction: 0 BYPASS, 1 SAMPLE/PRELOAD, 2 EXTEST, 3 IDCODE (IDCODE after reset, IEEE 1149.1). -/
  ir : Nat := 3
  /-- The boundary cells of the 29 CTRL_IO signals as preloaded, and whether they drive the bumps. -/
  cells : Nat := 0
  driving : Bool := false
  deriving DecidableEq, Repr

/-- The whole state of the block. -/
structure State where
  /-- Commands waiting, first in first out. -/
  pending : List Instr := []
  /-- Bring-up, straps, staged images (R28 to R49). -/
  boot : Boot := {}
  /-- The JTAG TAP (R450). -/
  tap : Tap := {}
  /-- The run-time blocks. -/
  sys : Sys := {}
  deriving DecidableEq, Repr

/-- Why the machine stops. The spec gives every command an effect, so no command stops it: there is no constructor. -/
inductive Fault where
  deriving DecidableEq, Repr

/-- Why a command has no meaning. -/
inductive Refusal where
  /-- Raised by an arm of exec whose command has no meaning yet (safe: no claim about it is provable). -/
  | notModelled (mnemonic : String)
  deriving DecidableEq, Repr

/-- The machine right after reset (R42, R45): everything at its reset value, no command waiting. -/
def State.reset : State := {}

end Sys2Proof.Machine
end

