-- ==== Sys2Proof/Machine/Ops.lean ====
section
/-! DEFINITION. The shared operations: running a meaning over the run-time blocks, rejected writes, outputs, message interrupts and
event bits, stores, device memory and host memory cells, the host link's transmit queue. -/

namespace Sys2Proof.Machine

/-- The outcome of a command. -/
abbrev Res := Host.Outcome State Fault Refusal

/-- A command whose effect lies wholly in the run-time blocks. -/
def onSys (f : Sys → Sys) (s : State) : Res := .next { s with sys := f s.sys }

/-- A register write that is rejected or clamped counts once (R4, R6, R26). -/
def Sys.reject (y : Sys) : Sys := y.modGlob fun g => { g with rejects := satInc g.rejects }

/-- A write that may have been clamped: counted when it was (R28). -/
def Sys.rejectIf (b : Bool) (y : Sys) : Sys := if b then y.reject else y

/-- Something goes out on the wires. -/
def Sys.emit (p : OutPkt) (y : Sys) : Sys := y.modOut fun o => p :: o

/-- The next free value is drawn: advance the counter (log entry 3). -/
def Sys.tick (y : Sys) : Sys := y.modChance fun n => n + 1

/-- The value a register read returns. -/
def Sys.readVal (v : Nat) (y : Sys) : Sys := y.modGlob fun g => { g with rd := v }

/-! ### Stores with valid bits (R52) -/

/-- A memory as a list of cells in ascending address order, listing no byte that equals 0. -/
abbrev Cells := List (Nat × Byte)

/-- One byte; 0 where not listed. -/
def Cells.get : Cells → Nat → Byte
  | [], _ => 0
  | (k, v) :: t, a => if k = a then v else Cells.get t a

/-- The cells inside [a, a + n). -/
def Cells.window (c : Cells) (a n : Nat) : Cells := c.filter fun p => decide (a ≤ p.1 ∧ p.1 < a + n)

/-- n bytes from a. -/
def Cells.read (c : Cells) (a n : Nat) : List Byte :=
  let w := c.window a n
  (List.range n).map fun i => w.get (a + i)

/-- The bytes bs as cells from a, zeros left out. -/
def Cells.ofBytes : Nat → List Byte → Cells
  | _, [] => []
  | a, b :: t => if b = 0 then Cells.ofBytes (a + 1) t else (a, b) :: Cells.ofBytes (a + 1) t

/-- The bytes bs written at a. -/
def Cells.write (c : Cells) (a : Nat) (bs : List Byte) : Cells :=
  c.filter (fun p => decide (p.1 < a)) ++ Cells.ofBytes a bs ++ c.filter (fun p => decide (a + bs.length ≤ p.1))

/-- The canonical form: addresses strictly rising, no listed byte equal to 0. -/
def Cells.wf : Cells → Bool
  | [] => true
  | [(_, v)] => v != 0
  | (a, v) :: (b, w) :: t => decide (a < b) && v != 0 && Cells.wf ((b, w) :: t)

/-- The byte a read of an invalid granule returns at an address: 0xACBE_ACBE in every word (R52). -/
def patternByte (a : Nat) : Byte := if a % 2 = 0 then 0xBE else 0xAC

/-- n bytes of the read pattern from a. -/
def patternBytes (a n : Nat) : List Byte := (List.range n).map fun i => patternByte (a + i)

/-- n bytes from a of a store with granules of gr bytes (R52). -/
def Store.read (st : Store) (gr a n : Nat) : List Byte :=
  let w := Cells.window st.cells a n
  (List.range n).map fun i => if st.valid.contains ((a + i) / gr) then Cells.get w (a + i) else patternByte (a + i)

/-- A granule becomes valid, its bytes the read pattern until written (R52). -/
def Store.validate (st : Store) (gr g : Nat) : Store :=
  if st.valid.contains g then st
  else { cells := Cells.write st.cells (gr * g) (patternBytes (gr * g) gr), valid := (st.valid.filter (· < g)) ++ g :: st.valid.filter (g < ·) }

/-- The bytes bs written at a: each granule touched becomes valid first (R52). -/
def Store.write (st : Store) (gr a : Nat) (bs : List Byte) : Store :=
  if bs.isEmpty then st else
  let gs := (List.range ((a + bs.length - 1) / gr + 1 - a / gr)).map (a / gr + ·)
  let st := gs.foldl (fun s g => s.validate gr g) st
  { st with cells := Cells.write st.cells a bs }

/-- Every valid bit from granule g on is cleared (R52, R92). -/
def Store.invalidateFrom (st : Store) (gr g : Nat) : Store :=
  { cells := st.cells.filter (fun p => decide (p.1 < gr * g)),
    valid := st.valid.filter (· < g) }

/-- Granule of a local store and of a stall pool (R52). -/
def lsGr : Nat := 64
def poolGr : Nat := 256

/-! ### Host link transmit queue and message interrupts (R324, R326, R335) -/

/-- A module by number. -/
def Sys.module (y : Sys) (m : Nat) : Module := if m = 0 then y.link.m0 else y.link.m1

/-- A module changed. -/
def Sys.modModule (y : Sys) (m : Nat) (f : Module → Module) : Sys :=
  y.modLink fun l => if m = 0 then { l with m0 := f l.m0 } else { l with m1 := f l.m1 }

/-- Key of a pool instance. -/
def poolKey (p i : Nat) : Nat := 64 * p + i

/-- A pool instance (R310). -/
def Sys.pool (y : Sys) (p i : Nat) : Pool := tget {} y.cons.pools (poolKey p i)

/-- A pool instance changed. -/
def Sys.modPool (y : Sys) (p i : Nat) (f : Pool → Pool) : Sys :=
  y.modCons fun c => { c with pools := tmod {} c.pools (poolKey p i) f }

/-- n taken from FREE into HELD; whole or nothing is the taker's test (R311). -/
def Pool.take (n : Nat) (p : Pool) : Pool := { p with free := p.free - n, held := p.held + n }

/-- n returned from HELD to FREE (R311). -/
def Pool.give (n : Nat) (p : Pool) : Pool := { p with free := p.free + n, held := p.held - n }

/-- n created by a grant: TOTAL and FREE change together (R311). -/
def Pool.grow (n : Nat) (p : Pool) : Pool := { p with total := p.total + n, free := p.free + n }

/-- An instance set to hold n, all free. -/
def Pool.init (n : Nat) : Pool := { total := n, free := n, held := 0 }

/-- The instance's equation (R311). -/
def Pool.ok (p : Pool) : Bool := p.free + p.held == p.total

/-- 16-byte units of n bytes (R321). -/
def units (n : Nat) : Nat := cdiv n 16

/-- Credits a queued packet needs: PH and PD (R325, R384); completions and most Harness messages need none. -/
def OutPkt.posted : OutPkt → Nat × Nat
  | .mwr _ _ _ d => (1, units d.length)
  | .msg _ _ => (1, 0)
  | .harness k _ d => if k = "MWR" ∨ k = "MIRROR" then (1, max 1 (units d.length)) else (0, 0)
  | _ => (0, 0)

/-- The packet is a write or a message to the host, which the die may be barred from sending (R43, R391, R396); an attestation report, context 65
in the model, never is (R428). -/
def OutPkt.barred : OutPkt → Bool
  | .mwr _ c _ _ => c != 65
  | .msg _ _ => true
  | _ => false

/-- The ledger of a module gains n credits of class k (R326). -/
def Module.ledgerAdd (m : Module) (k n : Nat) : Module := { m with ledger := m.ledger.set k (m.ledger.getD k 0 + n) }

/-- The die may send nothing to the host now: before READY (R43), in DUO_HOLD (R396), as TANDEM worker (R391). -/
def Sys.muted (y : Sys) : Bool :=
  !y.glob.ready || y.duo.hold || (y.glob.config == 2 && y.duo.role == 1 && !y.duo.alone)

/-- The head of a module's transmit queue leaves when the module is UP, the die may send and its credits are free (R324, R326); a
write reaches host memory then. -/
def Sys.sendOne (m : Nat) (y : Sys) : Sys :=
  let md := y.module m
  match md.txq with
  | [] => y
  | p :: rest =>
    let (h, d) := p.posted
    if md.st = 3 ∧ (p.barred && y.muted) = false ∧ h ≤ (y.pool 1 (4 * m)).free ∧ d ≤ (y.pool 1 (4 * m + 1)).free then
      let y := (y.modPool 1 (4 * m) (Pool.take h)).modPool 1 (4 * m + 1) (Pool.take d)
      let y := y.modModule m fun k => { (k.ledgerAdd 0 h).ledgerAdd 1 d with txq := rest }
      let y := match p with
        | .mwr _ _ a bs => y.modMem fun mm => { mm with host := Cells.write mm.host a bs }
        | _ => y
      y.emit p
    else y

/-- The transmit queue of a module drains as far as it may. -/
def Sys.flush (m : Nat) (y : Sys) : Sys := (List.range (y.module m).txq.length).foldl (fun y _ => y.sendOne m) y

/-- A posted packet joins its module's transmit queue. -/
def Sys.post (m : Nat) (p : OutPkt) (y : Sys) : Sys :=
  (y.modModule m fun k => { k with txq := k.txq ++ [p] }).flush m

/-- Packets of an attestation report leave ahead of the writes that are held back (R428). -/
def Sys.postFirst (m : Nat) (ps : List OutPkt) (y : Sys) : Sys :=
  (y.modModule m fun k => { k with txq := ps ++ k.txq }).flush m

/-- A completion to the host: behind the writes that still wait (R324), at once when none does and the module is UP. -/
def Sys.sendCpl (m : Nat) (p : OutPkt) (y : Sys) : Sys :=
  if (y.module m).st == 3 && !((y.module m).txq.any OutPkt.barred) then y.emit p else y.post m p

/-- The head of the Harness transmit queue leaves when the Duo is formed and its credits are free (R384, R386). -/
def Sys.hsendOne (y : Sys) : Sys :=
  match y.duo.hm.txq with
  | [] => y
  | p :: rest =>
    let (h, d) := p.posted
    if y.duo.st = 3 ∧ h ≤ (y.pool 2 0).free ∧ d ≤ (y.pool 2 1).free then
      let y := (y.modPool 2 0 (Pool.take h)).modPool 2 1 (Pool.take d)
      let y := y.modDuo fun u => { u with hm := { (u.hm.ledgerAdd 0 h).ledgerAdd 1 d with txq := rest } }
      y.emit p
    else y

/-- The Harness transmit queue drains as far as it may. -/
def Sys.hflush (y : Sys) : Sys := (List.range y.duo.hm.txq.length).foldl (fun y _ => y.hsendOne) y

/-- A packet that takes PH and PD, or a completion behind such packets, joins the Harness transmit queue (R384). -/
def Sys.hpost (p : OutPkt) (y : Sys) : Sys := (y.modDuo fun u => { u with hm := { u.hm with txq := u.hm.txq ++ [p] } }).hflush

/-- A Harness message that takes no posted credit goes out at once; it waits while the Harness retrains, and is lost when there is none (R327, R384). -/
def Sys.hsend (p : OutPkt) (y : Sys) : Sys := if y.duo.st = 3 then y.emit p else if y.duo.st = 4 then y.hpost p else y

/-- Host memory as a device read sees it: every earlier posted write has taken effect (R324: MRD never passes MWR). -/
def Sys.hostCells (y : Sys) : Cells :=
  (y.link.m0.txq ++ y.link.m1.txq).foldl (fun c p => match p with | .mwr _ _ a bs => Cells.write c a bs | _ => c) y.mem.host

/-- The module of device-to-host traffic of a context (R318, R319). -/
def Sys.moduleOf (y : Sys) (ctx : Nat) : Nat :=
  if y.glob.config = 0 ∧ ctx % 2 = 1 ∧ y.link.m1.st ≥ 3 then 1 else 0

/-- A MSG is queued unless one for the vector already waits (R335). -/
def Sys.queueMsg (m v : Nat) (y : Sys) : Sys :=
  if (y.module m).txq.contains (.msg m v) then y else y.post m (.msg m v)

/-- A raise of vector v on module m (R335). The TANDEM worker sends no MSG (R391). -/
def Sys.raise (m v : Nat) (y : Sys) : Sys :=
  if y.glob.ready = false ∨ (y.glob.config = 2 ∧ y.duo.role = 1 ∧ y.duo.alone = false) then y else
  let vec := tget {} y.link.vecs (v % 256)
  if vec.mask then y.modLink fun l => { l with vecs := tset l.vecs (v % 256) { vec with pending := true } }
  else y.queueMsg m (v % 256)

/-- A block's event: its interrupt register holds VECTOR in [7:0] and MASK from bit 8 (R335). -/
def Sys.raiseIf (irq k : Nat) (y : Sys) : Sys := if bitAt irq (8 + k) then y.raise 0 (irq % 256) else y

/-- Host link event k (R337). -/
def Sys.linkEvent (k : Nat) (y : Sys) : Sys :=
  (y.modLink fun l => { l with events := setBit l.events k }).raiseIf y.link.irq k

/-- Memory event k (R357). -/
def Sys.memEvent (k : Nat) (y : Sys) : Sys :=
  (y.modMem fun m => { m with events := setBit m.events k }).raiseIf y.mem.irq k

/-- Bridle event k (R293). -/
def Sys.bridleEvent (k : Nat) (y : Sys) : Sys :=
  (y.modBridle fun b => { b with events := setBit b.events k }).raiseIf y.bridle.irq k

/-- Girth event k (R382). -/
def Sys.girthEvent (k : Nat) (y : Sys) : Sys :=
  (y.modGirth fun g => { g with events := setBit g.events k }).raiseIf y.girth.irq k

/-- Beam event k (R69). -/
def Sys.beamEvent (k : Nat) (y : Sys) : Sys :=
  (y.modBeam fun b => { b with events := setBit b.events k }).raiseIf y.beam.irq k

/-- Harness event k (R408). -/
def Sys.duoEvent (k : Nat) (y : Sys) : Sys :=
  (y.modDuo fun d => { d with events := setBit d.events k }).raiseIf y.duo.irq k

/-- Fault block event k (R407). -/
def Sys.fltEvent (k : Nat) (y : Sys) : Sys :=
  (y.modFlt fun f => { f with events := setBit f.events k }).raiseIf y.flt.irq k

/-- Security event k (R431). -/
def Sys.secEvent (k : Nat) (y : Sys) : Sys :=
  (y.modSec fun c => { c with events := setBit c.events k }).raiseIf y.sec.irq k

/-- A doorbell, a beam fire, a host request, PIPE0_SU.ARM or STILL_EXIT: the die leaves STILL (R379). -/
def Sys.stillWake (y : Sys) : Sys :=
  if y.girth.state = 2 ∧ y.girth.moving = 0 then y.modGirth fun g => { g with moving := 3 } else y

/-! ### Forwarded writes (R391) -/

/-- The TANDEM worker that serves a manager. -/
def Sys.mirrorWorker (y : Sys) : Bool := y.glob.config == 2 && y.duo.role == 1 && !y.duo.alone

/-- A host write of a forwarded register: rejected on the worker's own module, forwarded by the manager (R391). -/
def Sys.mirrored (off word : Nat) (f : Sys → Sys) (y : Sys) : Sys :=
  if y.mirrorWorker then y.reject
  else
    let z := f y
    if y.glob.config = 2 ∧ y.duo.role = 2 ∧ y.duo.alone = false ∧ y.duo.st = 3 then z.hpost (.harness "MIRROR" [off, word] []) else z

/-! ### Error log (R405, R406) -/

/-- The fields of an error-log entry (R405). -/
structure LogE where
  cls : Nat
  action : Nat
  status : Nat
  block : Nat
  stall : Nat := 0
  slot : Nat := 0
  phys : Nat := 0
  ctx : Option Nat := none
  job : Option Nat := none
  attempt : Nat := 0
  group : Nat := 0
  addr : Nat := 0
  deriving DecidableEq, Repr

/-- The eight words of an entry (R405). -/
def LogE.words (e : LogE) (time : Nat) : List Nat :=
  [put e.cls 0 8 + put e.action 8 8 + put e.status 16 8 + put e.block 24 8,
   put e.stall 0 6 + put e.slot 6 6 + put e.phys 12 7 + put (e.ctx.getD 0) 19 6 + putb e.ctx.isSome 25,
   put (e.job.getD 0) 0 12 + putb e.job.isSome 12 + put e.attempt 13 2,
   e.group % 2 ^ 32, e.addr % 2 ^ 32, e.addr / 2 ^ 32 % 2 ^ 32, time % 2 ^ 32, time / 2 ^ 32 % 2 ^ 32]

/-- An entry is written at index n mod 512 (R406); from the 513th on OVERFLOW is set. -/
def Sys.logFault (e : LogE) (y : Sys) : Sys :=
  let n := y.flt.logCount
  let y := y.modFlt fun f => { f with log := tset f.log (n % 512) (e.words y.glob.refCycles), logCount := satInc f.logCount }
  let y := y.fltEvent 0
  if 512 ≤ n then y.fltEvent 1 else y

/-! ### Accessors of cores, stalls, queues, jobs -/

def Sys.core (y : Sys) (c : Nat) : Core := tget {} y.cores c
def Sys.stall (y : Sys) (s : Nat) : Stall := tget {} y.stalls s
/-- A queue head nothing has written: open for the context of its QUEUES range, or closed (R34, R98). -/
def Bridle.queueInit (b : Bridle) (q : Nat) : Queue :=
  match b.ranges.find? fun r => decide (r.1 ≤ q ∧ q < r.1 + r.2.1) with
  | some r => { ctx := r.2.2, isOpen := true }
  | none => {}

def Sys.queue (y : Sys) (q : Nat) : Queue := tget (y.bridle.queueInit q) y.bridle.queues q
def Sys.ctx (y : Sys) (c : Nat) : Ctx := tget {} y.bridle.ctxs c
def Sys.job (y : Sys) (j : Nat) : Job := tget {} y.work.jobs j
def Sys.sem (y : Sys) (s : Nat) : Sem := tget {} y.work.sems s
def Sys.tg (y : Sys) (t : Nat) : Tg := tget {} y.bridle.tgs t
def Sys.dom (y : Sys) (d : Nat) : Dom := y.bridle.doms.getD d {}

def Sys.modCore (y : Sys) (c : Nat) (f : Core → Core) : Sys := y.modCores fun t => tmod {} t c f
def Sys.modStall (y : Sys) (s : Nat) (f : Stall → Stall) : Sys := y.modStalls fun t => tmod {} t s f
def Sys.modQueue (y : Sys) (q : Nat) (f : Queue → Queue) : Sys := y.modBridle fun b => { b with queues := tmod (b.queueInit q) b.queues q f }
def Sys.modCtx (y : Sys) (c : Nat) (f : Ctx → Ctx) : Sys := y.modBridle fun b => { b with ctxs := tmod {} b.ctxs c f }
def Sys.modJob (y : Sys) (j : Nat) (f : Job → Job) : Sys := y.modWork fun w => { w with jobs := tmod {} w.jobs j f }
def Sys.modSem (y : Sys) (s : Nat) (f : Sem → Sem) : Sys := y.modWork fun w => { w with sems := tmod {} w.sems s f }
def Sys.modTg (y : Sys) (t : Nat) (f : Tg → Tg) : Sys := y.modBridle fun b => { b with tgs := tmod {} b.tgs t f }
def Sys.modRun (y : Sys) (c : Nat) (f : Run → Run) : Sys := y.modCore c fun k => { k with run := k.run.map f }

/-- Stall of a core number (R15). -/
def stallOf (c : Nat) : Nat := c / 64

/-- A stall is enabled (R26, R100). -/
def Sys.enabled (y : Sys) (s : Nat) : Bool := bitAt y.glob.stallEn s

/-- Domain of a stall; none for an unassigned stall (R32, R33). -/
def Sys.domOfStall (y : Sys) (s : Nat) : Option Nat :=
  (List.range y.bridle.doms.length).find? fun d => bitAt (y.dom d).stalls s

/-! ### Clock domains (R22, R25, R377) -/

/-- A pipe needs its PIX domain: it sends frames, trains its link, or is about to start its timing. -/
def Pipe.clocked (p : Pipe) : Bool := p.st == .active || p.st == .training || (p.st == .still && (p.suRun.isSome || p.su.isSome || p.exitReq))

/-- A fetch or a host access is pending: something waits to be sent, a read is outstanding, or a pipe's fetch waits. -/
def Sys.accessPending (y : Sys) : Bool :=
  !y.link.m0.txq.isEmpty || !y.link.m1.txq.isEmpty || !y.link.m0.reads.isEmpty || !y.link.m1.reads.isEmpty || !y.pipe0.waiting.isEmpty || !y.pipe1.waiting.isEmpty

/-- GLOBAL_DOMAINS.RUN bits 16 to 0 (R26, R377): of the domains that were started, those that the power state lets run. HOSTLINK and HARNESS stay as
they are in LULL, where R377 names neither (log entry 67). -/
def Sys.domainsNow (y : Sys) : Nat :=
  let lull := [2, 3, 4, 14, 15, 16] ++ (if y.pipe0.clocked then [12] else []) ++ (if y.pipe1.clocked then [13] else []) ++
    (if y.accessPending then [1, 5, 6, 7, 8, 9] else [])
  match y.girth.state with
  | 0 => y.glob.domainsRun
  | 1 => maskOf (lull.filter (bitAt y.glob.domainsRun))
  | _ => maskOf ([2, 14, 16].filter (bitAt y.glob.domainsRun))

/-- Domain n runs. -/
def Sys.domainUp (y : Sys) (n : Nat) : Bool := bitAt y.domainsNow n

/-- Work for a domain that stands still is held until it runs (R25); in LULL it starts the exit, as a doorbell does (R381, log entry 67). -/
def Sys.heldFor (y : Sys) : Sys :=
  if y.girth.state = 1 ∧ y.girth.moving = 0 then y.modGirth fun g => { g with moving := 1 } else y.stillWake

/-- The next order number. -/
def Sys.seqNo (y : Sys) : Nat × Sys := (y.bridle.seq, y.modBridle fun b => { b with seq := b.seq + 1 })

end Sys2Proof.Machine
end

