-- ==== Sys2Proof/Machine/Shake.lean ====
section
/-! DEFINITION. SHAKE256 (R38, R40, R416 to R421), the sponge of FIPS 202 over Keccak-f[1600]; 136 bytes per permutation (R421).
PRESUMED: the spec names SHAKE256 and does not give it (log entry 5). -/

namespace Sys2Proof.Machine.Shake

/-- The 64-bit lane `v` turned left by `n` places. -/
def turned (v n : Nat) : Nat := (v <<< (n % 64) ||| v >>> (64 - n % 64)) % 2 ^ 64

/-- The five rows of the state: row y is its lanes 5y to 5y + 4. -/
def rows (a : List Nat) : List (List Nat) := (List.range 5).map fun y => (a.drop (5 * y)).take 5

/-- Theta's column words: the parity of the column to the left of each, with the turned parity of the column to its right. -/
def columnMix (a : List Nat) : List Nat :=
  let par := (rows a).foldl (List.zipWith Nat.xor) (List.replicate 5 0)
  List.zipWith (fun l r => Nat.xor l (turned r 1)) (par.rotateRight 1) (par.rotateLeft 1)

/-- The next `n` moves of rho and pi from (x, y), the t-th of them: the lane there goes to (y, 2x + 3y), turned by
t(t + 1)/2 places. -/
def moves : Nat → Nat → Nat → Nat → List (Nat × Nat × Nat)
  | 0, _, _, _ => []
  | n + 1, t, x, y =>
    let y' := (2 * x + 3 * y) % 5
    (x + 5 * y, y + 5 * y', t * (t + 1) / 2) :: moves n (t + 1) y y'

/-- Rho and pi: the lanes on the cycle from (1, 0) move one place along it; lane (0, 0) stays. -/
def scatter (a : List Nat) : List Nat :=
  (moves 24 1 1 0).foldl (fun b m => b.set m.2.1 (turned (a.getD m.1 0) m.2.2)) a

/-- Chi on one row. -/
def chiRow (r : List Nat) : List Nat :=
  List.zipWith (fun v m => Nat.xor v m) r
    (List.zipWith (fun n f => Nat.land (Nat.xor n (2 ^ 64 - 1)) f) (r.rotateLeft 1) (r.rotateLeft 2))

/-- The register that makes the round constants, one shift on. -/
def lfsr (r : Nat) : Nat := if 128 ≤ r then Nat.xor (2 * r) 0x171 else 2 * r

/-- Iota's word and the register after it: bit 2^j - 1 of the word is the register's bit 0 after j shifts. -/
def iotaWord : Nat → Nat → Nat → Nat × Nat
  | 0, _, r => (0, r)
  | n + 1, j, r =>
    let o := iotaWord n (j + 1) (lfsr r)
    (o.1 + (r % 2) <<< (2 ^ j - 1), o.2)

/-- `n` rounds from a state and the register. -/
def rounds : Nat → Nat → List Nat → List Nat
  | 0, _, a => a
  | n + 1, r, a =>
    let k := iotaWord 7 0 r
    let d := columnMix a
    let a := (rows (scatter ((rows a).flatMap (List.zipWith Nat.xor d)))).flatMap chiRow
    rounds n k.2 (a.modifyHead (Nat.xor k.1))

/-- Keccak-f[1600]. -/
def permute (a : List Nat) : List Nat := rounds 24 1 a

/-- The rate of SHAKE256 in bytes. -/
def rate : Nat := 136

/-- One block of 136 bytes absorbed. -/
def absorb (a : List Nat) (blk : List Byte) : List Nat :=
  permute (a.zipIdx.map fun p => if p.2 < 17 then Nat.xor p.1 (leNat ((blk.drop (8 * p.2)).take 8)) else p.1)

/-- The message cut into n blocks. -/
def blocks : Nat → List Byte → List (List Byte)
  | 0, _ => []
  | n + 1, m => m.take rate :: blocks n (m.drop rate)

/-- The message padded with the SHAKE domain bits 1111 and the 10*1 rule. -/
def pad (m : List Byte) : List Byte :=
  let r := rate - m.length % rate
  if r = 1 then m ++ [0x9F] else m ++ 0x1F :: (List.replicate (r - 2) 0 ++ [0x80])

/-- SHAKE256 with at most 136 bytes of output. -/
def shake256 (n : Nat) (m : List Byte) : List Byte :=
  let p := pad m
  let a := (blocks (p.length / rate) p).foldl absorb (List.replicate 25 0)
  (a.flatMap (leBytes 8)).take n

end Sys2Proof.Machine.Shake
end

