-- ==== Sys2Proof/Machine/Memory.lean ====
section
/-! DEFINITION. Device memory (R338 to R356): address map, channels, loft cache, and device accesses; translation (R330 to R332). -/

namespace Sys2Proof.Machine

/-! ### Address map (R340, R341) -/

/-- U: usable bytes per channel (R340). -/
def MemSys.usable (m : MemSys) : Nat :=
  let c := 2 ^ (29 + m.density)
  if m.inlineEcc then c / 8 * 7 else c

/-- SIZE_d (R340); 0 beyond the last domain. -/
def MemSys.domSize (m : MemSys) (d : Nat) : Nat := popcount 16 (m.domChans.getD d 0) * m.usable

/-- BASE_d (R340). -/
def MemSys.domBase (m : MemSys) : Nat → Nat
  | 0 => 0
  | d + 1 => m.domBase d + m.domSize d

/-- End of the mapped memory. -/
def MemSys.memEnd (m : MemSys) : Nat := m.domBase m.domChans.length

/-- The domain whose range holds an address (R340). -/
def MemSys.domOf (m : MemSys) (a : Nat) : Option Nat :=
  (List.range m.domChans.length).find? fun d => decide (m.domBase d ≤ a ∧ a < m.domBase d + m.domSize d)

/-- A range lies wholly in one domain. -/
def MemSys.inDom (m : MemSys) (d a n : Nat) : Bool :=
  decide (m.domBase d ≤ a ∧ a + n ≤ m.domBase d + m.domSize d)

/-- Channel and channel-local address of an address of domain d (R341). -/
def MemSys.locate (m : MemSys) (d a : Nat) : Nat × Nat :=
  let o := a - m.domBase d
  let chs := maskList 16 (m.domChans.getD d 0)
  let g := o / 256
  (chs.getD (g % chs.length) 0, g / chs.length * 256 + o % 256)

/-! ### Loft cache (R351, R352) -/

/-- Who accesses device memory (R352). -/
inductive Src where
  | work | noalloc | scan | host | walk
  deriving DecidableEq, Repr

/-- Slice and set of a line of domain d (R351). -/
def MemSys.setOf (m : MemSys) (d line : Nat) : Nat × Nat :=
  let p := m.locate d (128 * line)
  let l := p.2 / 128
  (p.1, Nat.xor (l % 1024) (l / 1024 % 1024))

/-- A block of the channel is rewritten whole: it no longer fails (R350). -/
def MemSys.dramWrite (m : MemSys) (a : Nat) (bs : List Byte) : MemSys :=
  { m with dram := Cells.write m.dram a bs,
           bad := m.bad.filter fun b => !decide (a ≤ 64 * b ∧ 64 * b + 64 ≤ a + bs.length) }

/-- A dirty line's bytes go to its channel (R354). -/
def MemSys.writeBack (m : MemSys) (l : LoftLine) : MemSys := if l.dirty then m.dramWrite (128 * l.line) l.data else m

/-- A line allocated for domain d: a free way of its mask, else the victim, which is written back first (R351). -/
def MemSys.loftAlloc (m : MemSys) (d line : Nat) : MemSys :=
  let ss := m.setOf d line
  let ways := maskList 16 (m.domWays.getD d 0)
  let inSet := m.loft.filter fun l => l.slice == ss.1 && l.set == ss.2 && ways.contains l.way
  let new : Nat → LoftLine := fun w => { line := line, slice := ss.1, set := ss.2, way := w, dom := d, dirty := false, data := [] }
  match ways.find? fun w => inSet.all (fun l => l.way != w) with
  | some w => { m with loft := m.loft ++ [new w] }
  | none =>
    let w := ways.getD (Config.loftVictim line % ways.length) 0
    match inSet.find? (fun l => l.way == w) with
    | none => m
    | some v => let m := m.writeBack v; { m with loft := m.loft.erase v ++ [new w] }

/-- One line touched by an access: hits, misses, allocation (R352). -/
def MemSys.touch (m : MemSys) (src : Src) (line : Nat) : MemSys :=
  match m.domOf (128 * line) with
  | none => m
  | some d =>
    if m.domWays.getD d 0 % 2 ^ 16 = 0 ∨ src = .walk then m
    else if m.loft.any (fun l => l.line == line) then { m with hits := tmod 0 m.hits d satInc }
    else
      let m := { m with misses := tmod 0 m.misses d satInc }
      if src = .work then m.loftAlloc d line else m

/-- The lines an access of n bytes at a touches. -/
def linesOf (a n : Nat) : List Nat := if n = 0 then [] else (List.range ((a + n - 1) / 128 + 1 - a / 128)).map (a / 128 + ·)

/-- n bytes of device memory as the slice serves them: a dirty line, else the channel (R352); a table walk sees the channel only. -/
def MemSys.peek (m : MemSys) (src : Src) (a n : Nat) : List Byte :=
  let w := Cells.window m.dram a n
  let ls := if src = .walk then [] else m.loft.filter fun l => l.dirty && decide (128 * l.line < a + n ∧ a < 128 * l.line + 128)
  (List.range n).map fun i =>
    match ls.find? (fun l => l.line == (a + i) / 128) with
    | some l => l.data.getD ((a + i) % 128) 0
    | none => Cells.get w (a + i)

/-- A block an access reads from its channel fails (R350): listed bad and not served from a dirty line. -/
def MemSys.fails (m : MemSys) (src : Src) (a n : Nat) : Option Nat :=
  (m.bad.filter fun b => decide (64 * b < a + n ∧ a < 64 * b + 64)).find? fun b =>
    src = .walk || !(m.loft.any fun l => l.dirty && l.line == b / 2)

/-- A device read: the lines touched, then the bytes. -/
def MemSys.load (m : MemSys) (src : Src) (a n : Nat) : MemSys × List Byte :=
  let m := (linesOf a n).foldl (fun m l => m.touch src l) m
  (m, m.peek src a n)

/-- The bytes bs at a laid over the 128 bytes of a line. -/
def overlay (line : Nat) (old : List Byte) (a : Nat) (bs : List Byte) : List Byte :=
  old.zipIdx.map fun p =>
    let x := 128 * line + p.2
    if a ≤ x ∧ x < a + bs.length then bs.getD (x - a) 0 else p.1

/-- The part of bs that falls in a line, with its address. -/
def partOf (line a : Nat) (bs : List Byte) : Nat × List Byte :=
  let lo := max a (128 * line)
  (lo, (bs.drop (lo - a)).take (128 * line + 128 - lo))

/-- A write of one line's part (R352). -/
def MemSys.storeLine (m : MemSys) (src : Src) (a : Nat) (bs : List Byte) (line : Nat) : MemSys :=
  let m := m.touch src line
  let pt := partOf line a bs
  match m.loft.find? (fun l => l.line == line) with
  | none => m.dramWrite pt.1 pt.2
  | some l =>
    if src = .host then
      let m := m.dramWrite pt.1 pt.2
      { m with loft := m.loft.map fun k => if k.line == line && k.dirty then { k with data := overlay line k.data a bs } else k }
    else
      let old := if l.dirty then l.data else Cells.read m.dram (128 * line) 128
      { m with loft := m.loft.map fun k => if k.line == line then { k with dirty := true, data := overlay line old a bs } else k }

/-- A device write. -/
def MemSys.store (m : MemSys) (src : Src) (a : Nat) (bs : List Byte) : MemSys :=
  (linesOf a bs.length).foldl (fun m l => m.storeLine src a bs l) m

/-- Every dirty line of a domain is written back; with invalidate its lines leave the cache (R354). -/
def MemSys.cleanDom (m : MemSys) (d : Nat) (inval : Bool) : MemSys :=
  let m' := (m.loft.filter (fun l => l.dom == d)).foldl MemSys.writeBack m
  { m' with loft := if inval then m.loft.filter (fun l => l.dom != d)
                    else m.loft.map fun l => if l.dom == d then { l with dirty := false, data := [] } else l }

/-! ### Uncorrectable reads (R350) -/

/-- An uncorrectable read: counted, its address and channel recorded when none is held (R350, R357). -/
def Sys.uncorrectable (blk : Nat) (y : Sys) : Sys :=
  let ch := match y.mem.domOf (64 * blk) with | some d => (y.mem.locate d (64 * blk)).1 | none => 0
  let y := y.modMem fun m =>
    let m := { m with uncorr := satInc m.uncorr }
    if bitAt m.errInfo 6 then m else { m with errAddr := 64 * blk, errInfo := put ch 0 4 + (if m.inlineEcc then 2 ^ 4 else 0) + 2 ^ 6 }
  y.memEvent 2

/-! ### Translation (R330 to R333) -/

/-- Kinds of translation fault, by their HOSTLINK_XLAT_INFO codes (R332, R337). -/
inductive XKind where
  | notPresent | malformed | writeProtect | domain
  deriving DecidableEq, Repr

/-- KIND code (R337). -/
def XKind.code : XKind → Nat
  | .notPresent => 0 | .malformed => 1 | .writeProtect => 2 | .domain => 3

/-- Status of a translation fault (R332). -/
def XKind.status : XKind → Nat
  | .notPresent => 0x10 | .malformed => 0x10 | .writeProtect => 0x60 | .domain => 0x60

/-- First address of the peer window (R387). -/
def peerBase : Nat := 0x800000000

/-- An address lies in the peer window of a TEAM die (R387). -/
def Sys.inPeer (y : Sys) (a : Nat) : Bool := y.glob.config == 1 && decide (peerBase ≤ a ∧ a < 2 * peerBase)

/-- A page passes the domain test of R332, the peer window's included (R387). -/
def Sys.pageInDom (y : Sys) (d a n : Nat) : Bool :=
  if y.inPeer a then
    match y.duo.peerDoms[d]? with
    | some r => decide (r.1 ≤ a - peerBase ∧ a - peerBase + n ≤ r.1 + r.2)
    | none => false
  else y.mem.inDom d a n

/-- A table entry is read from the channel (R331); an uncorrectable one counts as not present (R350). -/
def Sys.entry (y : Sys) (a : Nat) : Option Nat :=
  if y.mem.memEnd < a + 8 ∨ (y.mem.fails .walk a 8).isSome then none else some (leNat (y.mem.peek .walk a 8))

/-- Reserved bits of an entry are 0 and the page base is aligned (R331). -/
def entryOk (e lg : Nat) : Bool := fld e 6 6 == 0 && fld e 52 12 == 0 && (fld e 12 40 * 4096) % 2 ^ lg == 0

/-- The leaf an entry maps: size, with its bits (R331). -/
def leafOf (ctx va e lg : Nat) : Xlat :=
  { ctx := ctx, va := va / 2 ^ lg * 2 ^ lg, lg := lg, pa := fld e 12 40 * 4096, write := bitAt e 1, host := bitAt e 4, noalloc := bitAt e 5 }

/-- The walk from level l at table t (R331, R332); bad says that a table met so far lay outside the context's domain. -/
def Sys.walk (y : Sys) (ctx d va : Nat) : Nat → Nat → Bool → Except XKind Xlat
  | l, t, bad =>
    let bad := bad || !(y.mem.inDom d t 4096)
    let idx := fld va (12 + 9 * l) 9
    match l with
    | 0 =>
      let first := y.entry (t + 8 * (idx / 16 * 16))
      match first with
      | none => .error (if bad then .domain else .notPresent)
      | some f =>
        if bitAt f 0 && bitAt f 3 then finish bad (leafOf ctx va f 16) (entryOk f 16)
        else match y.entry (t + 8 * idx) with
          | none => .error (if bad then .domain else .notPresent)
          | some e => if bitAt e 0 then finish bad (leafOf ctx va e 12) (entryOk e 12) else .error .notPresent
    | l' + 1 =>
      match y.entry (t + 8 * idx) with
      | none => .error (if bad then .domain else .notPresent)
      | some e =>
        if !bitAt e 0 then .error .notPresent
        else if bitAt e 3 then .error .malformed
        else if bitAt e 2 then
          if l' = 0 then finish bad (leafOf ctx va e 21) (entryOk e 21) else .error .malformed
        else if entryOk e 12 then y.walk ctx d va l' (fld e 12 40 * 4096) bad else .error .malformed
where
  /-- The leaf is well formed, then lies in the domain unless it is a host page. -/
  finish (bad : Bool) (x : Xlat) (ok : Bool) : Except XKind Xlat :=
    if !ok then .error .malformed
    else if bad || (!x.host && !y.pageInDom d x.pa (2 ^ x.lg)) then .error .domain
    else .ok x

/-- The region of a SEALING or SEALED model slot covers part of a range (R418). -/
def Sys.sealed (y : Sys) (a n : Nat) : Bool :=
  y.sec.models.any fun p => p.2.st != 0 && decide (p.2.addr < a + n ∧ a < p.2.addr + 64 * p.2.len)

/-- A cached translation covers an address. -/
def Xlat.covers (x : Xlat) (ctx va : Nat) : Bool := x.ctx == ctx && decide (x.va ≤ va ∧ va < x.va + 2 ^ x.lg)

/-- The first fault is latched until cleared, and XLAT_FAULT is set (R332, R337). -/
def Sys.xlatFault (ctx va : Nat) (k : XKind) (wr : Bool) (y : Sys) : Sys :=
  let y := y.modLink fun l =>
    if bitAt l.xlatInfo 9 then l
    else { l with xlatAddr := va, xlatInfo := put ctx 0 6 + put k.code 6 2 + putb wr 8 + 2 ^ 9 }
  let y := y.linkEvent 5
  if k.status = 0x60 then y.logFault { cls := 0x0C, action := 0x04, status := 0x60, block := 0x0C, ctx := some ctx } else y

/-- The translation of an access that stays within one page: caches first, then the walk, then write protection (R331, R332). -/
def Sys.translate (who : Option Nat) (ctx va n : Nat) (wr : Bool) (y : Sys) : Sys × Except XKind Xlat :=
  let d := (y.ctx ctx).domain
  let hit := (match who with
    | some s => (tget [] y.mem.stallTlb s).find? (fun x : Xlat => x.covers ctx va)
    | none => none).or (y.mem.tlb.find? fun x : Xlat => x.covers ctx va)
  let res : Except XKind Xlat :=
    if va / 2 ^ 48 ≠ 0 then .error .notPresent
    else match hit with
      | some x => .ok x
      | none =>
        let pt := tget 0 y.link.ctxPt ctx
        if bitAt pt 0 then y.walk ctx d va 3 (fld pt 12 40 * 4096) false else .error .notPresent
  match res with
  | .error k => (y.xlatFault ctx va k wr, .error k)
  | .ok x =>
    let y := if hit.isSome then y else y.modMem fun m =>
      { m with tlb := (x :: m.tlb).take 4096,
               stallTlb := match who with | some s => tmod [] m.stallTlb s (fun t => (x :: t).take 64) | none => m.stallTlb }
    let pa := x.pa + (va - x.va)
    if wr && (!x.write || (!x.host && y.sealed pa n)) then (y.xlatFault ctx va .writeProtect wr, .error .writeProtect)
    else (y, .ok x)

/-- A range cut at 4 KiB boundaries (fuel bounds the pieces). -/
def pieces : Nat → Nat → Nat → List (Nat × Nat)
  | 0, _, _ => []
  | f + 1, a, n => if n = 0 then [] else let k := min n (4096 - a % 4096); (a, k) :: pieces f (a + k) (n - k)

/-- The pieces of a whole range. -/
def piecesOf (a n : Nat) : List (Nat × Nat) := pieces (n / 4096 + 2) a n

/-- Free bytes: data the spec lets this die not know (a peer-window read outside the DMA agents, R387). -/
def freeBytes (seed n : Nat) : List Byte := (List.range n).map fun i => (Config.freeWord (seed + i)).truncate 8

/-- The status an access of a stall ends with at an uncorrectable block: 0x30 with the block in its high part, so that the sliver is
executed again (R350, R400 SHARED_DATA, R401). -/
def blockFault (b : Nat) : Nat := 2 ^ 12 * (b + 2) + 0x30

/-- The same at a faulty granule of a stall pool. -/
def granuleFault : Nat := 2 ^ 12 + 0x30

/-- One piece read (translated). -/
def Sys.readPiece (who : Option Nat) (ctx va n : Nat) (y : Sys) : Sys × Except Nat (List Byte) :=
  match y.translate who ctx va n false with
  | (y, .error k) => (y, .error k.status)
  | (y, .ok x) =>
    let pa := x.pa + (va - x.va)
    if x.host then (y, .ok (Cells.read y.hostCells pa n))
    else if y.inPeer pa then (y.tick, .ok (freeBytes y.chance n))
    else
      let src := if x.noalloc then Src.noalloc else Src.work
      match y.mem.fails src pa n with
      | some b => (y.uncorrectable b, .error (if who.isSome then blockFault b else 0x30))
      | none => let r := y.mem.load src pa n; ({ y with mem := r.1 }, .ok r.2)

/-- A device virtual read of n bytes, page by page; the error is the status of R332 (or 0x30 for an uncorrectable read). -/
def Sys.vread (who : Option Nat) (ctx va n : Nat) (y : Sys) : Sys × Except Nat (List Byte) :=
  (piecesOf va n).foldl (fun acc p =>
    match acc with
    | (y, .error e) => (y, .error e)
    | (y, .ok bs) => match y.readPiece who ctx p.1 p.2 with
      | (y, .error e) => (y, .error e)
      | (y, .ok b) => (y, .ok (bs ++ b))) (y, .ok [])

/-- h(w) of R392 for the part of a write that falls in the 64-byte block at b: SHAKE256 of address, byte enables, data. -/
def digestBlock (b va : Nat) (bs : List Byte) : Nat :=
  let inside := fun i => decide (va ≤ b + i ∧ b + i < va + bs.length)
  let be := (List.range 64).foldl (fun m i => if inside i then m + 2 ^ i else m) 0
  let data := (List.range 64).map fun i => if inside i then bs.getD (b + i - va) 0 else 0
  leNat (Shake.shake256 16 (leBytes 8 b ++ leBytes 8 be ++ data))

/-- The mirror digest share of a write (R392). -/
def digestOf (va : Nat) (bs : List Byte) : Nat :=
  if bs.isEmpty then 0 else
  ((List.range ((va + bs.length - 1) / 64 + 1 - va / 64)).map fun i => digestBlock (64 * (va / 64 + i)) va bs).sum % 2 ^ 128

/-- A host write cut into packets that cross no 256-byte boundary (R321, R322). -/
def hostPackets (m ctx a : Nat) (bs : List Byte) : List OutPkt :=
  (List.range ((a + bs.length + 255) / 256 - a / 256)).filterMap fun i =>
    let lo := max a (256 * (a / 256 + i))
    let part := (bs.drop (lo - a)).take (256 * (a / 256 + i) + 256 - lo)
    if part.isEmpty then none else some (.mwr m ctx lo part)

/-- A peer-window write cut into packets (R321, R387): context and address on the other die. -/
def hPackets (ctx a : Nat) (bs : List Byte) : List OutPkt :=
  (hostPackets 0 ctx a bs).filterMap fun p => match p with | .mwr _ c lo part => some (.harness "MWR" [c, lo] part) | _ => none

/-- A write to host memory by a context (64: none), as posted packets; a context in Calm and a TANDEM worker send none (R315, R391). -/
def Sys.hostWrite (ctx a : Nat) (bs : List Byte) (y : Sys) : Sys :=
  let m := if ctx < 64 then y.moduleOf ctx else 0
  if (ctx < 64 ∧ (y.ctx ctx).calm = true) ∨ (y.glob.config = 2 ∧ y.duo.role = 1 ∧ y.duo.alone = false) then y
  else (hostPackets m ctx a bs).foldl (fun y p => y.post m p) y

/-- One piece written (translated). -/
def Sys.writePiece (who : Option Nat) (ctx va : Nat) (bs : List Byte) (y : Sys) : Sys × Except Nat Unit :=
  match y.translate who ctx va bs.length true with
  | (y, .error k) => (y, .error k.status)
  | (y, .ok x) =>
    let pa := x.pa + (va - x.va)
    if x.host then (y.hostWrite ctx pa bs, .ok ())
    else if y.inPeer pa then ((hPackets ctx (pa - peerBase) bs).foldl (fun y p => y.hpost p) y, .ok ())
    else ({ y with mem := y.mem.store (if x.noalloc then .noalloc else .work) pa bs }, .ok ())

/-- A device virtual write, page by page: pages before a fault stay written (R308); in TANDEM its digest is added to the task group
(R392). -/
def Sys.vwrite (who : Option Nat) (ctx va : Nat) (bs : List Byte) (tg : Option Nat) (y : Sys) : Sys × Except Nat Unit :=
  let y := match tg with
    | some t => if y.glob.config = 2 then y.modTg t fun g => { g with digest := (g.digest + digestOf va bs) % 2 ^ 128 } else y
    | none => y
  (piecesOf va bs.length).foldl (fun acc p =>
    match acc with
    | (y, .error e) => (y, .error e)
    | (y, .ok _) => y.writePiece who ctx p.1 ((bs.drop (p.1 - va)).take p.2)) (y, .ok ())

end Sys2Proof.Machine
end

