-- ==== Sys2Proof/Machine/Permits.lean ====
section
/-! DEFINITION. Draw permits (R101, R102, R358 to R363): prices, holdings, requests and grants; semaphore tokens (R306, R307) and
priority lending (R282). -/

namespace Sys2Proof.Machine

/-! ### Prices (R359) -/

/-- S_n (R359). -/
def opS : List Nat := [1348, 1024, 767, 546, 438, 344, 207]
/-- ARITH clock of each point in kHz (R19). -/
def opKHz : List Nat := [300000, 250000, 200000, 150000, 125000, 100000, 62500]
/-- Rail 0 voltage of each point in mV (R21). -/
def opMv : List Nat := [680, 620, 580, 550, 530, 520, 500]

/-- The price of cost C at a point (R359). -/
def price (op c : Nat) : Nat := cdiv (c * opS.getD op 1024) 1024

/-- The price of a holding: n shares, each rounded up on its own (log entry 20). -/
def Holding.price (op : Nat) (h : Holding) : Nat := h.n * Machine.price op h.cost

/-- COST[k] in force (R35, R101). -/
def Sys.cost (y : Sys) (k : Nat) : Nat := y.girth.costs.getD k 0

/-- What a holding holds now. -/
def Holding.now (h : Holding) : Nat := h.price h.op

/-- What the holdings of work hold together (R358). -/
def Girth.heldBy (g : Girth) : Nat := (g.holds.map Holding.now).sum

/-- The same holdings at the prices of a point (R360, R366). -/
def Girth.heldAt (g : Girth) (op : Nat) : Nat := (g.holds.map (Holding.price op)).sum

/-- The compositor context, when a valid context sets COMPOSITOR (R34, R362). -/
def Sys.compositor (y : Sys) : Option Nat := (y.bridle.ctxs.find? fun p => p.2.valid && p.2.compositor).map (·.1)

/-- Permits the compositor holds (R382 GIRTH_COMP_HELD). -/
def Sys.compHeld (y : Sys) : Nat :=
  match y.compositor with
  | none => 0
  | some c => ((y.girth.holds.filter (fun h => h.ctx == c)).map Holding.now).sum

/-- The compositor's unused reserve (R362). -/
def Sys.unusedReserve (y : Sys) : Nat := if y.compositor.isNone then 0 else y.girth.compReserve - y.compHeld

/-- A request can be met now (R362): a request of another context leaves the compositor's unused reserve untouched. -/
def Sys.canGrant (y : Sys) (r : PermReq) : Bool :=
  let need := (r.holds.map (Holding.price y.girth.priceOp)).sum
  let free := (y.pool 0 0).free
  if r.holds.any (fun h => some h.ctx == y.compositor) then decide (need ≤ free)
  else decide (need + y.unusedReserve ≤ free)

/-- The stall a request's grant would release to work (R290). -/
def Act.stall? : Act → Option Nat
  | .dispatch _ _ c => some (stallOf c)
  | .resume _ c => some (stallOf c)
  | _ => none

/-- The request waits for its stall's turn of a breeze-in (R290). -/
def Sys.breezing (y : Sys) (r : PermReq) : Bool := r.act.stall?.any y.bridle.breeze.contains

/-- WITHHELD moves toward POOL − L (R362): a rise of L returns the difference at once; a fall takes what is FREE outside the compositor's
unused reserve. -/
def Sys.settleLimit (y : Sys) : Sys :=
  let want := (y.pool 0 0).total - y.girth.limit
  let w := y.girth.withheld
  if want ≤ w then (y.modPool 0 0 (Pool.give (w - want))).modGirth fun g => { g with withheld := want }
  else
    let k := min (want - w) ((y.pool 0 0).free - y.unusedReserve)
    (y.modPool 0 0 (Pool.take k)).modGirth fun g => { g with withheld := w + k }

/-- Holdings are taken at the prices in force (R360): HELD rises by their price, FREE falls by it. -/
def Sys.takeHolds (hs : List Holding) (y : Sys) : Sys :=
  let hs := hs.map fun h => { h with op := y.girth.priceOp }
  let n := (hs.map Holding.now).sum
  (y.modPool 0 0 (Pool.take n)).modGirth fun g => { g with holds := g.holds ++ hs }

/-- Every holding of a holder returns (R102, R312). -/
def Sys.dropHold (w : Holder) (y : Sys) : Sys :=
  let n := ((y.girth.holds.filter (fun h => h.who == w)).map Holding.now).sum
  ((y.modPool 0 0 (Pool.give n)).modGirth fun g => { g with holds := g.holds.filter (fun h => h.who != w) }).settleLimit

/-- GIRTH_REASONS.NOW (R375): bits 0 and 4 stand from the last decision; bit 0 also while a request waits and WITHHELD holds permits. -/
def Sys.reasonsNow (y : Sys) : Nat :=
  let g := y.girth
  putb (bitAt g.reasons 0 || (!g.reqs.isEmpty && g.withheld != 0)) 0 + putb g.squallHeld 1 + putb (g.throttle || g.hot) 2 + putb g.stretched 3 +
  putb (bitAt g.reasons 4) 4 + putb (g.fixed && g.op == g.fixedOp) 5 + putb (g.memLevel != 0 || g.linkLevel != 0) 6 + putb y.mem.hot 7

/-- A holder holds something. -/
def Sys.holds (y : Sys) (w : Holder) : Bool := y.girth.holds.any fun h => h.who == w

/-- A request joins the queue (once). -/
def Sys.request (r : PermReq) (y : Sys) : Sys :=
  if y.girth.reqs.any (fun q => q.act == r.act) then y else y.modGirth fun g => { g with reqs := g.reqs ++ [r] }

/-- A request is withdrawn. -/
def Sys.unrequest (a : Act) (y : Sys) : Sys := y.modGirth fun g => { g with reqs := g.reqs.filter fun r => r.act != a }

/-- The holding of one sliver of a task group: SLIVER + ENG × ENGINE + VECTOR + SETGS (R102, R298). -/
def Sys.sliverHold (y : Sys) (t n : Nat) : Holding :=
  let g := y.tg t
  { who := .sliver t n, ctx := g.ctx,
    cost := y.cost 1 + g.eng * y.cost 2 + (if g.vec then y.cost 3 else 0) + (if g.setgs then y.cost 4 else 0) }

/-! ### Priorities and lending (R266, R282) -/

/-- Context and domain of a semaphore holder or waiter. -/
def Sys.holderCtx (y : Sys) : SemHolder → Nat
  | .sliver t _ => (y.tg t).ctx
  | .group t => (y.tg t).ctx
  | .job j => (y.job j).ctx

/-- A task group or job reaches all its slivers (R307): the holder covers a sliver. -/
def Sys.covers (y : Sys) (h : SemHolder) (t n : Nat) : Bool :=
  match h with
  | .sliver t' n' => t' == t && n' == n
  | .group t' => t' == t
  | .job j => (y.tg t).job == j

/-- Base priority of a context (R266). -/
def Sys.basePrio (y : Sys) (c : Nat) : Nat := (y.ctx c).prio

/-- What is lent to holder h is lent to w: w itself, or work that w is part of (R307). -/
def Sys.reaches (y : Sys) (h w : SemHolder) : Bool :=
  match w with
  | .sliver t n => y.covers h t n
  | .group t => h == .group t || h == .job (y.tg t).job
  | .job _ => h == w

/-- Effective priority of a sliver, a built-in kernel or a job (R266, R282): the least of its base and what waiters of its domain lend it,
over chains of at most fuel links. -/
def Sys.effPrio (y : Sys) : Nat → SemHolder → Nat
  | 0, w => y.basePrio (y.holderCtx w)
  | f + 1, w =>
    let d := (y.ctx (y.holderCtx w)).domain
    y.work.sems.foldl (fun p s =>
      if s.2.holds.any (fun h => y.reaches h.who w) then
        s.2.waits.foldl (fun p r => if (y.ctx (y.holderCtx r.who)).domain = d then min p (y.effPrio f r.who) else p) p
      else p) (y.basePrio (y.holderCtx w))

/-- Effective priority of a holder or waiter: a chain of eight slivers has seven links (R282, R285). -/
def Sys.prioWho (y : Sys) (w : SemHolder) : Nat := y.effPrio 7 w

/-- Effective priority of a sliver (R266). -/
def Sys.prioOf (y : Sys) (t n : Nat) : Nat := y.prioWho (.sliver t n)

/-! ### The order of grants (R290, R363) -/

/-- Every save of the die, in save regions and context save areas. -/
def Sys.allSaves (y : Sys) : List Save := (y.stalls.flatMap fun s => s.2.saves) ++ y.bridle.areas.flatMap fun a => a.2

/-- The save of an order number. -/
def Sys.findSave (y : Sys) (q : Nat) : Option Save := y.allSaves.find? fun v => v.seq == q

/-- Effective priority of a save. -/
def Sys.savePrio (y : Sys) (v : Save) : Nat := y.prioOf v.run.tg v.run.sliver

/-- Effective priority of a waiting request now (R266: a grant reads the priorities in force): of the sliver it is for, else the base priority of
its context; a stall wake keeps the priority it was made with (log entry 71). -/
def Sys.reqPrio (y : Sys) (r : PermReq) : Nat :=
  match r.act with
  | .dispatch t n _ => y.prioOf t n
  | .resume q _ => ((y.findSave q).map y.savePrio).getD r.prio
  | .save c => match (y.core c).next, (y.core c).run with
    | some (t, n, _), _ => y.prioOf t n
    | none, some v => y.prioOf v.tg v.sliver
    | none, none => r.prio
  | .dma s => ((y.dma.xfers.filter fun x => x.stall == s && !x.cancelled).map fun x => y.prioOf x.tg x.sliver).foldl min 7
  | .wake _ => r.prio
  | _ => match r.holds with
    | h :: _ => y.basePrio h.ctx
    | [] => r.prio

/-- The place of a request in the order of R363: the compositor first, then effective priority; the list keeps age. -/
def Sys.reqRank (y : Sys) (r : PermReq) : Nat :=
  if r.holds.any (fun h => some h.ctx == y.compositor) then 0 else 1 + y.reqPrio r

/-- The core a request would start a sliver on. -/
def Act.core? : Act → Option Nat
  | .dispatch _ _ c => some c
  | .resume _ c => some c
  | _ => none

/-- The request served next (R363); one whose stall waits in a breeze-in stands aside, and within a stall the cores start in ascending order
(R290). -/
def Sys.headReq (y : Sys) : Option PermReq :=
  let rs := y.girth.reqs.filter fun r => !y.breezing r
  match minBy y.reqRank rs with
  | none => none
  | some r =>
    if r.act.core?.isNone then some r
    else minBy (fun q => q.act.core?.getD 0) (rs.filter fun q => q.act.core?.isSome && q.act.stall? == r.act.stall? && y.reqRank q == y.reqRank r)

/-- The request served next is granted, when it can be (R363: nothing overtakes it); what it was for. -/
def Sys.grantNext (y : Sys) : Sys × Option Act :=
  match y.headReq with
  | none => (y, none)
  | some r =>
    if y.canGrant r then ((y.takeHolds r.holds).modGirth fun g => { g with reqs := g.reqs.erase r }, some r.act) else (y, none)

/-! ### Semaphores (R306, R307) -/

/-- Tokens held of a semaphore. -/
def Sem.held (s : Sem) : Nat := (s.holds.map (·.n)).sum

/-- Free tokens. -/
def Sem.free (s : Sem) : Nat := s.total - s.held

/-- Tokens a request takes: 1, or all of TOTAL (R306). -/
def Sem.need (s : Sem) (r : SemReq) : Nat := if r.all then s.total else 1

/-- New lends between two states are counted: each holder whose effective priority a change of the waiters has raised, passed-on lends and lends
to a new holder among them (R282, log entry 72). -/
def Sys.countLends (y y' : Sys) : Sys :=
  let hs := ((y'.work.sems.flatMap fun s => s.2.holds).map (·.who)).eraseDups
  let n := (hs.filter fun h => decide (y'.prioWho h < y.prioWho h)).length
  y'.modBridle fun b => { b with lends := satAdd b.lends n }

/-- The oldest request of a semaphore is granted when enough tokens are free (R306); who got them. -/
def Sys.semGrant (n : Nat) (y : Sys) : Sys × Option SemHolder :=
  let s := y.sem n
  match s.waits with
  | [] => (y, none)
  | r :: rest =>
    let k := s.need r
    if k ≤ s.free ∧ s.total ≠ 0 then
      let y' := (y.modSem n fun s => { s with waits := rest, holds := s.holds ++ [{ who := r.who, n := k }] }).modPool 4 0 (Pool.take k)
      (y.countLends y', some r.who)
    else (y, none)

/-- A request is made: it waits in arrival order, lending its priority unless it can be granted at once (R282, R306). -/
def Sys.semRequest (n : Nat) (r : SemReq) (y : Sys) : Sys :=
  let s := y.sem n
  let y' := y.modSem n fun s => { s with waits := s.waits ++ [r] }
  if s.waits.isEmpty && decide (s.need r ≤ s.free) then y' else y.countLends y'

/-- The holder's oldest unreleased request returns its tokens (R307); false when it holds none. -/
def Sys.semRelease (n : Nat) (w : SemHolder) (y : Sys) : Sys × Bool :=
  let s := y.sem n
  match s.holds.find? (fun h => h.who == w) with
  | none => (y, false)
  | some h => ((y.modSem n fun s => { s with holds := s.holds.erase h }).modPool 4 0 (Pool.give h.n), true)

/-- Every token a holder still holds returns, each return counted in SEM_AUTO, and its waiting requests leave (R307). -/
def Sys.semReturnAll (w : SemHolder) (y : Sys) : Sys :=
  let k := (y.work.sems.map fun p => ((p.2.holds.filter (fun h => h.who == w)).map (·.n)).sum).sum
  let c := (y.work.sems.map fun p => (p.2.holds.filter (fun h => h.who == w)).length).sum
  let y := y.modWork fun k => { k with sems := tmap k.sems fun _ s =>
    { s with holds := s.holds.filter (fun h => h.who != w), waits := s.waits.filter (fun r => r.who != w) } }
  (y.modPool 4 0 (Pool.give k)).modCons fun c' => { c' with semAuto := satAdd c'.semAuto c }

end Sys2Proof.Machine
end

