-- ==== Sys2Proof/Machine/Chains.lean ====
section
/-! DEFINITION. Band chains as the work blocks see them (R225 to R230): what the end of a chain's task group, and the end of a chain's
cancel, do to the band board; the vertex task groups of a render pass (R180). -/

namespace Sys2Proof.Machine

def Sys.band (y : Sys) (b : Nat) : Band := tget {} y.fg.bands b
def Sys.modBand (y : Sys) (b : Nat) (f : Band → Band) : Sys := y.modFg fun g => { g with bands := tmod {} g.bands b f }

/-- A task group of the chain (band b, kind k: 0 GEN, 1 WARP) completed with a status (R225, R227): the chain fails when it does not publish,
and completes with its BAND_END task group. -/
def Sys.chainStep (b k : Nat) (bandEnd : Bool) (st : Nat) (y : Sys) : Sys :=
  let n := y.band b
  let now := if k = 0 then n.gen else n.warp
  if now ≠ .running then y
  else
    let new : ChSt := if !publishes st then .failed else if bandEnd then .done else .running
    y.modBand b fun n =>
      if k = 0 then
        let tagged := if new = .done then (if n.frame % 2 = 0 then { n with tag0 := some n.frame } else { n with tag1 := some n.frame }) else n
        { tagged with gen := new }
      else { n with warp := new, doneAt := if new = .done then y.fg.ticks else n.doneAt }

/-- The cancel of a job's chains completed: they stand IDLE (R226, R241). -/
def Sys.chainsCancelled (j : Nat) (y : Sys) : Sys :=
  y.modFg fun g => { g with bands := tmap g.bands fun _ n =>
    { n with gen := if n.gen = .cancelling ∧ n.genJob = j then .idle else n.gen,
             warp := if n.warp = .cancelling ∧ n.warpJob = j then .idle else n.warp } }

/-- A task group of kind k closed the open chain of its queue. -/
def Fg.close (k : Nat) (g : Fg) : Fg := if k = 0 then { g with openGen := none, cutGen := false } else { g with openWarp := none, cutWarp := false }

/-- The open chain a packet on a band queue goes on (R225): band, kind. -/
def Fg.openOn (g : Fg) (q : Nat) : Option (Nat × Nat) :=
  if q = g.genQ then g.openGen.map fun b => (b, 0)
  else if q = g.warpQ then g.openWarp.map fun b => (b, 1)
  else none

/-- A TASK packet of a chain completed with a status without having become a task group (R225). -/
def Sys.chainPacket (q w0 st : Nat) (y : Sys) : Sys :=
  if bitAt w0 18 then y else
  match y.fg.openOn q with
  | none => y
  | some (b, k) => let y := y.chainStep b k (bitAt w0 19) st; if bitAt w0 19 then y.modFg (Fg.close k) else y

/-- The pass of a queue changed, wherever it stands. -/
def Raster.modPass (r : Raster) (q : Nat) (f : Pass → Pass) : Raster :=
  let g := fun (p : Pass) => if p.queue = q then f p else p
  { r with active := r.active.map g, parked := r.parked.map g, waiting := r.waiting.map g }

end Sys2Proof.Machine
end

