-- ==== Sys2Proof/Machine/Float.lean ====
section
/-! DEFINITION. Number formats and rounding (R72, R73, R84, R85, R104, R107, R118, R119): every value is an exact rational,
rounded once. A format is its precision, the exponent of its smallest step, and its largest encoding. -/

namespace Sys2Proof.Machine

/-- A binary format without infinities of its own: precision p, exponent of the least step, largest magnitude encoding. -/
structure Fmt where
  p : Nat
  emin : Int
  maxBits : Nat
  deriving DecidableEq, Repr

/-- IEEE 754 binary32. -/
def fp32 : Fmt := ⟨24, -149, 0x7F7FFFFF⟩
/-- IEEE 754 binary16 (R106 code 8). -/
def fp16 : Fmt := ⟨11, -24, 0x7BFF⟩
/-- bfloat16 (R106 code 9). -/
def bf16 : Fmt := ⟨8, -133, 0x7F7F⟩
/-- X16 (R104). -/
def x16 : Fmt := ⟨10, -39, 0x7FFF⟩
/-- E4M3 (R107). -/
def e4m3 : Fmt := ⟨4, -9, 0x7F⟩
/-- E5M2 (R107). -/
def e5m2 : Fmt := ⟨3, -16, 0x7F⟩

/-- The rounding modes of R118 and R119; STOCH carries the Tanner draw. -/
inductive RMode where
  | rne
  | stoch (u : Nat)
  deriving DecidableEq, Repr

/-- floor(log2(n / d)) for n, d > 0. -/
def floorLog2 (n d : Nat) : Int :=
  let k : Int := (Nat.log2 n : Int) - Nat.log2 d
  if k ≥ 0 then (if n < d * 2 ^ k.toNat then k - 1 else k)
  else (if n * 2 ^ (-k).toNat < d then k - 1 else k)

/-- Whether the magnitude goes up: remainder r of denominator d above the truncated q (R118, R119). -/
def roundUp (mode : RMode) (q r d : Nat) : Bool :=
  match mode with
  | .rne => decide (d < 2 * r) || (decide (2 * r = d) && q % 2 == 1)
  | .stoch u => decide (0xFFFFFFFF - u < r * 2 ^ 32 / d)

/-- The magnitude n / d × 2^e rounded to an integer multiple of 2^e': the multiple and e' (unbounded above). -/
def roundRat (p : Nat) (emin : Int) (mode : RMode) (n d : Nat) (e : Int) : Nat × Int :=
  if n = 0 then (0, emin) else
  let e' := max (floorLog2 n d + e - (p - 1 : Nat)) emin
  let sh := e' - e
  let n' := if sh ≥ 0 then n else n * 2 ^ (-sh).toNat
  let d' := if sh ≥ 0 then d * 2 ^ sh.toNat else d
  let q := n' / d'
  ((if roundUp mode q (n' % d') d' then q + 1 else q), e')

/-- The encoding, without sign, of a rounded magnitude (a carry into the next exponent comes out right). -/
def Fmt.enc (f : Fmt) (q : Nat) (e : Int) : Nat := (e - f.emin).toNat * 2 ^ (f.p - 1) + q

/-- A magnitude rounded into a format: the encoding, and whether it passed the largest one. -/
def Fmt.round (f : Fmt) (mode : RMode) (n d : Nat) (e : Int) : Nat × Bool :=
  let r := roundRat f.p f.emin mode n d e
  let b := f.enc r.1 r.2
  if f.maxBits < b then (f.maxBits, true) else (b, false)

/-- The magnitude an encoding without sign stands for: integer and exponent. -/
def Fmt.dec (f : Fmt) (b : Nat) : Nat × Int :=
  let ef := b / 2 ^ (f.p - 1)
  let fr := b % 2 ^ (f.p - 1)
  if ef = 0 then (fr, f.emin) else (fr + 2 ^ (f.p - 1), f.emin + (ef - 1 : Nat))

/-- An exact dyadic number m × 2^e. -/
structure Dy where
  m : Int
  e : Int
  deriving DecidableEq, Repr

/-- The exact sum. -/
def Dy.add (a b : Dy) : Dy :=
  if a.e ≤ b.e then ⟨a.m + b.m * 2 ^ (b.e - a.e).toNat, a.e⟩ else ⟨a.m * 2 ^ (a.e - b.e).toNat + b.m, b.e⟩

/-- The exact product. -/
def Dy.mul (a b : Dy) : Dy := ⟨a.m * b.m, a.e + b.e⟩

/-- a ≤ b. -/
def Dy.le (a b : Dy) : Bool := decide ((a.add ⟨-b.m, b.e⟩).m ≤ 0)

/-- a < b. -/
def Dy.lt (a b : Dy) : Bool := decide ((a.add ⟨-b.m, b.e⟩).m < 0)

/-- The largest integer not above an exact dyadic number. -/
def Dy.floor (a : Dy) : Int := if a.e ≥ 0 then a.m * 2 ^ a.e.toNat else Int.fdiv a.m (2 ^ (-a.e).toNat)

/-- The value of a signed encoding whose sign stands at bit s. -/
def Fmt.val (f : Fmt) (s w : Nat) : Dy :=
  let d := f.dec (w % 2 ^ s)
  ⟨if bitAt w s then -(d.1 : Int) else d.1, d.2⟩

/-! ### FP32 (R84) -/

/-- NaN test. -/
def isNaN (w : Nat) : Bool := decide (0x7F800000 < w % 2 ^ 31)
/-- Infinity test. -/
def isInf (w : Nat) : Bool := w % 2 ^ 31 == 0x7F800000
/-- Zero of either sign. -/
def isZero (w : Nat) : Bool := w % 2 ^ 31 == 0
/-- The NaN that arithmetic produces (R84). -/
def qNaN : Nat := 0x7FC00000
/-- An infinity of a sign. -/
def infOf (neg : Bool) : Nat := 0x7F800000 + putb neg 31
/-- A zero of a sign. -/
def zeroOf (neg : Bool) : Nat := putb neg 31

/-- The value of a finite FP32 encoding. -/
def f32Val (w : Nat) : Dy := fp32.val 31 w

/-- An exact value to FP32 by RNE, overflowing to infinity; an exact zero gives a zero of the given sign. -/
def f32Of (v : Dy) (zneg : Bool) : Nat :=
  if v.m = 0 then zeroOf zneg else
  let r := fp32.round .rne v.m.natAbs 1 v.e
  if r.2 then infOf (v.m < 0) else r.1 + putb (decide (v.m < 0)) 31

/-- An exact value to FP32 by RNE, overflowing to the largest finite magnitude (R73), with the saturation flag. -/
def f32Sat (v : Dy) : Nat × Bool :=
  if v.m = 0 then (0, false) else
  let r := fp32.round .rne v.m.natAbs 1 v.e
  (r.1 + putb (decide (v.m < 0)) 31, r.2)

/-- FP32 addition by RNE (R84). -/
def fAdd (a b : Nat) : Nat :=
  if isNaN a || isNaN b then qNaN
  else if isInf a then (if isInf b && bitAt a 31 != bitAt b 31 then qNaN else a)
  else if isInf b then b
  else f32Of ((f32Val a).add (f32Val b)) (isZero a && isZero b && bitAt a 31 && bitAt b 31)

/-- FP32 negation of a number that is not a NaN. -/
def fNeg (a : Nat) : Nat := if bitAt a 31 then a - 2 ^ 31 else a + 2 ^ 31

/-- FP32 subtraction: a + (−b). -/
def fSub (a b : Nat) : Nat := if isNaN b then qNaN else fAdd a (fNeg b)

/-- FP32 multiplication by RNE (R84). -/
def fMul (a b : Nat) : Nat :=
  let neg := bitAt a 31 != bitAt b 31
  if isNaN a || isNaN b then qNaN
  else if isInf a || isInf b then (if isZero a || isZero b then qNaN else infOf neg)
  else f32Of ((f32Val a).mul (f32Val b)) neg

/-- Fused multiply-add with one rounding (R84). -/
def fFma (a b c : Nat) : Nat :=
  let pneg := bitAt a 31 != bitAt b 31
  if isNaN a || isNaN b || isNaN c then qNaN
  else if isInf a || isInf b then
    if isZero a || isZero b then qNaN
    else if isInf c && bitAt c 31 != pneg then qNaN else infOf pneg
  else if isInf c then c
  else
    let pr := (f32Val a).mul (f32Val b)
    f32Of (pr.add (f32Val c)) (pr.m = 0 && isZero c && pneg && bitAt c 31)

/-- A quotient magnitude to FP32 by RNE. -/
def f32Quot (neg : Bool) (n d : Nat) (e : Int) : Nat :=
  let r := fp32.round .rne n d e
  if r.2 then infOf neg else r.1 + putb neg 31

/-- Correctly rounded division (R84). -/
def fDiv (a b : Nat) : Nat :=
  let neg := bitAt a 31 != bitAt b 31
  if isNaN a || isNaN b then qNaN
  else if isInf a then (if isInf b then qNaN else infOf neg)
  else if isInf b then zeroOf neg
  else if isZero b then (if isZero a then qNaN else infOf neg)
  else if isZero a then zeroOf neg
  else
    let x := f32Val a
    let y := f32Val b
    f32Quot neg x.m.natAbs y.m.natAbs (x.e - y.e)

/-- Correctly rounded reciprocal (R84). -/
def fRcp (a : Nat) : Nat := fDiv 0x3F800000 a

/-- floor of the square root, bit by bit from bit n. -/
def isqrtFrom : Nat → Nat → Nat → Nat
  | 0, acc, v => if (acc + 1) * (acc + 1) ≤ v then acc + 1 else acc
  | n + 1, acc, v => isqrtFrom n (if (acc + 2 ^ (n + 1)) * (acc + 2 ^ (n + 1)) ≤ v then acc + 2 ^ (n + 1) else acc) v

/-- Correctly rounded reciprocal square root (R84); a negative number gives the arithmetic NaN, a zero the infinity of its sign. -/
def fRsq (a : Nat) : Nat :=
  if isNaN a then qNaN
  else if isZero a then infOf (bitAt a 31)
  else if bitAt a 31 then qNaN
  else if isInf a then 0
  else
    let d := fp32.dec a
    let m := if d.2 % 2 = 0 then d.1 else 2 * d.1
    let e := if d.2 % 2 = 0 then d.2 else d.2 - 1
    let s := isqrtFrom 63 0 (2 ^ 120 / m)
    let n := if s * s * m = 2 ^ 120 then 2 * s else 2 * s + 1
    f32Quot false n 1 (-61 - e / 2)

/-- The mapped key of R87: bits XOR 0xFFFF_FFFF below zero, XOR 0x8000_0000 otherwise. -/
def fKey (w : Nat) : Nat := if bitAt w 31 then 0xFFFFFFFF - w % 2 ^ 32 else w % 2 ^ 32 + 2 ^ 31

/-- The smaller by the order of R87, its bits unchanged (R84). -/
def fMin (a b : Nat) : Nat := if fKey b < fKey a then b else a
/-- The larger by the order of R87, its bits unchanged (R84). -/
def fMax (a b : Nat) : Nat := if fKey a < fKey b then b else a

/-- FP32 to INT32 by RNE, saturating; NaN gives 0 (R84). -/
def fCvtI (a : Nat) : Nat :=
  if isNaN a then 0
  else if isInf a then (if bitAt a 31 then 0x80000000 else 0x7FFFFFFF)
  else
    let d := fp32.dec (a % 2 ^ 31)
    let q : Nat := if d.2 ≥ 0 then d.1 * 2 ^ (min d.2.toNat 40)
      else
        let den := 2 ^ (-d.2).toNat
        let t := d.1 / den
        if roundUp .rne t (d.1 % den) den then t + 1 else t
    if bitAt a 31 then (if q ≥ 2 ^ 31 then 0x80000000 else (2 ^ 32 - q) % 2 ^ 32) else min q 0x7FFFFFFF

/-- INT32 to FP32 by RNE (R84). -/
def fCvtF (a : Nat) : Nat := f32Of ⟨sx 32 a, 0⟩ false

/-- The FP32 value nearest to 2^(i/64) (R85): the t with (2t − 1)^64 ≤ 2^(i + 64·24) < (2t + 1)^64, found bit by bit. -/
def expTable (i : Nat) : Nat :=
  let go (acc k : Nat) := if (2 * (acc + k) - 1) ^ 64 ≤ 2 ^ (i + 64 * 24) then acc + k else acc
  let t := ((List.range 23).map fun j => 2 ^ (22 - j)).foldl go (2 ^ 23)
  0x3F800000 + (t - 2 ^ 23)

/-- c1, c2 and c3 of R85: the FP32 values nearest to ln 2, (ln 2)²/2 and (ln 2)³/6. -/
def expC1 : Nat := 0x3F317218
def expC2 : Nat := 0x3E75FDF0
def expC3 : Nat := 0x3D635847

/-- One step of VEXP2's polynomial (R85): q · r + c with r exact, one RNE rounding. -/
def expFma (q : Nat) (r : Dy) (c : Nat) : Nat := f32Of (((f32Val q).mul r).add (f32Val c)) false

/-- VEXP2 of one lane (R85). -/
def fExp2 (x : Nat) : Nat :=
  if isNaN x then qNaN
  else if isInf x then (if bitAt x 31 then 0 else 0x7F800000)
  else
    let v := f32Val x
    if Dy.le ⟨128, 0⟩ v then 0x7F800000
    else if Dy.lt v ⟨-150, 0⟩ then 0
    else
      let n := v.floor
      let f := v.add ⟨-n, 0⟩
      let i := (Dy.floor ⟨f.m, f.e + 6⟩).toNat
      let r := f.add ⟨-(i : Int), -6⟩
      let q := expFma expC3 r expC2
      let q := expFma q r expC1
      let q := expFma q r 0x3F800000
      let y := f32Val (fMul (expTable i) q)
      let z : Dy := ⟨y.m, y.e + n⟩
      if Dy.lt z ⟨1, -126⟩ then 0 else f32Of z false

/-- The reduction tree of R96 over values in order, one level (fuel bounds the pairs). -/
def treeLevel {α : Type} (op : α → α → α) : List α → List α
  | a :: b :: t => op a b :: treeLevel op t
  | l => l

/-- The reduction tree of R96; d stands for the empty list. -/
def tree {α : Type} (op : α → α → α) (d : α) (l : List α) : α :=
  ((List.range 25).foldl (fun l _ => if l.length ≤ 1 then l else treeLevel op l) l).headD d

/-! ### Engine arithmetic (R71 to R73): finite numbers, saturating -/

/-- FP32 addition in an engine: RNE, +0 from +0 and −0, saturating at the largest finite magnitude (R72, R73). -/
def eAdd (a b : Nat) : Nat × Bool :=
  let v := (f32Val a).add (f32Val b)
  if v.m = 0 then (zeroOf (isZero a && isZero b && bitAt a 31 && bitAt b 31), false) else f32Sat v

/-- The product of two X16 values scaled by 2^o, rounded to FP32 (R71, R72): +0 when either is zero. -/
def eProd (a b : Nat) (o : Int) : Nat × Bool :=
  let x := x16.dec (a % 2 ^ 15)
  let y := x16.dec (b % 2 ^ 15)
  if x.1 = 0 ∨ y.1 = 0 then (0, false) else
  let r := fp32.round .rne (x.1 * y.1) 1 (x.2 + y.2 + o)
  (r.1 + putb (bitAt a 15 != bitAt b 15) 31, r.2)

end Sys2Proof.Machine
end

