-- ==== Sys2Proof/Machine/Formats.lean ====
section
/-! DEFINITION. Codes, groups, expansion and conversion (R104 to R127), as functions of bytes and numbers. -/

namespace Sys2Proof.Machine

/-! ### Codes (R106 to R109) -/

/-- Bits of one element of a code (R106). -/
def codeBits (c : Nat) : Nat :=
  match c with
  | 1 => 4 | 2 => 6 | 3 => 8 | 4 => 4 | 5 => 8 | 6 => 8 | 7 => 8 | _ => 16

/-- The escape code of a code (R106, R108). -/
def escCode (c : Nat) : Nat :=
  match c with
  | 1 => 0x8 | 2 => 0x20 | 3 => 0x80 | 4 => 0 | 5 => 0 | _ => 0xFF

/-- Element e of a packed run of elements of the given width (R109). -/
def elemAt (bits : Nat) (bs : List Byte) (e : Nat) : Nat :=
  leNat ((bs.drop (e * bits / 8)).take 3) / 2 ^ (e * bits % 8) % 2 ^ bits

/-- Elements packed little-endian by bit (R109). -/
def packElems (bits : Nat) (es : List Nat) : List Byte :=
  leBytes (cdiv (bits * es.length) 8) (es.foldr (fun e acc => e % 2 ^ bits + 2 ^ bits * acc) 0)

/-- The decoded value of a code before scale and zero point (R106, R107). -/
def codeVal (c raw : Nat) : Dy :=
  match c with
  | 1 => ⟨sx 4 raw, 0⟩ | 2 => ⟨sx 6 raw, 0⟩ | 3 => ⟨sx 8 raw, 0⟩
  | 4 => ⟨raw, 0⟩ | 5 => ⟨raw, 0⟩
  | 6 => e4m3.val 7 raw
  | _ => e5m2.val 7 raw

/-- An E4M3 or E5M2 code that decodes to −0 (R107). -/
def isNegZero (c raw : Nat) : Bool := decide (6 ≤ c) && raw == 0x80

/-- The zero point of a scale word under its code (R106): none where the code does not allow it. -/
def zeroPoint (c zp : Nat) : Option Int :=
  match c with
  | 1 => let z := sx 8 zp; if -8 ≤ z ∧ z ≤ 7 then some z else none
  | 3 => some (sx 8 zp)
  | 4 => if zp ≤ 15 then some zp else none
  | 5 => some zp
  | _ => if zp = 0 then some 0 else none

/-! ### Groups (R110 to R112) -/

/-- Group sizes (R113, R122): 32, 64, 128. -/
def groupSize (f : Nat) : Option Nat :=
  match f with
  | 0 => some 32 | 1 => some 64 | 2 => some 128 | _ => none

/-- The forms of a scale word (R112). -/
inductive Group where
  | plain (scale : Nat) (zp : Int)
  | escaped (scale : Nat) (zp : Int) (entries : List (Nat × Nat))
  | const (v : Nat)
  | zero
  deriving DecidableEq, Repr

/-- A BF16 scale that is positive, finite and not 0 (R112). -/
def goodScale (s : Nat) : Bool := decide (0 < s ∧ s ≤ 0x7F7F)

/-- Welt entries 0 to n − 1 of a slot: INDEX and VALUE (R111). -/
def weltEntries (slot : List Byte) (n : Nat) : List (Nat × Nat) :=
  (List.range n).map fun i => (wordAt slot (2 * i) % 2 ^ 16, wordAt slot (2 * i + 1))

/-- Keys in strictly ascending order. -/
def ascending : List Nat → Bool
  | a :: b :: t => decide (a < b) && ascending (b :: t)
  | _ => true

/-- A finite FP32 encoding. -/
def isFinite (w : Nat) : Bool := !isNaN w && !isInf w

/-- The form of a group from its scale word, welt slot and raw codes; none for a form R112 does not accept. -/
def parseGroup (c g word : Nat) (slot : List Byte) (raw : List Nat) : Option Group :=
  let count := fld word 28 4
  let flags := fld word 24 4
  match zeroPoint c (fld word 16 8) with
  | none => if flags = 1 ∧ count = 1 then constOf else if flags = 2 ∧ count = 0 then some .zero else none
  | some zp =>
    if flags = 0 ∧ count = 0 then (if goodScale (fld word 0 16) then some (.plain (fld word 0 16) zp) else none)
    else if flags = 1 ∧ count = 1 then constOf
    else if flags = 2 ∧ count = 0 then some .zero
    else if flags = 4 ∧ 1 ≤ count ∧ count ≤ 4 ∧ goodScale (fld word 0 16) = true then
      let es := weltEntries slot count
      let holders := (List.range raw.length).filter fun k => raw.getD k 0 == escCode c
      if ascending (es.map (·.1)) && es.map (·.1) == holders && es.all (fun e => decide (e.1 < g) && isFinite e.2)
      then some (.escaped (fld word 0 16) zp es) else none
    else none
where
  constOf : Option Group :=
    match weltEntries slot 1 with
    | [(0, v)] => if isFinite v && !isZero v then some (.const v) else none
    | _ => none

/-- floor(log2(SCALE)) of a Plain or Escaped group (R114). -/
def Group.log2 : Group → Option Int
  | .plain s _ => let d := bf16.dec s; some (floorLog2 d.1 1 + d.2)
  | .escaped s _ _ => let d := bf16.dec s; some (floorLog2 d.1 1 + d.2)
  | _ => none

/-- W of R114. -/
def widthW (c : Nat) : Int := if c = 6 then 9 else if c = 7 then 17 else 8

/-- The exponent offset the device derives for a tile of a coded stream (R114). -/
def tileOffset (c : Nat) (gs : List Group) : Int :=
  match gs.filterMap Group.log2 with
  | [] => 0
  | e :: es => max (-128) (min 127 (es.foldl max e + widthW c - 31))

/-! ### Expansion (R113 to R117) -/

/-- One operand element at the cells: its X16 value, and its welt value when it is escaped or constant (R115). -/
structure XOp where
  x : Nat
  welt : Option Nat := none
  deriving DecidableEq, Repr

/-- The exact value of an element of a Plain or Escaped group (R114). -/
def decodeElem (c raw scale : Nat) (zp : Int) : Dy :=
  let v := (codeVal c raw).add ⟨-zp, 0⟩
  let s := bf16.dec scale
  ⟨v.m * s.1, v.e + s.2⟩

/-- A real value rounded to X16 (R105), with the saturation flag. -/
def toX16 (mode : RMode) (u : Dy) : Nat × Bool :=
  let r := x16.round mode u.m.natAbs 1 u.e
  (r.1 + putb (decide (u.m < 0)) 15, r.2)

/-- One coded element expanded (R114, R115): position in its group, raw code, offset of its tile. -/
def expandElem (c : Nat) (g : Group) (pos raw : Nat) (o : Int) (mode : RMode) : XOp × Bool :=
  match g with
  | .zero => (⟨0, none⟩, false)
  | .const v => (⟨0, some v⟩, false)
  | .plain s zp => code s zp
  | .escaped s zp es =>
    match es.find? (fun e => e.1 == pos) with
    | some e => (⟨0, some e.2⟩, false)
    | none => code s zp
where
  code (s : Nat) (zp : Int) : XOp × Bool :=
    if isNegZero c raw then (⟨0x8000, none⟩, false)
    else let v := decodeElem c raw s zp; let r := toX16 mode ⟨v.m, v.e - o⟩; (⟨r.1, none⟩, r.2)

/-- A wide operand split into its high and low X16 parts (R116), with the saturation flag. -/
def splitWide (c raw : Nat) (o : Int) : Nat × Nat × Bool :=
  let f := if c = 8 then fp16 else bf16
  let neg := bitAt raw 15
  let mag := raw % 2 ^ 15
  let inf := if c = 8 then 0x7C00 else 0x7F80
  if inf < mag then (0, 0, true) else
  let special := mag == inf
  let d := f.dec (if special then f.maxBits else mag)
  let t := roundRat 10 (-39) (.stoch 0) d.1 1 (d.2 - o)
  let b := x16.enc t.1 t.2
  let top := x16.dec 0x7FFF
  let sat := Dy.lt ⟨top.1, top.2⟩ ⟨d.1, d.2 - o⟩
  let hiBits := if 0x7FFF < b then 0x7FFF else b
  let h := x16.dec hiBits
  let rest := Dy.add ⟨d.1, d.2 - o⟩ ⟨-(h.1 : Int), h.2⟩
  let lo := x16.round .rne rest.m.natAbs 1 rest.e
  (hiBits + putb neg 15, lo.1 + putb (neg && decide (rest.m ≠ 0)) 15, sat || special)

/-- The exact value of an operand at the cells for a correction: its welt value, else its X16 value at its offset (R115). -/
def XOp.exact (a : XOp) (o : Int) : Dy :=
  match a.welt with
  | some w => f32Val w
  | none => let v := x16.val 15 a.x; ⟨v.m, v.e + o⟩

/-! ### Tanner (R120) -/

/-- Rotate a 32-bit word left. -/
def rotl32 (x n : Nat) : Nat := (x * 2 ^ n + x / 2 ^ (32 - n)) % 2 ^ 32

/-- The counter-based random generator of R120. -/
def tanner (seed tensor index : Nat) : Nat :=
  let h := Nat.xor (seed % 2 ^ 32) (tensor * 0x2C1B3C6D % 2 ^ 32)
  let h := (h + rotl32 (index * 0x297A2D39 % 2 ^ 32) 11) % 2 ^ 32
  let h := Nat.xor h (h / 2 ^ 15)
  let h := h * 0x4CF5AD43 % 2 ^ 32
  let h := Nat.xor h (h / 2 ^ 13)
  let h := h * 0x5E2D58D9 % 2 ^ 32
  Nat.xor h (h / 2 ^ 16)

/-- The rounding mode of a draw: RNE, or STOCH with the Tanner draw of the keys (R119, R121). -/
def modeOf (round seed tensor index : Nat) : RMode := if round = 0 then .rne else .stoch (tanner seed tensor index)

/-! ### Conversion (R122 to R127) -/

/-- A quantisation record (R122). -/
structure QRec where
  code : Nat
  g : Nat
  action : Nat
  delayed : Bool
  append : Bool
  wideFmt : Nat
  rescale : Bool
  underLog : Nat
  thresh : Nat
  channels : Nat
  indexBase : Nat
  codeAddr : Nat
  scaleAddr : Nat
  weltAddr : Nat
  prevAddr : Nat
  wideAddr : Nat
  rescaleAddr : Nat
  gaugeAddr : Nat
  deriving DecidableEq, Repr

/-- A quantisation record from its 96 bytes; none when it breaks the table of R122. -/
def parseQRec (bs : List Byte) : Option QRec :=
  let w := wordAt bs 0
  match groupSize (fld w 4 2) with
  | none => none
  | some g =>
    let r : QRec := ⟨fld w 0 4, g, fld w 6 2, bitAt w 8, bitAt w 9, fld w 10 1, bitAt w 11, fld w 12 4, fld w 16 16,
      fld (wordAt bs 1) 0 16, wordAt bs 2, word64At bs 8, word64At bs 10, word64At bs 12, word64At bs 14,
      word64At bs 16, word64At bs 18, word64At bs 20⟩
    if 1 ≤ r.code ∧ r.code ≤ 7 ∧ r.channels % g = 0 ∧ fld (wordAt bs 1) 16 16 = 0 ∧ fld (wordAt bs 3) 1 31 = 0
      ∧ (r.delayed = true → r.prevAddr ≠ 0) ∧ word64At bs 22 = 0 then some r else none

/-- Usable range and regauge divisor of a code under an action (R124): for integer codes QLO, QHI; the divisor of ma. -/
def qLo (c action : Nat) : Int :=
  let esc := action == 1
  match c with
  | 1 => if esc then -7 else -8
  | 2 => if esc then -31 else -32
  | 3 => if esc then -127 else -128
  | 4 => if esc then 1 else 0
  | 5 => if esc then 1 else 0
  | 6 => if esc then -448 else -480
  | _ => if esc then -98304 else -114688

/-- QHI (R124). -/
def qHi (c : Nat) : Int :=
  match c with
  | 1 => 7 | 2 => 31 | 3 => 127 | 4 => 15 | 5 => 255 | 6 => 480 | _ => 114688

/-- The divisor of ma in regauge() for the codes with zp = 0 (R124). -/
def gaugeDiv (c : Nat) : Nat :=
  match c with
  | 1 => 7 | 2 => 31 | 3 => 127 | 6 => 448 | _ => 98304

/-- The smallest positive BF16 value not below n / d × 2^e (R124). -/
def bf16Up (n d : Nat) (e : Int) : Nat :=
  if n = 0 then 1 else
  let e' := max (floorLog2 n d + e - 7) (-133)
  let sh := e' - e
  let n' := if sh ≥ 0 then n else n * 2 ^ (-sh).toNat
  let d' := if sh ≥ 0 then d * 2 ^ sh.toNat else d
  bf16.enc (cdiv n' d') e'

/-- A signed rational as sign, numerator, denominator and exponent: x / s + zp, exact (R124). -/
def quotOf (x scale : Nat) (zp : Int) : Int × Nat × Int :=
  let v := f32Val x
  let s := bf16.dec scale
  let e := v.e - s.2
  if e ≥ 0 then (v.m * 2 ^ e.toNat + zp * s.1, s.1, 0)
  else (v.m + zp * s.1 * 2 ^ (-e).toNat, s.1, e)

/-- An element encoded: the raw code it would take, and whether it lies outside [QLO, QHI] (R124, R125). A quotient of E4M3 or E5M2 beyond the
largest value is rounded with the format's step and an unbounded exponent before the test: 490 gives 480, not over; 500 gives 512, over (DESIGN
CHOICE, log entry 76). -/
def encodeElem (c action scale : Nat) (zp : Int) (mode : RMode) (x : Nat) : Nat × Bool :=
  let q := quotOf x scale zp
  let neg := decide (q.1 < 0)
  if c ≤ 5 then
    let d := if q.2.2 < 0 then q.2.1 * 2 ^ (-q.2.2).toNat else q.2.1
    let t := q.1.natAbs / d
    let m := if roundUp mode t (q.1.natAbs % d) d then t + 1 else t
    let v : Int := if neg then -(m : Int) else m
    if v < qLo c action then (Int.toNat (qLo c action % 2 ^ codeBits c), true)
    else if qHi c < v then ((qHi c).toNat, true)
    else (Int.toNat (v % (2 ^ codeBits c : Nat)), false)
  else
    let f := if c = 6 then e4m3 else e5m2
    let r := roundRat f.p f.emin mode q.1.natAbs q.2.1 q.2.2
    let b := f.enc r.1 r.2
    let lim := if neg && action == 1 then 0x7E else 0x7F
    if lim < b then (lim + putb neg 7, true)
    else (if b = 0 then 0 else b + putb neg 7, false)

/-- regauge() of R124 from the gauge of a group: scale and zero point. -/
def regauge (c action mn mx ma : Nat) : Nat × Int :=
  if c = 4 ∨ c = 5 then
    let lo := if bitAt mn 31 then f32Val mn else ⟨0, 0⟩
    let hi := if bitAt mx 31 then ⟨0, 0⟩ else f32Val mx
    let w := hi.add ⟨-lo.m, lo.e⟩
    let s := bf16Up w.m.natAbs (qHi c - qLo c action - 1).toNat w.e
    let sd := bf16.dec s
    let e := lo.e - sd.2
    let k := if e ≥ 0 then cdiv (lo.m.natAbs * 2 ^ e.toNat) sd.1 else cdiv lo.m.natAbs (sd.1 * 2 ^ (-e).toNat)
    (s, qLo c action + k)
  else
    let d := fp32.dec (ma % 2 ^ 31)
    (bf16Up d.1 (gaugeDiv c) d.2, 0)

/-- An element of a group in conversion: position, FP32 value, Tanner index, and whether it was written before (R126) and escaped. -/
structure El where
  pos : Nat
  x : Nat
  idx : Nat
  old : Bool := false
  oldEsc : Bool := false
  deriving DecidableEq, Repr

/-- What one converted group writes (R123 to R127). -/
structure GroupOut where
  word : Nat
  /-- Position and raw code of each element; empty for ZERO and CONST groups. -/
  codes : List (Nat × Nat)
  welts : List (Nat × Nat)
  mn : Nat := 0
  mx : Nat := 0
  ma : Nat := 0
  sat : Nat := 0
  escOv : Nat := 0
  clipped : Nat := 0
  isOv : Bool := false
  isUn : Bool := false
  regauged : Bool := false
  deriving DecidableEq, Repr

/-- NaN and infinity substitution of R123: the value, and whether it was a NaN or saturated. -/
def substX (x : Nat) : Nat × Bool × Bool :=
  if isNaN x then (0, true, true) else if isInf x then (0x7F7FFFFF + putb (bitAt x 31) 31, false, true) else (x, false, false)

/-- The zero point byte of a scale word. -/
def zpByte (z : Int) : Nat := (z % 256).toNat

/-- One group converted (R123 to R126): the record, the stored scale word and its form when DELAYED, the rounding, the elements. OVER and UNDER of
the gauge record of a regauged group stand for the scale the test of R123 used, the stored one where there is one (DESIGN CHOICE, log entry 76). -/
def convertGroup (r : QRec) (stored : Option Group) (round seed tensor : Nat) (els : List El) : GroupOut :=
  match els with
  | [] => { word := 0x02000000, codes := [], welts := [] }
  | e0 :: _ =>
    let mn := els.foldl (fun a e => fMin a e.x) e0.x
    let mx := els.foldl (fun a e => fMax a e.x) e0.x
    let ma := els.foldl (fun a e => if a < e.x % 2 ^ 31 then e.x % 2 ^ 31 else a) 0
    let base : GroupOut := { word := 0, codes := [], welts := [], mn := mn, mx := mx, ma := ma }
    if mn = mx ∨ (isZero mn && isZero mx) = true then
      if isZero mx then { base with word := 0x02000000 } else { base with word := 0x11000000, welts := [(0, mx)] }
    else
      let md := fun (e : El) => modeOf round seed tensor e.idx
      let fresh := regauge r.code r.action mn mx ma
      let start : Option (Nat × Int) :=
        match stored with
        | some (.plain s z) => some (s, z)
        | some (.escaped s z _) => some (s, z)
        | _ => none
      let useFresh := !r.delayed || start.isNone
      let sz := if useFresh then fresh else start.getD fresh
      let isOver := fun (sz : Nat × Int) (kept : Bool) =>
        els.filter fun e => (kept && e.oldEsc) || (encodeElem r.code r.action sz.1 sz.2 (md e) e.x).2
      let ovr := r.delayed && !(isOver sz true).isEmpty
      let m := fp32.dec ma
      let s := bf16.dec sz.1
      let und := r.underLog != 0 &&
        Dy.lt ⟨m.1 * 2 ^ r.underLog, m.2⟩ ⟨qHi r.code * s.1, s.2⟩
      let re := r.delayed && (start.isNone || (r.action == 2 && (ovr || und)))
      let sz := if re then fresh else sz
      let ovs := isOver sz (!re && !useFresh)
      let esc := if r.action = 1 then
          ((ovs.filter (fun e => e.oldEsc && !re && !useFresh)) ++ (ovs.filter (fun e => !e.oldEsc || re || useFresh)).mergeSort
            (fun a b => decide (b.x % 2 ^ 31 < a.x % 2 ^ 31) || (decide (a.x % 2 ^ 31 = b.x % 2 ^ 31) && decide (a.pos ≤ b.pos)))).take 4
        else []
      let clip := ovs.filter fun e => !(esc.any (fun k => k.pos == e.pos))
      let newClip := (clip.filter (fun e => !e.old)).length
      let welts := (esc.mergeSort (fun a b => decide (a.pos ≤ b.pos))).map fun e => (e.pos, e.x)
      { base with
        word := sz.1 + zpByte sz.2 * 2 ^ 16 + (if welts.isEmpty then 0 else 2 ^ 26) + welts.length * 2 ^ 28
        codes := els.map fun e => (e.pos, if esc.any (fun k => k.pos == e.pos) then escCode r.code
          else (encodeElem r.code r.action sz.1 sz.2 (md e) e.x).1)
        welts := welts
        sat := if r.action = 1 then 0 else newClip
        escOv := if r.action = 1 then newClip else 0
        clipped := newClip, isOv := ovr, isUn := und, regauged := re }

/-- A value in the wide format of a record by RNE, saturating (R123): 0 BF16, 1 FP16, with the saturation flag. -/
def wideOf (fmt x : Nat) : Nat × Bool :=
  let d := fp32.dec (x % 2 ^ 31)
  let f := if fmt = 0 then bf16 else fp16
  let r := f.round .rne d.1 1 d.2
  (r.1 + putb (bitAt x 31) 15, r.2)

end Sys2Proof.Machine
end

