-- ==== Sys2Proof/Machine/Work.lean ====
section
/-! DEFINITION. Jobs, packets, Brands, task groups and slivers: how work ends and what follows (R95, R130, R131, R300 to R307,
R414 to R421). -/

namespace Sys2Proof.Machine

/-! ### Packet fields (R296) -/

def Pkt.word (p : Pkt) (n : Nat) : Nat := p.words.getD n 0
def Pkt.type (p : Pkt) : Nat := fld (p.word 0) 0 4
def Pkt.job (p : Pkt) : Nat := fld (p.word 0) 4 12
def Pkt.last (p : Pkt) : Bool := bitAt (p.word 0) 16
def Pkt.irq (p : Pkt) : Bool := bitAt (p.word 0) 17

/-- The job is live: not FREE, DONE or FAILED (R300). -/
def Job.alive (j : Job) : Bool := decide (1 ≤ j.st ∧ j.st ≤ 5)

/-! ### Cancelling (R303) -/

/-- The job enters CANCELLING with the status the cancel adds; its work stops at tile boundaries and JOB_CANCEL_END finishes it. -/
def Sys.beginCancel (j st : Nat) (y : Sys) : Sys :=
  let b := y.job j
  if 1 ≤ b.st ∧ b.st ≤ 4 then y.modJob j fun b => { b with st := 5, cancelWith := st, resumeHeld := false }
  else if b.st = 5 then y.modJob j fun b => { b with cancelWith := statusJoin b.cancelWith st }
  else y

/-! ### The holding limit (R284) -/

/-- Job of a semaphore's holder. -/
def Sys.holderJob (y : Sys) : SemHolder → Nat
  | .sliver t _ => (y.tg t).job
  | .group t => (y.tg t).job
  | .job j => j

/-- The timer of a holder runs: a waiter of smaller base priority than the holder's own waits on what it holds (R284). -/
def Sys.holdTimed (y : Sys) (n : Nat) (h : SemHold) : Bool :=
  (y.sem n).waits.any fun w => decide (y.basePrio (y.holderCtx w.who) < y.basePrio (y.holderCtx h.who))

/-- A holder has held past the limit: its job is cancelled with 0x50 and its tokens return. -/
def Sys.holdOver (h : SemHolder) (y : Sys) : Sys :=
  let y := (y.beginCancel (y.holderJob h) 0x50).semReturnAll h
  (y.modBridle fun b => { b with holdCancels := satInc b.holdCancels }).bridleEvent 0

/-- With a limit of 0 the first qualifying wait cancels (R293). -/
def Sys.limitZero (n : Nat) (y : Sys) : Sys :=
  if y.bridle.holdLimit ≠ 0 then y
  else (((y.sem n).holds.filter (y.holdTimed n)).map (·.who)).eraseDups.foldl (fun y h => y.holdOver h) y

/-! ### Completion records (R305) -/

/-- The sixteen words of a job's completion record in a state, with the status. -/
def Job.record (b : Job) (j st status : Nat) : List Nat :=
  let brand := if b.brand && publishes status && st == 6 then (List.range 8).map (wordAt b.brandValue) else List.replicate 8 0
  [put status 0 8 + put st 8 4 + put j 12 12 + put b.ctx 24 6, put b.opens 0 20, b.packets % 2 ^ 32,
   if status = 0 ∨ status = 2 then 0 else b.group % 2 ^ 32, b.reruns % 2 ^ 32, b.reexec % 2 ^ 32, 0, 0] ++ brand

/-- The record is written at JOB_COMPL_ADDR, then the job's vector is raised when enabled. The TANDEM worker writes none (R391); a
context in Calm writes nothing to host memory (hostWrite). -/
def Sys.writeRecord (j st status : Nat) (y : Sys) : Sys :=
  let b := y.job j
  if y.glob.config = 2 ∧ y.duo.role = 1 ∧ y.duo.alone = false then y else
  let y := (y.vwrite none b.ctx b.complAddr (wordsBytes (b.record j st status)) none).1
  if b.irqDone then y.raise (y.moduleOf b.ctx) b.vector else y

/-! ### Brands (R414 to R421) -/

/-- The Brand state of a job. -/
def Sys.brandOf (y : Sys) (j : Nat) : BrandSt := tget {} y.sec.brands j

def Sys.modBrand (y : Sys) (j : Nat) (f : BrandSt → BrandSt) : Sys := y.modSec fun c => { c with brands := tmod {} c.brands j f }

/-- Indices of the regions of some kinds, in manifest order. -/
def BrandSt.regions (b : BrandSt) (k : Nat → Bool) : List Nat :=
  (List.range b.entries.length).filter fun i => match b.entries[i]? with | some e => k e.kind | none => false

/-- The 144-byte preimage of R419. -/
def Sys.brandPreimage (y : Sys) (j status : Nat) : List Byte :=
  let b := y.brandOf j
  let job := y.job j
  let exact := job.exact || y.glob.config == 2
  let dig := fun i => tget [] b.starts i
  let hash := Shake.shake256 32
  leBytes 4 0x444E5242 ++ leBytes 4 (1 + putb exact 16) ++ leBytes 4 (status % 256) ++
  leBytes 4 (put (b.regions (· == 3)).length 0 8 + put (b.regions (· != 3)).length 8 8) ++
  job.digest ++
  hash (leBytes 32 b.sum ++ (b.regions fun k => k == 0 || k == 1).flatMap dig) ++
  hash b.models.flatten ++
  hash ((b.regions (· == 2)).flatMap dig)

/-- The Brand of a job (R419). -/
def Sys.brand (y : Sys) (j status : Nat) : List Byte := Shake.shake256 32 (y.brandPreimage j status)

/-- A Brand that cannot be formed: counted, raised, logged; the job ends with the status (R420, R430). -/
def Sys.brandFail (j st : Nat) (y : Sys) : Sys :=
  let y := y.modSec fun c => { c with brandFails := satInc c.brandFails }
  let y := y.secEvent 2
  let y := y.logFault { cls := 0x0C, action := 0x04, status := st, block := 0x0C, ctx := some (y.job j).ctx, job := some j }
  y.beginCancel j st

/-- Start checks of a manifest: its entries, or the status of R420. -/
def Sys.readManifest (y : Sys) (j : Nat) : Sys × Except Nat (List MEntry) :=
  let a := (y.job j).manifest
  let d := (y.ctx (y.job j).ctx).domain
  if a % 64 ≠ 0 then (y, .error 0x10)
  else if !y.mem.inDom d a 16 then (y, .error 0x60)
  else
    let r := y.mem.load .work a 272
    let y := { y with mem := r.1 }
    let bs := r.2
    let n := fld (wordAt bs 0) 0 5
    let es := (List.range n).map fun i =>
      ({ addr := word64At bs (4 + 4 * i), len := wordAt bs (6 + 4 * i), kind := wordAt bs (7 + 4 * i) } : MEntry)
    let malformed := decide (16 < n) || fld (wordAt bs 0) 5 27 != 0 || !allZero ((bs.drop 4).take 12) ||
      es.any fun e => decide (3 < e.kind) || (if e.kind = 3 then e.len != 0 || decide (15 < e.addr) else e.len == 0)
    let outside := !y.mem.inDom d a (16 + 16 * n) ||
      es.any fun e => if e.kind = 3 then (tget {} y.sec.models e.addr).st != 2 else !y.mem.inDom d e.addr e.len
    if malformed then (y, .error 0x10) else if outside then (y, .error 0x60) else (y, .ok es)

/-- Free hash engines take the oldest waiting requests (R421). -/
def Sec.fill (c : Sec) : Sec :=
  let c := match c.eng0, c.hashes with
    | none, h :: t => { c with eng0 := some h, hashes := t }
    | _, _ => c
  match c.eng1, c.hashes with
  | none, h :: t => { c with eng1 := some h, hashes := t }
  | _, _ => c

/-- Hash requests join the queue. -/
def Sec.ask (hs : List HashReq) (c : Sec) : Sec := { c with hashes := c.hashes ++ hs }.fill

/-- Hash requests that satisfy a test are dropped. -/
def Sec.drop (p : HashReq → Bool) (c : Sec) : Sec :=
  { c with hashes := c.hashes.filter fun h => !p h, eng0 := c.eng0.filter fun h => !p h, eng1 := c.eng1.filter fun h => !p h }.fill

/-- A request of a job's region digests. -/
def HashReq.ofJob (j : Nat) : HashReq → Bool
  | .region k _ _ => k == j
  | .seal _ => false

/-- The hash requests of all regions of a job join the queue (R421). -/
def Sys.queueHashes (j : Nat) (atEnd : Bool) (y : Sys) : Sys :=
  let b := y.brandOf j
  y.modSec fun c => c.ask ((b.regions (· != 3)).map fun i => HashReq.region j i atEnd)

/-- The job enters RUNNING at its first start; the effective Pattern digest is latched (R38, R300). -/
def Sys.enterRunning (j : Nat) (y : Sys) : Sys :=
  let d := y.glob.patternDigest
  y.modJob j fun b => { b with st := 2, started := true, digest := if b.started then b.digest else d }

/-! ### The end of a job (R301, R303) -/

/-- Fetched packets of a job lie in task slots. -/
def Sys.hasPackets (y : Sys) (j : Nat) : Bool := y.bridle.queues.any fun q => q.2.slots.any fun p => p.job == j

/-- Its task groups' digests still wait for the worker's (R393). -/
def Sys.unmatched (y : Sys) (j : Nat) : Bool := y.duo.waiting.any fun w => w.2.1 == j

/-- The job reaches DONE or FAILED: tokens return, the record is written (R305, R307). -/
def Sys.finishJob (j st status : Nat) (y : Sys) : Sys :=
  let y := y.semReturnAll (.job j)
  let y := y.modJob j fun b => { b with st := st, status := status }
  let y := y.modSec (Sec.drop (HashReq.ofJob j))
  y.writeRecord j st status

/-- DONE with its Brand; UNMIRRORED when a TANDEM job completes without comparison (R398). -/
def Sys.jobDone (j : Nat) (y : Sys) : Sys :=
  let status := (y.job j).status
  let v := y.brand j status
  let y := y.modJob j fun b => { b with brandValue := v }
  let y := y.finishJob j 6 status
  if y.glob.config = 2 ∧ (y.duo.alone = true ∨ y.duo.unmirrored.contains j = true) then y.duoEvent 7 else y

/-- R301: a job whose LAST packet and all fetched packets have completed with a publishing status becomes DONE, after its end digests
(R416). -/
def Sys.tryDone (j : Nat) (y : Sys) : Sys :=
  let b := y.job j
  if b.st = 2 ∧ b.lastDone = true ∧ y.hasPackets j = false ∧ publishes b.status = true ∧ y.unmatched j = false then
    let br := y.brandOf j
    if br.st = 3 then y
    else if (br.regions (· != 3)).isEmpty ∨ br.st = 4 then y.jobDone j
    else (y.modBrand j fun b => { b with st := 3 }).queueHashes j true
  else y

/-! ### The end of a packet (R296, R301) -/

/-- A beam gate opens (R67). -/
def Sys.openGate (g : Nat) (y : Sys) : Sys := y.modBeam fun b => { b with gates := setBit b.gates (g % 16) }

/-- The packet at the head of a queue completes with a status, on behalf of a task group identifier; a GATE_EN
task group opens its gate, whether or not it ran (R298, log entry 28). -/
def Sys.packetComplete (q st grp : Nat) (y : Sys) : Sys :=
  match (y.queue q).slots with
  | [] => y
  | p :: rest =>
    let j := p.job
    let y := y.modQueue q fun k => { k with slots := rest, lastStatus := st, done := (k.done + 1) % 2 ^ 24 }
    let y := y.modPool 3 0 (Pool.give 1)
    let b := y.job j
    let mine := b.alive && b.ctx == (y.queue q).ctx
    let y := if mine then y.modJob j fun b =>
        let s := statusJoin b.status st
        { b with packets := (b.packets + 1) % 2 ^ 32, status := s, lastDone := b.lastDone || p.last,
                 group := if s ≠ b.status ∧ st = s then grp else b.group }
      else y
    let y := if p.type = 1 ∧ p.work.isNone = true then y.chainPacket q (p.word 0) st else y
    let y := if p.type = 1 ∧ bitAt (p.word 0) 22 then y.openGate (fld (p.word 0) 23 4) else y
    let y := if p.irq then y.raise (y.moduleOf (y.queue q).ctx) b.vector else y
    if !mine then y
    else if publishes st then y.tryDone j
    else if 1 ≤ b.st ∧ b.st ≤ 3 then y.beginCancel j 0x01
    else y

/-- Whether the packet at the head of a queue may run now (R301, R302, R315, R416, R420): the packet; else what happens instead. -/
def Sys.takeIn (q : Nat) (y : Sys) : Sys × Option Pkt :=
  let k := y.queue q
  match k.slots with
  | [] => (y, none)
  | p :: _ =>
    let j := p.job
    let b := y.job j
    if p.started ∨ (y.ctx k.ctx).calm = true ∨ y.flt.dieCalm = true ∨ y.duo.hold = true
      ∨ bitAt y.glob.heldDomains (y.ctx k.ctx).domain = true then (y, none)
    else if b.st = 0 ∨ b.st = 6 ∨ b.ctx ≠ k.ctx then (y.packetComplete q 0x10 0, none)
    else if b.st = 7 then (y.packetComplete q 0x01 0, none)
    else if b.st ≠ 1 ∧ b.st ≠ 2 then (y, none)
    else
      let br := y.brandOf j
      if br.st = 0 then
        if b.manifest = 0 then ((y.modBrand j fun b => { b with st := 2 }).enterRunning j, some p)
        else match y.readManifest j with
          | (y, .error st) => (y.brandFail j st, none)
          | (y, .ok es) =>
            let ms := (es.filter (fun e => e.kind == 3)).map fun e => (tget {} y.sec.models e.addr).digest
            let y := y.modBrand j fun b => { b with entries := es, models := ms, st := if es.all (fun e => e.kind == 3) then 2 else 1 }
            if es.all (fun e => e.kind == 3) then (y.enterRunning j, some p) else (y.queueHashes j false, none)
      else if br.st = 1 then (y, none)
      else ((if b.st = 1 then y.enterRunning j else y), some p)

/-- The head packet has started and became the given work. -/
def Sys.startHead (q : Nat) (w : Option Nat) (y : Sys) : Sys :=
  y.modQueue q fun k => { k with slots := match k.slots with | p :: t => { p with started := true, work := w } :: t | [] => [] }

/-! ### Numbered units of a granted pool (R179, R201) -/

/-- Units granted so far. -/
def UnitPool.total (p : UnitPool) : Nat := (p.runs.map (·.2)).sum

/-- Address of unit n, with units of size bytes. -/
def UnitPool.addrIn (size : Nat) : List (Nat × Nat) → Nat → Nat
  | [], _ => 0
  | r :: t, n => if n < r.2 then r.1 + size * n else UnitPool.addrIn size t (n - r.2)

def UnitPool.addr (p : UnitPool) (size n : Nat) : Nat := UnitPool.addrIn size p.runs n

/-- The numbers not in use, ascending. -/
def UnitPool.free (p : UnitPool) : List Nat := (List.range p.total).filter fun n => !p.used.contains n

/-- A grant of n units from an address: numbered on from the total (R179). -/
def UnitPool.grant (p : UnitPool) (a n : Nat) : UnitPool := { p with runs := p.runs ++ [(a, n)] }

/-- n units taken: which of the free ones is open (log entry 3). -/
def UnitPool.take (seed : Nat) : Nat → UnitPool → UnitPool × List Nat
  | 0, p => (p, [])
  | n + 1, p =>
    let fs := p.free
    match fs[Config.freeNat seed % fs.length]? with
    | none => (p, [])
    | some u => let r := UnitPool.take (seed + 1) n { p with used := u :: p.used }; (r.1, u :: r.2)

/-- Units returned. -/
def UnitPool.give (p : UnitPool) (us : List Nat) : UnitPool := { p with used := p.used.filter fun u => !us.contains u }

/-! ### KV pools (R179) -/

def Sys.kvDom (y : Sys) (d : Nat) : KvDom := tget {} y.kv.doms d
def Sys.modKvDom (y : Sys) (d : Nat) (f : KvDom → KvDom) : Sys := y.modKv fun k => { k with doms := tmod {} k.doms d f }

/-- KV event k; the waits of R172 raise the vector of HOSTLINK_KV_IRQ (R335). -/
def Sys.kvEvent (k : Nat) (y : Sys) : Sys :=
  let y := y.modKv fun v => { v with events := setBit v.events k }
  if k ≤ 1 then y.raise 0 (y.link.kvIrq % 256) else y

/-- Frame size. -/
def frameBytes : Nat := 8192

/-- Frames (host = false) or host slots taken for a domain: pool 6 moves with them (R310). -/
def Sys.kvTake (d n : Nat) (host : Bool) (y : Sys) : Sys × List Nat :=
  let k := y.kvDom d
  let r := (if host then k.slots else k.frames).take y.chance n
  let y := (y.modKvDom d fun k => if host then { k with slots := r.1 } else { k with frames := r.1 }).modPool 6 (2 * d + if host then 1 else 0) (Pool.take n)
  (y.modChance (· + n), r.2)

/-- Frames or host slots returned. -/
def Sys.kvGive (d : Nat) (us : List Nat) (host : Bool) (y : Sys) : Sys :=
  (y.modKvDom d fun k => if host then { k with slots := k.slots.give us } else { k with frames := k.frames.give us }).modPool 6
    (2 * d + if host then 1 else 0) (Pool.give us.length)

/-! ### Page pool and the end of a pass (R187, R192) -/

def pageBytes : Nat := 4096

def Sys.passDom (y : Sys) (p : Pass) : Nat := (y.ctx p.ctx).domain

/-- The page wait of a pass ends when enough pages are FREE (R191); a pass that is to park keeps waiting. -/
def Sys.growOver (y : Sys) (p : Pass) : Pass :=
  if p.growing && !p.stopping && decide (p.need ≤ (y.pool 5 (y.passDom p)).free) then { p with growing := false } else p

/-- The same for the ACTIVE pass, after pages have come free. -/
def Sys.growCheck (y : Sys) : Sys := y.modRaster fun r => { r with active := r.active.map y.growOver }

/-- Pages returned. -/
def Sys.pagesGive (d : Nat) (us : List Nat) (y : Sys) : Sys :=
  ((y.modRaster fun r => { r with pools := tmod {} r.pools d (fun p => p.give us) }).modPool 5 d (Pool.give us.length)).growCheck

def Sys.pageAddr (y : Sys) (d n : Nat) : Nat := (tget {} y.raster.pools d).addr pageBytes n

def Sys.setActive (p : Pass) (y : Sys) : Sys := y.modRaster fun r => { r with active := some p }

/-- Permits of the raster stages of a pass return; sample requests that wait for theirs are dropped. -/
def Sys.dropRaster (y : Sys) : Sys :=
  let y := (y.dropHold .rasterFront).unrequest .rasterFront
  let y := (List.range 16).foldl (fun y n => (y.dropHold (.tileOwner n)).unrequest (.tileOwner n)) y
  let y := (y.raster.texHeld.map (·.1)).foldl (fun y n => y.unrequest (.texture n)) y
  y.modRaster fun r => { r with texHeld := [] }

/-- A pass ends with a status: its pages return, its slot is free, its packet completes (R187, R192). active says where it stands. -/
def Sys.passEnd (p : Pass) (isActive : Bool) (st : Nat) (y : Sys) : Sys :=
  let y := (y.modRaster fun r => if isActive then { r with active := none } else { r with parked := none }).modPool 3 2 (Pool.give 1)
  let y := y.pagesGive (y.passDom p) p.pages
  let y := if isActive then y.dropRaster else y
  y.packetComplete p.queue st 0

/-- The task groups of the pass of a queue. -/
def Sys.shaders (y : Sys) (q : Nat) : List Nat := (y.bridle.tgs.filter fun t => t.2.shader.isSome && t.2.queue == q).map (·.1)

/-- An ending pass of a queue ends once none of its task groups stands (R192). -/
def Sys.passQuiet (q : Nat) (y : Sys) : Sys :=
  if !(y.shaders q).isEmpty then y else
  let f := fun (o : Option Pass) => o.filter fun p => p.queue == q && p.ending
  match f y.raster.active, f y.raster.parked with
  | some p, _ => y.passEnd p true (p.fail.getD 0)
  | none, some p => y.passEnd p false (p.fail.getD 0)
  | none, none => y

/-- A task group of a draw completed with a status (R180, R197): after the vertex task group the vertices may be read; a status that does not
publish is the pass's. -/
def Sys.shadedDraw (g : Tg) (draw st : Nat) (y : Sys) : Sys :=
  let y := y.modRaster fun r => r.modPass g.queue fun p =>
    if publishes st then { p with shaded := if g.frag then p.shaded else p.shaded ++ [draw], status := statusJoin p.status st }
    else { p with fail := some (statusJoin (p.fail.getD 0) st) }
  y.passQuiet g.queue

/-- A sliver of a fragment task group ended with a status: its batch is shaded, or the pass ends with the status (R188, R197). -/
def Sys.shotEnd (g : Tg) (n st : Nat) (y : Sys) : Sys :=
  match g.shader with
  | some d =>
    if g.frag && !g.cut then
      y.modRaster fun r => r.modPass g.queue fun p =>
        if publishes st then { p with shots := (d, n) :: p.shots } else { p with fail := some (statusJoin (p.fail.getD 0) st) }
    else y
  | none => y

/-! ### The end of a task group (R95, R130, R131) -/

/-- A record that qualifies for the wide re-run (R130). -/
def Tally.qualifies (t : Tally) : Bool :=
  t.hasWide && (if t.action = 3 then decide (0 < t.sat + t.escOv) else t.thresh != 0xFFFF && decide (t.thresh < t.sat + t.escOv))

/-- The device-written words 3 to 7 of a record (R122, R130, R131). -/
def Sys.writeTally (c : Nat) (tg : Nat) (t : Tally) (y : Sys) : Sys :=
  let ws := [putb t.wide 0, t.sat % 2 ^ 32, t.escOv % 2 ^ 32, t.regauged % 2 ^ 32, t.nans % 2 ^ 32]
  (y.vwrite none c (t.qrec + 12) (wordsBytes ws) (some tg)).1

/-- One staged scatter-add element applied (R91). -/
def Sys.applyStaged (c tg : Nat) (e : Staged) (y : Sys) : Sys :=
  if e.pool then
    y.modStall e.stall fun s =>
      { s with pool := s.pool.write poolGr e.addr (leBytes 4 (fAdd (leNat (s.pool.read poolGr e.addr 4)) e.value.toNat)) }
  else match y.vread (some e.stall) c e.addr 4 with
    | (y, .ok bs) => (y.vwrite (some e.stall) c e.addr (leBytes 4 (fAdd (leNat bs) e.value.toNat)) (some tg)).1
    | (y, .error _) => y

/-- Slivers of a task group that run or lie saved. -/
def Sys.inFlight (y : Sys) (t : Nat) : Nat :=
  (y.cores.filter fun c => (c.2.run.map (·.tg)) == some t).length +
  (y.stalls.map fun s => (s.2.saves.filter fun v => v.run.tg == t).length).sum +
  (y.bridle.areas.map fun a => (a.2.filter fun v => v.run.tg == t).length).sum

/-- Affinity records of a task group whose results are published (R270); the table keeps the newest 32,768. -/
def Sys.recordAffinity (g : Tg) (y : Sys) : Sys :=
  if g.aff = 0 then y else
  let new := g.places.map fun p => ({ tag := g.aff, sliver := p.1, core := p.2.1, coreEpoch := p.2.2.1, stallEpoch := p.2.2.2 } : Aff)
  y.modBridle fun b =>
    { b with aff := (new ++ b.aff.filter fun a => !(new.any fun n => n.tag == a.tag && n.sliver == a.sliver)).take 32768 }

/-- The key of a band chain's digest, apart from the keys of task groups. -/
def bandKey (b k frame : Nat) : Nat := 2 ^ 62 + frame * 2 ^ 10 + 2 * b + k

/-- A digest of a job's task group, or of a band chain, differed or was late (R393, R399): a job is cancelled with the status, after a
DUO_HOLD when one stands; a band is only counted. -/
def Sys.mismatch (key job st : Nat) (y : Sys) : Sys :=
  if 2 ^ 62 ≤ key then
    (y.modDuo fun u => { u with bandMismatches := satInc u.bandMismatches }).duoEvent 5
  else
    let y := (y.modDuo fun u => { u with mismatches := satInc u.mismatches }).duoEvent 4
    let y := y.logFault { cls := 0x0B, action := 4, status := st, block := 8, ctx := some (y.job job).ctx, job := some job }
    if y.duo.hold then y.modDuo fun u => { u with deferred := u.deferred ++ [(job, st)] }
    else (y.hsend (.harness "SCHED" [3, job, st] [])).beginCancel job st

/-- The mirror digest of a completed task group goes to the manager, or is compared with the worker's, or waits for it (R392, R393). -/
def Sys.sendDigest (key job d : Nat) (y : Sys) : Sys :=
  if y.glob.config ≠ 2 ∨ y.duo.alone = true ∨ y.duo.unmirrored.contains job = true then y
  else if y.duo.role = 1 then y.hsend (.harness "DIGEST" [key] (leBytes 16 d))
  else match y.duo.early.find? (fun e => e.1 == key) with
    | some e =>
      let y := y.modDuo fun u => { u with early := u.early.filter fun k => k.1 != key }
      if e.2 = d then y else y.mismatch key job 0x40
    | none => y.modDuo fun u => { u with waiting := u.waiting ++ [(key, job, d)] }

/-- Every sliver of a task group has ended: wide re-run, or completion with its R12 status (R95, R130, R131). -/
def Sys.tgComplete (t : Nat) (y : Sys) : Sys :=
  let g := y.tg t
  let live := publishes g.status && !((y.job g.job).st == 5)
  if live && !g.wide && !g.frag && g.tallies.any Tally.qualifies then
    let y := y.modTg t fun g =>
      { g with wide := true, next := 0, redo := [], ahead := [], ended := 0, status := 0, staged := [], places := [], retries := [],
               tallies := g.tallies.map fun k => { k with wide := k.qualifies, sat := 0, escOv := 0, regauged := 0, nans := 0, parts := [] } }
    y.modJob g.job fun b => { b with reruns := b.reruns + 1 }
  else
    let sats : Nat := (g.tallies.map fun (k : Tally) => k.sat + k.escOv).sum
    let st := statusJoin (statusJoin g.status (if g.wide then 0x20 else 0)) (if 0 < sats then 0x21 else 0)
    let st := if (y.job g.job).st = 5 then statusJoin st (y.job g.job).cancelWith else st
    let y := if publishes st then
        let y := (g.staged.mergeSort fun a b => decide (a.sliver ≤ b.sliver)).foldl (fun y e => y.applyStaged g.ctx t e) y
        let y := g.tallies.foldl (fun y k => y.writeTally g.ctx t k) y
        y.recordAffinity g
      else y
    let d := (y.ctx g.ctx).domain
    let y := (y.kvGive d g.frames false).kvGive d g.slots true
    let y := y.modKv fun k => { k with prefetches := k.prefetches.filter fun p => p.tg != t }
    let y := y.semReturnAll (.group t)
    let y := match g.chain with
      | some (b, k) => y.chainStep b k g.bandEnd st
      | none => y
    let y := match g.chain with
      | none => y.sendDigest (g.queue * 2 ^ 24 + (y.queue g.queue).done) g.job (y.tg t).digest
      | some (b, k) =>
        let d := ((y.band b).digest + (y.tg t).digest) % 2 ^ 128
        let y := y.modBand b fun n => { n with digest := d }
        if g.bandEnd then y.sendDigest (bandKey b k (y.band b).frame) 65536 d else y
    let y := y.modBridle fun b => { b with tgs := tdel b.tgs t }
    match g.shader with
    | some d => y.shadedDraw g d st
    | none => y.packetComplete g.queue st g.group

/-- All slivers have ended: none in flight and none left to dispatch. A fragment task group takes batches until its pass ends (R197). -/
def Sys.tgSettled (y : Sys) (t : Nat) : Bool :=
  let g := y.tg t
  (!g.frag || g.cut || (y.job g.job).st == 5) && decide (g.slivers ≤ g.ended)

/-- The task groups of the ACTIVE pass run on while their job suspends, until the pass parks or ends (R198, R302). -/
def Sys.runsOn (y : Sys) (t : Nat) : Bool :=
  let g := y.tg t
  g.shader.isSome && (match y.raster.active with | some p => p.queue == g.queue | none => false)

/-- Status with which the slivers of a task group are to end at their next tile boundary: their job is cancelled, or their pass ends (R192, R303). -/
def Sys.stopStatus (y : Sys) (t : Nat) : Option Nat :=
  let j := y.job (y.tg t).job
  if j.st = 5 then some j.cancelWith else if (y.tg t).cut then some (y.tg t).status else none

/-- Slivers of a task group may run: its job does, or its pass runs on (R302). -/
def Sys.jobRuns (y : Sys) (t : Nat) : Bool :=
  let j := (y.job (y.tg t).job).st
  j == 2 || (j == 3 && y.runsOn t)

/-! ### What may be dispatched (R268, R272, R274) -/

/-- Nothing of a context may be dispatched: it is in Calm, the die is, a Duo hold stands, or an amendment holds its domain (R48, R315, R396, R403). -/
def Sys.ctxHeld (y : Sys) (c : Nat) : Bool :=
  (y.ctx c).calm || y.flt.dieCalm || y.duo.hold || bitAt y.glob.heldDomains (y.ctx c).domain

/-- A save that may be resumed: its job runs, its wait is over, nothing has asked for its resumption yet (R272, R283, R287). -/
def Sys.saveReady (y : Sys) (v : Save) : Bool :=
  y.jobRuns v.run.tg && !(y.ctxHeld (y.tg v.run.tg).ctx) &&
  (match v.run.wait with | .sem _ => false | _ => true) &&
  (match v.parked with | some (s, e) => (tget {} (y.stall s).mbox e).full | none => true) &&
  !(y.girth.reqs.any fun r => match r.act with | .resume q _ => q == v.seq | _ => false) &&
  !(y.cores.any fun c => c.2.resume == some v.seq || (match c.2.next with | some (_, _, q) => q == some v.seq | none => false))

/-- The next sliver of a task group to dispatch: re-executed ones first (R401), then in ascending number. -/
def Tg.head (g : Tg) : Option Nat := match g.redo with | n :: _ => some n | [] => if g.next < g.slivers then some g.next else none

/-- The first number at or above k that is not in a list, searched over n numbers. -/
def skipAhead (l : List Nat) : Nat → Nat → Nat
  | 0, k => k
  | n + 1, k => if l.contains k then skipAhead l n (k + 1) else k

/-- Slivers not yet dispatched, those to dispatch again included. -/
def Tg.left (g : Tg) : Nat := g.redo.length + (g.slivers - g.next - g.ahead.length)

/-- A sliver is taken from its task group for a request. -/
def Tg.takeSliver (n : Nat) (g : Tg) : Tg :=
  if g.redo.contains n then { g with redo := g.redo.erase n }
  else if g.next < n then { g with ahead := n :: g.ahead }
  else
    let k := skipAhead g.ahead g.slivers (g.next + 1)
    { g with next := k, ahead := g.ahead.filter (k < ·) }

/-- A task group's slivers may be dispatched now (R268, R302, R315). -/
def Sys.tgReady (y : Sys) (t : Nat) : Bool :=
  let g := y.tg t
  g.st == .ready && !g.cut && g.head.isSome && y.jobRuns t && !(y.ctxHeld g.ctx)

/-- The sliver a candidate stands for now: task group, sliver, effective priority and its save, when it may take a core (R274). -/
def Sys.candNow (y : Sys) (k : Cand) : Option (Nat × Nat × Nat × Option Nat) :=
  match k with
  | .fresh t => if y.tgReady t then (y.tg t).head.map fun n => (t, n, y.prioOf t n, none) else none
  | .saved q => match y.findSave q with
    | some v => if y.saveReady v then some (v.run.tg, v.run.sliver, y.savePrio v, some q) else none
    | none => none

/-- Permits for a sliver that is to take a core are asked for: a new one, or a save to resume (R102, R279). -/
def Sys.askCore (c : Nat) (w : Nat × Nat × Option Nat) (y : Sys) : Sys :=
  let h := y.sliverHold w.1 w.2.1
  if (tfind y.bridle.tgs w.1).isNone then y else
  match w.2.2 with
  | none => y.request { holds := [h], prio := y.prioOf w.1 w.2.1, act := .dispatch w.1 w.2.1 c }
  | some q => y.request { holds := [h, { who := .save c, cost := y.cost 5, ctx := (y.tg w.1).ctx }], prio := y.prioOf w.1 w.2.1, act := .resume q c }

/-- A victim ends before its boundary: the sliver it was to yield to takes the freed core (R280). -/
def Sys.askFreed (c : Nat) (k : Cand) (y : Sys) : Sys :=
  match y.candNow k with
  | some (t, n, _, none) => (y.modTg t (Tg.takeSliver n)).askCore c (t, n, none)
  | some (t, n, _, some q) => y.askCore c (t, n, some q)
  | none => y

/-- The sliver that was to take a core whose save a fault ended goes back, to be placed on another core (R280). -/
def Sys.shunCore (c : Nat) (w : Nat × Nat × Option Nat) (y : Sys) : Sys :=
  match w.2.2 with
  | none => y.modTg w.1 fun g => { g with redo := w.2.1 :: g.redo, shun := (w.2.1, c) :: g.shun }
  | some q =>
    let f := fun (v : Save) => if v.seq = q then { v with shun := c :: v.shun } else v
    (y.modStalls fun ss => tmap ss fun _ s => { s with saves := s.saves.map f }).modBridle fun b => { b with areas := tmap b.areas fun _ l => l.map f }

/-! ### The end of a sliver (R95, R102, R303, R307, R312) -/

/-- Transfers of a core end as their sliver ends: slots return, the agent's holding returns with its last slot (R309, R312). -/
def Sys.dropXfers (c t n : Nat) (y : Sys) : Sys :=
  let mine := fun (x : Xfer) => x.core == c && x.tg == t && x.sliver == n
  let n := (y.dma.xfers.filter fun x => mine x && !x.cancelled).length
  let y := y.modDma fun d => { d with xfers := d.xfers.filter fun x => !mine x }
  let y := y.modPool 7 (stallOf c) (Pool.give n)
  if y.dma.xfers.any (fun x => x.stall == stallOf c && !x.cancelled) then y
  else (y.dropHold (.dma (stallOf c))).unrequest (.dma (stallOf c))

/-- Save granules return to a stall (R276). -/
def Sys.giveGranules (s n : Nat) (y : Sys) : Sys := y.modStall s fun k => { k with saveFree := k.saveFree + n }

/-- A stall is gated: its awake holdings return (R376). -/
def Sys.gate (s : Nat) (y : Sys) : Sys :=
  let y := (y.dropHold (.coreAwake s)).dropHold (.stallAwake s)
  y.modStall s fun k => { k with gated := true, waking := false }

/-- A stall runs, saves and restores nothing. -/
def Sys.stallQuiet (y : Sys) (s : Nat) : Bool :=
  y.cores.all fun c => stallOf c.1 != s || (c.2.run.isNone && (c.2.st == .idle || c.2.st == .failed))

/-- The mailbox entries a cancelled or failed sliver asked for: a response that came is discarded and its credit returned, one still to
come is orphaned (R286, R288). -/
def Sys.orphanMail (t n : Nat) (y : Sys) : Sys :=
  let mine := fun (m : Mbox) => m.owner == some (t, n)
  let k := (y.stalls.map fun s => (s.2.mbox.filter fun m => mine m.2 && m.2.full).length).sum
  let f := fun (m : Mbox) => if mine m then (if m.full then {} else { m with orphan := true, parked := false, owner := none }) else m
  (y.modStalls fun ss => tmap ss fun _ s => { s with mbox := tmap s.mbox fun _ m => f m }).modPool 2 4 (Pool.give k)

/-- The sliver on a core ends with a status: everything it holds returns, the core is free, and the task group completes when it was
the last (R95, R102). withheld says that a fault took its output and it will run again (R401), so it has not ended. -/
def Sys.sliverStop (c st : Nat) (withheld : Bool) (y : Sys) : Sys :=
  match (y.core c).run with
  | none => y
  | some r =>
    let s := stallOf c
    let next := (y.core c).next
    let y := y.modKv fun k => { k with prefetches := k.prefetches.filter fun p => !(p.tg == r.tg && p.sliver == r.sliver) }
    let y := y.dropHold (.sliver r.tg r.sliver)
    let y := y.dropHold (.save c)
    let y := y.unrequest (.save c)
    let y := y.semReturnAll (.sliver r.tg r.sliver)
    let y := y.dropXfers c r.tg r.sliver
    let y := if withheld || (y.job (y.tg r.tg).job).st == 5 then y.orphanMail r.tg r.sliver else y
    let y := match r.pre with | some p => y.giveGranules s p.granules | none => y
    let y := match next with
      | some w => let y := y.dropHold (.sliver w.1 w.2.1); if withheld then y.shunCore c w else y
      | none => y
    let y := y.modCore c fun k => { k with st := .idle, run := none, next := none, frozen := false, resume := none }
    let y := if y.flt.dieCalm && y.stallQuiet s then y.gate s else y
    if withheld then y else
    let y := match next with
      | some w => y.askCore c w
      | none => match r.pre.bind (·.cand) with
        | some k => y.askFreed c k
        | none => y
    let k := y.core c
    let se := (y.stall s).epoch
    let y := y.modTg r.tg fun g =>
      { g with ended := g.ended + 1, status := statusJoin g.status st,
               places := if publishes st then g.places ++ [(r.sliver, c, k.epoch, se)] else g.places }
    let y := y.shotEnd (y.tg r.tg) r.sliver st
    if y.tgSettled r.tg then y.tgComplete r.tg else y

/-- The physical slot a core is bound to (R98, R99). -/
def Sys.physOf (y : Sys) (c : Nat) : Nat := (y.stall (stallOf c)).slotMap.getD (c % 64) (c % 64)

/-- What a sliver added to a tally is taken back. -/
def Tally.without (n : Nat) (t : Tally) : Tally :=
  let l := tget [] t.parts n
  { t with sat := t.sat - l.getD 0 0, escOv := t.escOv - l.getD 1 0, regauged := t.regauged - l.getD 2 0, nans := t.nans - l.getD 3 0,
           parts := tdel t.parts n }

/-- A sliver of a task group is to run again under its number (R401): what it staged and counted is taken back. -/
def Sys.again (t n : Nat) (y : Sys) : Sys :=
  let j := (y.tg t).job
  let y := y.modTg t fun g =>
    { g with retries := tmod 0 g.retries n (· + 1), redo := n :: g.redo, staged := g.staged.filter fun e => e.sliver != n,
             tallies := g.tallies.map (Tally.without n) }
  let y := y.modFlt fun f => { f with reexec := satInc f.reexec }
  y.modJob j fun b => { b with reexec := b.reexec + 1 }

/-- A sliver may run again: at most twice in a run of its task group (R401). -/
def Sys.mayAgain (y : Sys) (t n : Nat) : Bool := decide (tget 0 (y.tg t).retries n < 2)

/-- The output of the sliver on a core is withheld and it runs again; a third fault, or one of a sliver that is to end anyway, ends it with 0x30
(R401). -/
def Sys.sliverRetry (c : Nat) (y : Sys) : Sys :=
  match (y.core c).run with
  | none => y
  | some r => if y.mayAgain r.tg r.sliver && (y.stopStatus r.tg).isNone then (y.again r.tg r.sliver).sliverStop c 0x30 true else y.sliverStop c 0x30 false

/-- The log entry of a fault that takes a sliver's output (R400, R405). -/
def Sys.logSliver (c cls block addr : Nat) (y : Sys) : Sys :=
  match (y.core c).run with
  | none => y.logFault { cls := cls, action := 1, status := 0, block := block, stall := stallOf c, slot := c % 64, phys := y.physOf c, addr := addr }
  | some r =>
    let g := y.tg r.tg
    let again := y.mayAgain r.tg r.sliver
    y.logFault { cls := cls, action := if again then 1 else 4, status := if again then 0 else 0x30, block := block, stall := stallOf c,
                 slot := c % 64, phys := y.physOf c, ctx := some g.ctx, job := some g.job, attempt := tget 0 g.retries r.sliver, group := g.group,
                 addr := addr }

/-- A fault takes the output of the sliver on a core (R400, R401). -/
def Sys.sliverFault (c cls block addr : Nat) (y : Sys) : Sys := (y.logSliver c cls block addr).sliverRetry c

/-- The sliver on a core ends with a status; one that met a faulty block or granule is re-executed (R400 SHARED_DATA). -/
def Sys.sliverEnd (c st : Nat) (withheld : Bool) (y : Sys) : Sys :=
  if st < 2 ^ 12 ∨ withheld = true then y.sliverStop c st withheld
  else if st / 2 ^ 12 = 1 then y.sliverFault c 3 0 0
  else y.sliverFault c 3 1 (64 * (st / 2 ^ 12 - 2))

/-- A running core's instruction breaks R81 (or another rule of its home chapter) and the sliver ends with a status. -/
def Sys.failCore (c st : Nat) (y : Sys) : Sys := y.sliverEnd c st false

end Sys2Proof.Machine
end

