-- ==== Sys2Proof/Machine/Engines.lean ====
section
/-! DEFINITION. Engine steps and engine commands (R71 to R76, R113 to R117, R457): capture at issue, carrying out in order. -/

namespace Sys2Proof.Machine

/-! ### One step (R72, R115) -/

/-- Sum of the four products of one output element, with saturation (R72, R73). -/
def stepElem (a b : List XOp) (i j : Nat) (o : Int) : Nat × Bool :=
  let p := fun t => eProd (a.getD (4 * i + t) ⟨0, none⟩).x (b.getD (4 * t + j) ⟨0, none⟩).x o
  let s01 := eAdd (p 0).1 (p 1).1
  let s23 := eAdd (p 2).1 (p 3).1
  let s := eAdd s01.1 s23.1
  (s.1, (p 0).2 || (p 1).2 || (p 2).2 || (p 3).2 || s01.2 || s23.2 || s.2)

/-- Correction products of one output element, ascending t (R115); no correction where either element is of a Zero group (it is a plain
+0 operand without a welt value, and its product is 0). -/
def stepCorr (a b : List XOp) (i j : Nat) (oA oB : Int) : List (Nat × Word × Bool) :=
  (List.range 4).filterMap fun t =>
    let x := a.getD (4 * i + t) ⟨0, none⟩
    let z := b.getD (4 * t + j) ⟨0, none⟩
    if x.welt.isSome || z.welt.isSome then
      let r := f32Sat ((x.exact oA).mul (z.exact oB))
      some (4 * i + j, BitVec.ofNat 32 r.1, r.2)
    else none

/-- One step of an engine captured (R72, R115). -/
def mkStep (a b : List XOp) (oA oB : Int) : EngStep :=
  let es := (List.range 16).map fun e => stepElem a b (e / 4) (e % 4) (oA + oB)
  let cs := (List.range 16).flatMap fun e => stepCorr a b (e / 4) (e % 4) oA oB
  { sums := es.map fun e => BitVec.ofNat 32 e.1, corr := cs.map fun c => (c.1, c.2.1),
    sat := es.any (·.2) || cs.any (fun c => c.2.2) }

/-- One step carried out on ACTIVE: the new bank, and whether anything saturated (R72, R73, R115). -/
def applyStep (acc : List Word) (s : EngStep) : List Word × Bool :=
  let z := (acc.zip s.sums).map fun p => eAdd p.1.toNat p.2.toNat
  let acc := z.map fun p => BitVec.ofNat 32 p.1
  s.corr.foldl (fun st c =>
    let r := eAdd (st.1.getD c.1 0).toNat c.2.toNat
    (st.1.set c.1 (BitVec.ofNat 32 r.1), st.2 || r.2)) (acc, s.sat || z.any (·.2))

/-- Steps carried out in order on a bank: the bank, and the steps that saturated. -/
def runSteps (start : List Word) (ss : List EngStep) : List Word × Nat :=
  ss.foldl (fun st s => let q := applyStep st.1 s; (q.1, if q.2 then st.2 + 1 else st.2)) (start, 0)

/-- An engine's share of an EMMA or ECONV carried out: the engine and the steps that saturated (R73: one count per step). -/
def Engine.mac (e : Engine) (w : EngWork) : Engine × Nat :=
  let start := if w.zeroFirst then List.replicate 16 0 else e.active
  let r := runSteps start w.steps
  ({ e with active := r.1 }, r.2)

/-- The same shared with an idle core (R97): the two halves of the steps form partials from +0, which are added to ACTIVE in the order they
finish, swapped or not. -/
def Engine.macShared (e : Engine) (w : EngWork) (swapped : Bool) : Engine × Nat :=
  let start := if w.zeroFirst then List.replicate 16 0 else e.active
  let h := w.steps.length - w.steps.length / 2
  let p := runSteps (List.replicate 16 0) (w.steps.take h)
  let q := runSteps (List.replicate 16 0) (w.steps.drop h)
  let add := fun (x z : List Word) => (x.zip z).map fun p => BitVec.ofNat 32 (eAdd p.1.toNat p.2.toNat).1
  ({ e with active := if swapped then add (add start q.1) p.1 else add (add start p.1) q.1 }, p.2 + q.2)

/-! ### Commands in flight (R457) -/

/-- One engine of a command carried out on the sliver's state. -/
def Run.applyEngine (r : Run) (c : EngCmd) (e : Nat) : Run :=
  let en := r.engines.getD e {}
  match c.kind with
  | .mac | .conv =>
    match c.work.find? (fun w => w.engine == e) with
    | none => r
    | some w => let q := if c.steal = 0 then en.mac w else en.macShared w (c.steal == 2); { r with engines := r.engines.set e q.1, accSat := satAdd r.accSat q.2 }
  | .zero => { r with engines := r.engines.set e { en with active := List.replicate 16 0 } }
  | .swap => { r with engines := r.engines.set e { active := en.drain, drain := en.active } }
  | .drain => r

/-- The DRAIN banks an EDRAIN writes: 64 bytes per named engine, ascending (R76, R457). -/
def Run.drainBytes (r : Run) (mask : Nat) : List Byte :=
  (maskList 4 mask).flatMap fun e => (r.engines.getD e {}).drain.flatMap fun w => leBytes 4 w.toNat

/-- The whole of a command carried out on a core. -/
def Core.applyCmd (k : Core) (c : EngCmd) : Core :=
  match k.run with
  | none => k
  | some r =>
    let r' := if c.malformed then { r with codes := 0x10 } else (maskList 4 c.mask).foldl (fun r e => r.applyEngine c e) r
    let r' := { r' with codes := if 0 < c.expSat then statusJoin r'.codes 0x21 else r'.codes }
    let ls := if c.kind = .drain then k.ls.write lsGr c.addr (r.drainBytes c.mask) else k.ls
    { k with run := some r', ls := ls }

/-- Two commands name a common engine. -/
def sharesEngine (a b : EngCmd) : Bool := (a.mask &&& b.mask) != 0

/-- A command may be carried out: each earlier command on one of its engines that it must follow has ended (R74, R457). -/
def eligible (earlier : List EngCmd) (c : EngCmd) : Bool :=
  earlier.all fun e => !sharesEngine e c || (e.kind == .drain && (c.kind == .mac || c.kind == .conv || c.kind == .zero))

/-- Index of the oldest command of a kind that may be carried out. -/
def nextCmd (k : EngKind) (l : List EngCmd) : Option Nat :=
  (List.range l.length).find? fun i => match l[i]? with
    | some c => c.kind == k && eligible (l.take i) c
    | none => false

/-- Every command of the first n carried out in order, and removed (R82: a later access interlocks on them). -/
def Core.forceCmds (k : Core) (n : Nat) : Core :=
  match k.run with
  | none => k
  | some r =>
    let k := (r.cmds.take n).foldl Core.applyCmd k
    { k with run := k.run.map fun r => { r with cmds := r.cmds.drop n } }

/-- The same on the machine, with the stall's expansion saturations counted (R117, R132). -/
def Sys.forceCmds (c n : Nat) (y : Sys) : Sys :=
  match (y.core c).run with
  | none => y
  | some r =>
    let k := ((r.cmds.take n).map (·.expSat)).sum
    (y.modCore c fun q => q.forceCmds n).modStall (stallOf c) fun s => { s with expSat := satAdd s.expSat k }

/-- Number of commands up to the last EDRAIN that has still to write a byte of [a, a + n) (R457, R82). -/
def drainsBefore (cmds : List EngCmd) (a n : Nat) : Nat :=
  ((List.range cmds.length).filter fun i => match cmds[i]? with
    | some c => c.kind == .drain && decide (c.addr < a + n ∧ a < c.addr + 64 * popcount 4 c.mask)
    | none => false).foldl (fun _ i => i + 1) 0

/-- Local store bytes as an access in program order sees them: the interlock first (R82). -/
def Sys.interlock (c a n : Nat) (y : Sys) : Sys :=
  match (y.core c).run with
  | none => y
  | some r => let m := drainsBefore r.cmds a n; if m = 0 then y else y.forceCmds c m

/-- n bytes of a core's local store. -/
def Sys.lsRead (y : Sys) (c a n : Nat) : List Byte := (y.core c).ls.read lsGr a n

/-- Bytes written to a core's local store. -/
def Sys.lsWrite (c a : Nat) (bs : List Byte) (y : Sys) : Sys := y.modCore c fun k => { k with ls := k.ls.write lsGr a bs }

/-! ### EMMA (R76, R113 to R117) -/

/-- The EMMA descriptor (R76). -/
structure Emma where
  aAddr : Nat
  bAddr : Nat
  engines : Nat
  k : Nat
  aCode : Nat
  bCode : Nat
  zeroFirst : Bool
  wide : Bool
  bStride : Nat
  ofs : Nat
  scale : Nat
  deriving DecidableEq, Repr

/-- A descriptor from its sixteen bytes; none when a field or reserved bit breaks R76. -/
def parseEmma (bs : List Byte) : Option Emma :=
  let w0 := wordAt bs 0
  let w1 := wordAt bs 1
  let w2 := wordAt bs 2
  let w3 := wordAt bs 3
  let d : Emma := ⟨fld w0 0 14, fld w0 14 14, fld w0 28 4, fld w1 0 9, fld w1 9 4, fld w1 13 4, bitAt w1 17, bitAt w1 18,
    fld w2 0 14, fld w2 14 14, fld w3 0 14⟩
  let codes := if d.wide then (d.aCode == 8 || d.aCode == 9) && (d.bCode == 8 || d.bCode == 9)
    else decide (d.aCode ≤ 7 ∧ d.bCode ≤ 7)
  if d.engines ≠ 0 ∧ 1 ≤ d.k ∧ d.k ≤ 256 ∧ codes = true ∧ fld w1 19 13 = 0 ∧ fld w2 28 4 = 0 ∧ fld w3 14 18 = 0 then some d else none

/-- A coded stream (R113). -/
def isCoded (c : Nat) : Bool := decide (1 ≤ c ∧ c ≤ 7)

/-- One operand stream expanded: per step the tile offset and sixteen operands; the saturations; false for a malformed group. -/
structure Stream where
  tiles : List (Int × List XOp × List XOp)
  sats : Nat
  ok : Bool
  deriving DecidableEq, Repr

/-- The element of a stream's tile T at line l (row of A, column of B) and depth t. -/
def tileIdx (isA : Bool) (l t : Nat) : Nat := if isA then 4 * l + t else 4 * t + l

/-- A stream expanded (R113 to R117). bytes: its tiles; ofs: its offset bytes; words, slots: its scale words and welt slots. -/
def expandStream (isA : Bool) (code k g : Nat) (bytes ofs : List Byte) (words : List Nat) (slots : List (List Byte))
    (round seed tensor : Nat) : Stream :=
  let bits := codeBits code
  let raw := fun (T e : Nat) => elemAt bits (bytes.drop (T * 2 * bits)) e
  let off := fun (T : Nat) => sx 8 (ofs.getD T 0).toNat
  if code = 0 then
    ⟨(List.range k).map fun T => (off T, (List.range 16).map (fun e => ⟨raw T e, none⟩), []), 0, true⟩
  else if 8 ≤ code then
    let ts := (List.range k).map fun T => (off T, (List.range 16).map fun e => splitWide code (raw T e) (off T))
    ⟨ts.map fun t => (t.1, t.2.map (fun s => ⟨s.1, none⟩), t.2.map fun s => ⟨s.2.1, none⟩),
     (ts.map fun t => (t.2.filter fun s => s.2.2).length).sum, true⟩
  else
    let ng := 4 * k / g
    let groups := (List.range (4 * ng)).map fun n =>
      let l := n / ng
      let q := n % ng
      let codes := (List.range g).map fun p => let kk := q * g + p; raw (kk / 4) (tileIdx isA l (kk % 4))
      parseGroup code g (words.getD n 0) (slots.getD n []) codes
    if groups.any (·.isNone) then ⟨[], 0, false⟩
    else
      let gs := groups.map (·.getD .zero)
      let ts := (List.range k).map fun T =>
        let q := 4 * T / g
        let o := tileOffset code ((List.range 4).map fun l => gs.getD (l * ng + q) .zero)
        (o, (List.range 16).map fun e =>
          let l := if isA then e / 4 else e % 4
          let t := if isA then e % 4 else e / 4
          expandElem code (gs.getD (l * ng + q) .zero) ((4 * T + t) % g) (raw T e) o (modeOf round seed tensor (16 * T + e)))
      ⟨ts.map fun t => (t.1, t.2.map (·.1), []), (ts.map fun t => (t.2.filter (·.2)).length).sum, true⟩

/-- The steps of one engine from its two streams: one per tile, or the four of R75. -/
def streamSteps (wide : Bool) (a b : Stream) : List EngStep :=
  (a.tiles.zip b.tiles).flatMap fun p =>
    let x := p.1
    let z := p.2
    if wide then
      [mkStep x.2.1 z.2.1 x.1 z.1, mkStep x.2.1 z.2.2 x.1 z.1, mkStep x.2.2 z.2.1 x.1 z.1, mkStep x.2.2 z.2.2 x.1 z.1]
    else [mkStep x.2.1 z.2.1 x.1 z.1]

/-- An EMMA captured at issue from the local store; none for a breach that ends the sliver with 0x10 at issue (R76, R81, R113). -/
def captureEmma (rd : Nat → Nat → List Byte) (d : Emma) (round seed tensor : Nat) : Option EngCmd :=
  let engs := maskList 4 d.engines
  let aLen := d.k * 2 * codeBits d.aCode
  let bLen := d.k * 2 * codeBits d.bCode
  let coded := isCoded d.aCode || isCoded d.bCode
  let lw := leNat (rd d.scale 4)
  let ga := (groupSize (fld lw 0 2)).getD 0
  let gb := (groupSize (fld lw 2 2)).getD 0
  let na := if isCoded d.aCode then 16 * d.k / ga else 0
  let nb := if isCoded d.bCode then 16 * d.k / gb else 0
  let n := na + nb * engs.length
  let slotOfs := cdiv (4 + 4 * n) 32 * 32
  let rangeOk := decide (d.aAddr + aLen ≤ 0x4000) && decide (d.bAddr + d.bStride * (engs.length - 1) + bLen ≤ 0x4000) &&
    (isCoded d.aCode || decide (d.ofs + d.k ≤ 0x4000)) &&
    (isCoded d.bCode || decide (d.ofs + d.k * (1 + engs.length) ≤ 0x4000))
  let layoutOk := !coded || (d.scale % 4 == 0 && decide (d.scale + 4 ≤ 0x4000) && ga != 0 && gb != 0 && fld lw 4 28 == 0 &&
    (!isCoded d.aCode || 4 * d.k % ga == 0) && (!isCoded d.bCode || 4 * d.k % gb == 0) &&
    decide (d.scale + slotOfs + 32 * n ≤ 0x4000))
  if !(rangeOk && layoutOk) then none else
  let words := fun (i m : Nat) => (List.range m).map fun q => leNat (rd (d.scale + 4 + 4 * (i + q)) 4)
  let slots := fun (i m : Nat) => (List.range m).map fun q => rd (d.scale + slotOfs + 32 * (i + q)) 32
  let a := expandStream true d.aCode d.k ga (rd d.aAddr aLen) (rd d.ofs d.k) (words 0 na) (slots 0 na) round seed tensor
  let bs := engs.zipIdx.map fun p =>
    (p.1, expandStream false d.bCode d.k gb (rd (d.bAddr + p.2 * d.bStride) bLen) (rd (d.ofs + d.k * (1 + p.2)) d.k)
      (words (na + nb * p.2) nb) (slots (na + nb * p.2) nb) round seed ((tensor + 1 + p.2) % 2 ^ 32))
  some { kind := .mac, mask := d.engines,
         work := bs.map fun b => { engine := b.1, zeroFirst := d.zeroFirst, steps := streamSteps d.wide a b.2 },
         expSat := a.sats + (bs.map fun b => b.2.sats).sum,
         malformed := !a.ok || bs.any fun b => !b.2.ok }

end Sys2Proof.Machine
end

