-- ==== Sys2Proof/Machine/Bridle.lean ====
section
/-! DEFINITION. Bridle's operations: placement (R270 to R273), dispatch (R94), pre-emption and saves (R274 to R281, R289),
tile boundaries (R83). -/

namespace Sys2Proof.Machine

/-! ### Placement (R270 to R273) -/

/-- A stall that may be given work: enabled, assigned, awake (R16, R32, R376). -/
def Sys.stallUsable (y : Sys) (s : Nat) : Bool :=
  y.enabled s && !(y.stall s).gated && !(y.stall s).waking && !(y.stall s).failed

/-- A core that may be given a sliver now. -/
def Sys.coreFree (y : Sys) (c : Nat) : Bool :=
  let k := y.core c
  y.stallUsable (stallOf c) && k.st == .idle && k.run.isNone && k.next.isNone &&
  !(y.girth.reqs.any fun r => match r.act with | .dispatch _ _ c' => c' == c | .resume _ c' => c' == c | _ => false)

/-- Free cores of a domain, ascending. -/
def Sys.freeCores (y : Sys) (d : Nat) : List Nat :=
  (maskList 64 (y.dom d).stalls).flatMap fun s => if y.stallUsable s then ((List.range 64).map (64 * s + ·)).filter y.coreFree else []

/-- The affinity score of a core for a sliver, and whether its record's epochs differ from the current ones (R51, R270). -/
def Sys.score (y : Sys) (tag n c : Nat) : Nat × Bool :=
  if tag = 0 then (0, false) else
  match y.bridle.aff.find? (fun a => a.tag == tag && a.sliver == n) with
  | none => (0, false)
  | some a =>
    let core := a.coreEpoch == (y.core a.core).epoch
    let stall := a.stallEpoch == (y.stall (stallOf a.core)).epoch
    (if a.core = c ∧ core = true ∧ stall = true then 4 else if stallOf a.core = stallOf c ∧ stall = true then 2 else 0, !(core && stall))

/-- A new sliver of priority p may take a core of stall s (R273). -/
def Sys.newAllowed (y : Sys) (s p : Nat) : Bool := (y.stall s).saves.all fun v => !(y.saveReady v) || decide (p < y.savePrio v)

/-- A sliver of the task group has been taken for dispatch, in turn or ahead for its affinity. -/
def Tg.begun (g : Tg) : Bool := decide (0 < g.next) || !g.ahead.isEmpty

/-- PREFILL task groups of a context with slivers dispatched (R292). -/
def Sys.prefillsOut (y : Sys) (c : Nat) : Nat :=
  (y.bridle.tgs.filter fun p => p.2.ctx == c && p.2.cls == 2 && p.2.begun && decide (p.2.ended < p.2.slivers)).length

/-- Effective priority of a task group's next sliver. -/
def Sys.headPrio (y : Sys) (t : Nat) : Nat := y.prioOf t ((y.tg t).head.getD 0)

/-- The mix rules leave a task group out of the turn (R292). -/
def Sys.mixedOut (y : Sys) (t : Nat) : Bool :=
  let g := y.tg t
  let c := y.ctx g.ctx
  c.mixEn && g.cls == 2 &&
  ((!g.begun && decide (max 1 c.prefillMax ≤ y.prefillsOut g.ctx)) ||
   y.bridle.tgs.any fun p => p.2.ctx == g.ctx && p.2.cls == 1 && y.tgReady p.1 && y.headPrio p.1 == y.headPrio t)

/-- The key of the task group served last in a domain at a priority (R272). -/
def servedKey (d p : Nat) : Nat := 8 * d + p

/-- READY task groups of a domain at a priority, in the turn of R272: after the one served last, in readiness order. -/
def Sys.turn (y : Sys) (d p : Nat) : List Nat :=
  let ts := (y.bridle.tgs.filter fun q =>
    y.tgReady q.1 && (y.ctx q.2.ctx).domain == d && !(y.mixedOut q.1) && y.headPrio q.1 == p).map (·.1)
  let ts := ts.mergeSort fun a b => decide ((y.tg a).seq ≤ (y.tg b).seq)
  let last := tget 0 y.bridle.served (servedKey d p)
  let redo := ts.filter fun t => !(y.tg t).redo.isEmpty
  redo ++ ts.filter (fun t => (y.tg t).redo.isEmpty && decide (last < (y.tg t).seq))
    ++ ts.filter (fun t => (y.tg t).redo.isEmpty && !decide (last < (y.tg t).seq))

/-- The core a sliver takes: highest score, then the stall with most free cores, then the lowest number (R271). -/
def Sys.pickCore (y : Sys) (d t n p : Nat) : Option Nat :=
  let fs := (y.freeCores d).filter fun c => y.newAllowed (stallOf c) p && !((y.tg t).shun.contains (n, c))
  let cnt := fun c => (fs.filter fun k => stallOf k == stallOf c).length
  minBy (fun c => (4 - (y.score (y.tg t).aff n c).1) * 100000000 + (64 - cnt c) * 100000 + c) fs

/-- The sliver of a task group that is dispatched next: a single free core takes the undispatched sliver with the highest score on it, ties
to the lowest number (R271). -/
def Sys.pickSliver (y : Sys) (d t n p : Nat) : Nat :=
  let g := y.tg t
  match (y.freeCores d).filter (fun c => y.newAllowed (stallOf c) p), g.redo with
  | [c], [] =>
    let known := (y.bridle.aff.filter fun a => a.tag == g.aff && decide (g.next ≤ a.sliver ∧ a.sliver < g.slivers) && !g.ahead.contains a.sliver).map (·.sliver)
    (minBy (fun k => (4 - (y.score g.aff k c).1) * 2 ^ 33 + k) (n :: known)).getD n
  | _, _ => n

/-- The three sources of R272 in order at one priority: what to request next in a domain. -/
inductive Pick where
  | resume (v : Save) (core : Nat)
  | fresh (tg sliver core : Nat)
  deriving DecidableEq, Repr

/-- The choice of R272 at priority p. -/
def Sys.pickAt (y : Sys) (d p : Nat) : Option Pick :=
  let free := y.freeCores d
  let own := (maskList 64 (y.dom d).stalls).flatMap fun s =>
    ((y.stall s).saves.filter fun v => y.saveReady v && y.savePrio v == p).filterMap fun v =>
      (free.find? fun c => stallOf c == s && !v.shun.contains c).map fun c => (v, c)
  let area := (y.bridle.areas.flatMap fun a => a.2.filter fun v => y.saveReady v && y.savePrio v == p && (y.ctx a.1).domain == d).filterMap fun v =>
    (free.find? fun c => y.newAllowed (stallOf c) p && !v.shun.contains c).map fun c => (v, c)
  match minBy (fun q => q.1.seq) own with
  | some q => some (.resume q.1 q.2)
  | none => match minBy (fun q => q.1.seq) area with
    | some q => some (.resume q.1 q.2)
    | none => (y.turn d p).findSome? fun t =>
        match (y.tg t).head with
        | none => none
        | some n => let n := y.pickSliver d t n p; (y.pickCore d t n p).map fun c => .fresh t n c

/-- The choice of R272 over all priorities, highest first. -/
def Sys.pick (y : Sys) (d : Nat) : Option Pick := (List.range 8).findSome? fun p => y.pickAt d p

/-- Work is released to several stalls of a domain at one instant: all but the lowest wait for their turn (R290). -/
def Sys.breezeIn (d : Nat) (y : Sys) : Sys :=
  match (maskList 64 (y.dom d).stalls).filter y.stallUsable with
  | _ :: rest => y.modBridle fun b => { b with breeze := (List.range 64).filter fun s => rest.contains s || b.breeze.contains s }
  | [] => y

/-- A task group of several slivers becomes READY: its release breezes in over its domain (R290). -/
def Sys.tgBreeze (t : Nat) (y : Sys) : Sys :=
  let g := y.tg t
  if 1 < g.slivers then y.breezeIn (y.ctx g.ctx).domain else y

/-! ### Dispatch (R94, R102) -/

/-- The task frame of a sliver (R94). -/
def Tg.frame (g : Tg) (n : Nat) : List Byte :=
  wordsBytes ([n % 2 ^ 24, g.slivers % 2 ^ 24, g.group % 2 ^ 32, put g.arg 0 8 + putb g.exact 8,
    g.param % 2 ^ 32, g.param / 2 ^ 32 % 2 ^ 32, g.code % 2 ^ 20] ++ (List.range 9).map fun i => g.args.getD i 0)

/-- The dispatcher writes the frame, clears every register and CSR, and the sliver starts at CODE (R94). -/
def Sys.startSliver (t n c : Nat) (y : Sys) : Sys :=
  let g := y.tg t
  let sc := y.score g.aff n c
  let y := y.modBridle fun b =>
    { b with affHits := if 0 < sc.1 then satInc b.affHits else b.affHits,
             affStale := if sc.2 then satInc b.affStale else b.affStale,
             served := tset b.served (servedKey (y.ctx g.ctx).domain (y.prioOf t n)) g.seq }
  let y := y.modTg t fun g => { g with shun := g.shun.filter fun p => p.1 != n }
  let y := y.modCore c fun k =>
    { k with st := .running, next := none, frozen := false,
             run := some { tg := t, sliver := n, pc := g.code, arg := g.arg, exact := g.exact, kernel := g.kernel != 0 } }
  y.lsWrite c 0 (g.frame n)

/-- Permits for a choice are requested (R102, R279). -/
def Sys.requestPick (p : Pick) (y : Sys) : Sys :=
  match p with
  | .fresh t n c => (y.modTg t (Tg.takeSliver n)).askCore c (t, n, none)
  | .resume v c => y.askCore c (v.run.tg, v.run.sliver, some v.seq)

/-! ### Saves (R92, R93, R276, R277) -/

/-- Granules a save needs: LIVE, 128 bytes per declared engine, 384 bytes of core state (R93). -/
def saveGranules (live eng : Nat) : Nat := cdiv (live + 128 * eng + 384) 256

/-- t_switch in ns, rounded up (R277). -/
def switchNs (op live eng : Nat) : Nat := 250 + cdiv (cdiv (live + 128 * eng + 384) 32 * 1000000) (opKHz.getD op 250000)

/-- The sliver's state as a save holds it: its accumulator banks and everything else it had, no request standing (R93, R279). -/
def Run.saved (r : Run) : Run := { r with pre := none }

/-- Request a save of a core at its boundary (R275, R289): the waiting sliver's sum, when there is one, together with SAVE. -/
def Sys.requestSave (c : Nat) (cand : Option Cand) (prio : Nat) (y : Sys) : Sys :=
  let who := cand.bind y.candNow
  let hs := match who with | some (t, n, _, _) => [y.sliverHold t n] | none => []
  let ctx := match who with | some (t, _, _, _) => (y.tg t).ctx | none => 64
  let y := match who with | some (t, n, _, none) => y.modTg t (Tg.takeSliver n) | _ => y
  let y := y.modCore c fun k => { k with next := who.map (fun w => (w.1, w.2.1, w.2.2.2)), frozen := true }
  y.request { holds := hs ++ [{ who := .save c, cost := y.cost 5, ctx := ctx }], prio := prio, act := .save c }

/-- Granules for a save of a running core are reserved; false when the region cannot hold it (R93). -/
def Sys.reserve (c : Nat) (cand : Option Cand) (prio : Nat) (y : Sys) : Sys × Bool :=
  match (y.core c).run with
  | none => (y, false)
  | some r =>
    let n := saveGranules r.live (y.tg r.tg).eng
    if n ≤ (y.stall (stallOf c)).saveFree then
      let y := y.modStall (stallOf c) fun s => { s with saveFree := s.saveFree - n }
      (y.modRun c fun r => { r with pre := some { cand := cand, prio := prio, granules := n, live := r.live, time := y.glob.refCycles } }, true)
    else (y, false)

/-- A request is withdrawn: its granules return (R276). -/
def Sys.withdraw (c : Nat) (y : Sys) : Sys :=
  match (y.core c).run with
  | some r => match r.pre with
    | some p => (y.giveGranules (stallOf c) p.granules).modRun c fun r => { r with pre := none }
    | none => y
  | none => y

/-- Something is to happen to a sliver at its next tile boundary: a cancel, a suspend or hold, a request (R275, R289, R303, R396). -/
def Sys.boundaryActs (y : Sys) (r : Run) : Bool :=
  (y.stopStatus r.tg).isSome || ((y.job (y.tg r.tg).job).st == 3 && !y.runsOn r.tg) || y.duo.hold || r.pre.isSome

/-- A core stands at a tile boundary (R83): a cancel, or the end of its pass, ends the sliver (R192, R303), a hold or suspend saves it (R289, R396), a request that still
outranks it saves it (R275), otherwise it goes on. One to be held or suspended whose stall has no
room for the save stands at its boundary until there is. An engine command still in flight keeps the tile open: what is to happen waits for it. -/
def Sys.boundary (c : Nat) (y : Sys) : Sys :=
  match (y.core c).run with
  | none => y
  | some r =>
    let j := y.job (y.tg r.tg).job
    if !r.cmds.isEmpty then
      if y.boundaryActs r && r.wait == .none then y.modCore c fun k => { k with run := some { r with wait := .tileOpen } } else y
    else match y.stopStatus r.tg with
    | some st => y.sliverEnd c st false
    | none =>
    if y.duo.hold = true ∨ (j.st = 3 ∧ y.runsOn r.tg = false) then
      let y := if r.pre.isSome then y.withdraw c else y
      match y.reserve c none (y.prioOf r.tg r.sliver) with
      | (y, true) => y.requestSave c none (y.prioOf r.tg r.sliver)
      | (y, false) => y.modCore c fun k => { k with frozen := true }
    else match r.pre with
      | none => y
      | some p =>
        match p.cand with
        | none => y.requestSave c none p.prio
        | some k => match y.candNow k with
          | some (_, _, q, _) => if q < y.prioOf r.tg r.sliver then y.requestSave c (some k) q else y.withdraw c
          | none => y.withdraw c

/-- A core stands at its boundary for want of room in the save region. -/
def Core.stands (k : Core) : Bool := k.st == .running && k.frozen && (match k.run with | some r => r.pre.isNone | none => false)

/-- Cores that stand for want of room look again: a save can be made now, or nothing holds them any more (R289). -/
def Sys.standAgain (y : Sys) : Sys :=
  ((y.cores.filter fun c => c.2.stands).map (·.1)).foldl (fun y c => (y.modCore c fun k => { k with frozen := false }).boundary c) y

/-! ### Running a core's instruction -/

/-- A core whose sequencer may issue an Awl instruction: running, not waiting, not stopped at a boundary, no sliver of a built-in kernel. -/
def Core.issues (k : Core) : Bool :=
  k.st == .running && !k.frozen && (match k.run with | some r => r.wait == .none && !r.kernel | none => false)

/-- An instruction of the sliver on a core; a core that runs none is left as it is (log entry 4). -/
def Sys.awl (c : Nat) (f : Run → Sys → Sys) (y : Sys) : Sys :=
  if (y.core c).issues then match (y.core c).run with | some r => f r y | none => y else y

/-- An address code may be fetched from (R81). -/
def pcOk (pc : Nat) : Bool := pc % 4 == 0 && decide (0x40000 ≤ pc ∧ pc ≤ 0xFBFFF)

/-- The sliver's state after an instruction, and its next address; an illegal next address, or a malformed group met (R112), ends the
sliver (R81). -/
def Sys.goTo (c : Nat) (r : Run) (pc : Nat) (y : Sys) : Sys :=
  let y := y.modCore c fun k => { k with run := some { r with pc := pc % 2 ^ 32 } }
  if pcOk (pc % 2 ^ 32) && r.codes != 0x10 then y else y.failCore c 0x10

/-- An instruction retires and the next word follows. -/
def Sys.retire (c : Nat) (r : Run) (y : Sys) : Sys := y.goTo c r (r.pc + 4)

/-- Register xi; x0 reads 0. -/
def Run.x (r : Run) (i : Nat) : Word := if i % 32 = 0 then 0 else r.regs.getD (i % 32) 0

/-- xi written; a write to x0 is discarded. -/
def Run.setx (r : Run) (i : Nat) (v : Word) : Run := if i % 32 = 0 then r else { r with regs := r.regs.set (i % 32) v }

/-- A waiting core goes on past the instruction it waited on. -/
def Sys.resumeWait (c : Nat) (f : Run → Run) (y : Sys) : Sys :=
  match (y.core c).run with
  | some r => y.retire c (f { r with wait := .none })
  | none => y

/-! ### A waiter whose holder does not run (R283) -/

/-- A holder of a semaphore runs: the sliver, or a sliver of the task group or job, is on a core (log entry 73). -/
def Sys.holderRuns (y : Sys) (h : SemHolder) : Bool :=
  y.cores.any fun c => c.2.st == .running && (match c.2.run with | some r => y.covers h r.tg r.sliver | none => false)

/-- A waiter at its SEMACQ boundary whose semaphore has a holder that does not run is saved, so that its core goes to the holder or to other work
(R283). -/
def Sys.yieldCore (c : Nat) (y : Sys) : Sys :=
  match (y.core c).run with
  | none => y
  | some r =>
    match r.wait with
    | .sem n =>
      if r.pre.isSome || (y.core c).frozen || (y.core c).st != .running || !r.cmds.isEmpty || (y.sem n).holds.all (fun h => y.holderRuns h.who) then y
      else
        let p := y.prioOf r.tg r.sliver
        match y.reserve c none p with
        | (y, true) => y.requestSave c none p
        | (y, false) => y
    | _ => y

/-- The same for every core: after a holder has been saved, or save granules have come free (R283). -/
def Sys.yieldWaiters (y : Sys) : Sys := (y.cores.map (·.1)).foldl (fun y c => y.yieldCore c) y

/-- What waits on the core's engine commands goes on when they have ended: EWAIT, TILE, a boundary whose tile they kept open (R76, R83). -/
def Sys.wakeEngines (c : Nat) (y : Sys) : Sys :=
  match (y.core c).run with
  | none => y
  | some r =>
    match r.wait with
    | .engines m => if r.cmds.all (fun k => (k.mask &&& m) == 0) then y.resumeWait c id else y
    | .tile => if r.cmds.isEmpty then (y.resumeWait c id).boundary c else y
    | .tileOpen => if r.cmds.isEmpty then (y.modRun c fun r => { r with wait := .none }).boundary c else y
    | .ticket _ | .mbox _ _ _ => if r.cmds.isEmpty then y.boundary c else y
    | .sem _ => if r.cmds.isEmpty then (y.boundary c).yieldCore c else y
    | _ => y

end Sys2Proof.Machine
end

