-- ==== Sys2Proof/Machine/Awl.lean ====
section
/-! DEFINITION. The scalar Awl instructions (R77 to R83, R458), the engine commands that only wait or queue (R74, R76, R457), semaphores,
remote waits and the end of a sliver as instructions. -/

namespace Sys2Proof.Machine

/-! ### Stall pool as a core sees it (R93, R286) -/

/-- The 64 bytes of a mailbox entry (R286). -/
def Mbox.bytes (m : Mbox) : List Byte :=
  leBytes 4 (putb m.pending 0 + putb m.full 1 + putb m.parked 2 + putb m.orphan 3 + put m.status 8 8 + put m.tag 16 16) ++
  leBytes 4 (put m.data.length 0 6 + putb m.srcDie 6) ++ padTo 56 m.data

/-- A mailbox entry from its 64 bytes; reserved bits are dropped. -/
def Mbox.ofBytes (bs : List Byte) : Mbox :=
  let w := wordAt bs 0
  let v := wordAt bs 1
  { pending := bitAt w 0, full := bitAt w 1, parked := bitAt w 2, orphan := bitAt w 3, status := fld w 8 8, tag := fld w 16 16,
    srcDie := bitAt v 6, data := (bs.drop 8).take (min 56 (fld v 0 6)) }

/-- First pool address of the mailbox (R286). -/
def mboxBase : Nat := 0xFC000

/-- A pool range lies in the data region (R93). -/
def poolOk (a n : Nat) : Bool := decide (0x40000 ≤ a ∧ a + n ≤ 0x100000)

/-- n bytes of a stall's pool data region, the mailbox entries at their addresses. -/
def Sys.poolRead (y : Sys) (s a n : Nat) : List Byte :=
  if a + n ≤ mboxBase then (y.stall s).pool.read poolGr a n
  else (List.range n).map fun i =>
    let x := a + i
    if x < mboxBase then ((y.stall s).pool.read poolGr x 1).getD 0 0
    else (tget {} (y.stall s).mbox ((x - mboxBase) / 64)).bytes.getD ((x - mboxBase) % 64) 0

/-- A range of a stall's pool touches a granule that faults on every read (R400 SHARED_DATA). -/
def Sys.poolBad (y : Sys) (s a n : Nat) : Bool :=
  n != 0 && (y.stall s).badPool.any fun b => decide (a / 256 ≤ b / 256 ∧ b / 256 ≤ (a + n - 1) / 256)

/-- Bytes written to a stall's pool data region. -/
def Sys.poolWrite (s a : Nat) (bs : List Byte) (y : Sys) : Sys :=
  let y := if (y.stall s).badPool.isEmpty then y
    else y.modStall s fun k => { k with badPool := k.badPool.filter fun b => !decide (a ≤ b ∧ b < a + bs.length) }
  if a + bs.length ≤ mboxBase then y.modStall s fun k => { k with pool := k.pool.write poolGr a bs }
  else bs.zipIdx.foldl (fun y p =>
    let x := a + p.2
    if x < mboxBase then y.modStall s fun k => { k with pool := k.pool.write poolGr x [p.1] }
    else y.modStall s fun k =>
      { k with mbox := tmod {} k.mbox ((x - mboxBase) / 64) fun m => Mbox.ofBytes (m.bytes.set ((x - mboxBase) % 64) p.1) }) y

/-- A local store range lies below 0x4000 (R81). -/
def lsOk (a n : Nat) : Bool := decide (a + n ≤ 0x4000)

/-- A local store access in program order: the interlock first, then f on the sliver as it stands then (R82). -/
def Sys.access (c a n : Nat) (f : Run → Sys → Sys) (y : Sys) : Sys :=
  let y := y.interlock c a n
  match (y.core c).run with
  | some r => f r y
  | none => y

/-! ### Arithmetic -/

/-- A scalar operation: xd takes a value of the registers, and the next word follows. -/
def alu (c d : Nat) (f : Run → Word) (s : State) : Res := onSys (Sys.awl c fun r y => y.retire c (r.setx d (f r))) s

/-- A truth value as a register takes it. -/
def flag (b : Bool) : Word := if b then 1 else 0

/-- Leading zeros of a word, 0 to 32 (R78 CLZ). -/
def clz (w : Word) : Nat := if w.toNat = 0 then 32 else 31 - Nat.log2 w.toNat

/-- imm14 sign-extended (R77). -/
def immS (imm : BitVec 14) : Word := imm.signExtend 32
/-- imm14 zero-extended (R77: ANDI, ORI, XORI). -/
def immZ (imm : BitVec 14) : Word := imm.zeroExtend 32
/-- imm14[4:0] (R77: shifts). -/
def immSh (imm : BitVec 14) : Nat := imm.toNat % 32

def execAdd (core d a b : Nat) (s : State) : Res := alu core d (fun r => r.x a + r.x b) s
def execSub (core d a b : Nat) (s : State) : Res := alu core d (fun r => r.x a - r.x b) s
def execAnd (core d a b : Nat) (s : State) : Res := alu core d (fun r => r.x a &&& r.x b) s
def execOr (core d a b : Nat) (s : State) : Res := alu core d (fun r => r.x a ||| r.x b) s
def execXor (core d a b : Nat) (s : State) : Res := alu core d (fun r => r.x a ^^^ r.x b) s
def execShl (core d a b : Nat) (s : State) : Res := alu core d (fun r => r.x a <<< ((r.x b).toNat % 32)) s
def execShr (core d a b : Nat) (s : State) : Res := alu core d (fun r => r.x a >>> ((r.x b).toNat % 32)) s
def execSra (core d a b : Nat) (s : State) : Res := alu core d (fun r => (r.x a).sshiftRight ((r.x b).toNat % 32)) s
def execMul (core d a b : Nat) (s : State) : Res := alu core d (fun r => r.x a * r.x b) s
def execMulh (core d a b : Nat) (s : State) : Res :=
  alu core d (fun r => BitVec.ofInt 32 ((r.x a).toInt * (r.x b).toInt / 2 ^ 32)) s
def execMulhu (core d a b : Nat) (s : State) : Res :=
  alu core d (fun r => BitVec.ofNat 32 ((r.x a).toNat * (r.x b).toNat / 2 ^ 32)) s
def execSlt (core d a b : Nat) (s : State) : Res := alu core d (fun r => flag ((r.x a).slt (r.x b))) s
def execSltu (core d a b : Nat) (s : State) : Res := alu core d (fun r => flag ((r.x a).ult (r.x b))) s
def execMin (core d a b : Nat) (s : State) : Res := alu core d (fun r => if (r.x b).slt (r.x a) then r.x b else r.x a) s
def execMax (core d a b : Nat) (s : State) : Res := alu core d (fun r => if (r.x a).slt (r.x b) then r.x b else r.x a) s
def execClz (core d a : Nat) (s : State) : Res := alu core d (fun r => BitVec.ofNat 32 (clz (r.x a))) s
def execPopc (core d a : Nat) (s : State) : Res := alu core d (fun r => BitVec.ofNat 32 (popcount 32 (r.x a).toNat)) s
def execAddi (core d a : Nat) (imm : BitVec 14) (s : State) : Res := alu core d (fun r => r.x a + immS imm) s
def execAndi (core d a : Nat) (imm : BitVec 14) (s : State) : Res := alu core d (fun r => r.x a &&& immZ imm) s
def execOri (core d a : Nat) (imm : BitVec 14) (s : State) : Res := alu core d (fun r => r.x a ||| immZ imm) s
def execXori (core d a : Nat) (imm : BitVec 14) (s : State) : Res := alu core d (fun r => r.x a ^^^ immZ imm) s
def execShli (core d a : Nat) (imm : BitVec 14) (s : State) : Res := alu core d (fun r => r.x a <<< immSh imm) s
def execShri (core d a : Nat) (imm : BitVec 14) (s : State) : Res := alu core d (fun r => r.x a >>> immSh imm) s
def execSrai (core d a : Nat) (imm : BitVec 14) (s : State) : Res := alu core d (fun r => (r.x a).sshiftRight (immSh imm)) s
def execSlti (core d a : Nat) (imm : BitVec 14) (s : State) : Res := alu core d (fun r => flag ((r.x a).slt (immS imm))) s
def execLui (core d : Nat) (imm19 : BitVec 19) (s : State) : Res := alu core d (fun _ => BitVec.ofNat 32 (imm19.toNat * 8192)) s

/-! ### Loads and stores -/

/-- A local store load of n bytes, zero-extended (R78, R81). -/
def loadLs (n c d a : Nat) (imm : BitVec 14) (s : State) : Res :=
  onSys (Sys.awl c fun r y =>
    let p := (r.x a + immS imm).toNat
    if p % n = 0 ∧ lsOk p n = true then
      y.access c p n fun r y => y.retire c (r.setx d (BitVec.ofNat 32 (leNat (y.lsRead c p n))))
    else y.failCore c 0x10) s

/-- A local store store of n bytes (R78, R81). -/
def storeLs (n c d a : Nat) (imm : BitVec 14) (s : State) : Res :=
  onSys (Sys.awl c fun r y =>
    let p := (r.x a + immS imm).toNat
    if p % n = 0 ∧ lsOk p n = true then
      y.access c p n fun r y => (y.lsWrite c p (leBytes n (r.x d).toNat)).retire c r
    else y.failCore c 0x10) s

def execLdw (core d a : Nat) (imm : BitVec 14) (s : State) : Res := loadLs 4 core d a imm s
def execLdh (core d a : Nat) (imm : BitVec 14) (s : State) : Res := loadLs 2 core d a imm s
def execLdb (core d a : Nat) (imm : BitVec 14) (s : State) : Res := loadLs 1 core d a imm s
def execStw (core d a : Nat) (imm : BitVec 14) (s : State) : Res := storeLs 4 core d a imm s
def execSth (core d a : Nat) (imm : BitVec 14) (s : State) : Res := storeLs 2 core d a imm s
def execStb (core d a : Nat) (imm : BitVec 14) (s : State) : Res := storeLs 1 core d a imm s

/-- LDP: a stall pool word (R78). -/
def execLdp (core d a : Nat) (imm : BitVec 14) (s : State) : Res :=
  onSys (Sys.awl core fun r y =>
    let p := (r.x a + immS imm).toNat
    if p % 4 = 0 ∧ poolOk p 4 = true then
      if y.poolBad (stallOf core) p 4 then y.failCore core granuleFault
      else y.retire core (r.setx d (BitVec.ofNat 32 (leNat (y.poolRead (stallOf core) p 4))))
    else y.failCore core 0x10) s

/-- STP: a stall pool word (R78). -/
def execStp (core d a : Nat) (imm : BitVec 14) (s : State) : Res :=
  onSys (Sys.awl core fun r y =>
    let p := (r.x a + immS imm).toNat
    if p % 4 = 0 ∧ poolOk p 4 = true then (y.poolWrite (stallOf core) p (leBytes 4 (r.x d).toNat)).retire core r
    else y.failCore core 0x10) s

/-! ### Control flow -/

/-- The address off instructions from the branch's own address (R77). -/
def target (pc : Nat) (off : Int) : Nat := (((pc : Int) + 4 * off) % 2 ^ 32).toNat

/-- A conditional branch (R78). -/
def branch (c : Nat) (off : BitVec 14) (take : Run → Bool) (s : State) : Res :=
  onSys (Sys.awl c fun r y => if take r then y.goTo c r (target r.pc off.toInt) else y.retire c r) s

def execBeq (core a b : Nat) (off : BitVec 14) (s : State) : Res := branch core off (fun r => r.x a == r.x b) s
def execBne (core a b : Nat) (off : BitVec 14) (s : State) : Res := branch core off (fun r => r.x a != r.x b) s
def execBlt (core a b : Nat) (off : BitVec 14) (s : State) : Res := branch core off (fun r => (r.x a).slt (r.x b)) s
def execBge (core a b : Nat) (off : BitVec 14) (s : State) : Res := branch core off (fun r => (r.x b).sle (r.x a)) s
def execBltu (core a b : Nat) (off : BitVec 14) (s : State) : Res := branch core off (fun r => (r.x a).ult (r.x b)) s
def execBgeu (core a b : Nat) (off : BitVec 14) (s : State) : Res := branch core off (fun r => (r.x b).ule (r.x a)) s

def execJmp (core : Nat) (off24 : BitVec 24) (s : State) : Res :=
  onSys (Sys.awl core fun r y => y.goTo core r (target r.pc off24.toInt)) s

def execCall (core : Nat) (off24 : BitVec 24) (s : State) : Res :=
  onSys (Sys.awl core fun r y => y.goTo core (r.setx 31 (BitVec.ofNat 32 (r.pc + 4))) (target r.pc off24.toInt)) s

def execJr (core a : Nat) (s : State) : Res := onSys (Sys.awl core fun r y => y.goTo core r (r.x a).toNat) s

/-- An instruction that breaks R81 by its own bits. -/
def execIllegalInstruction (core : Nat) (s : State) : Res := onSys (Sys.awl core fun _ y => y.failCore core 0x10) s

/-! ### CSRs (R79, R458) -/

/-- The value CSR k shows (R79). -/
def Sys.csr (y : Sys) (r : Run) (k : Nat) : Nat :=
  match k with
  | 0 => r.sliver | 1 => (y.tg r.tg).slivers | 2 => (y.tg r.tg).group | 3 => r.arg | 4 => if r.exact then 1 else 0 | 5 => r.live
  | 6 => r.round | 7 => r.seed.toNat | 8 => r.tensor.toNat | 9 => r.accSat | 10 => r.setCnt | _ => 0

/-- CSRR (R458). ACC_SAT is read after the core's engine commands issued before it, which the sequencer interlocks on (log entry 21). -/
def execCsrr (core d : Nat) (imm : BitVec 14) (s : State) : Res :=
  onSys (Sys.awl core fun _ y =>
    if 16 ≤ imm.toNat then y.failCore core 0x10
    else
      let y := if imm.toNat = 9 then y.forceCmds core (match (y.core core).run with | some r => r.cmds.length | none => 0) else y
      match (y.core core).run with
      | some r => y.retire core (r.setx d (BitVec.ofNat 32 (y.csr r imm.toNat)))
      | none => y) s

/-- CSRW (R79, R81, R458). While a pre-emption request stands, a LIVE above the one at the request waits as a tile boundary (R276). -/
def execCsrw (core a : Nat) (imm : BitVec 14) (s : State) : Res :=
  onSys (Sys.awl core fun r y =>
    let v := (r.x a).toNat
    match imm.toNat with
    | 5 =>
      if v % 64 = 0 ∧ 64 ≤ v ∧ v ≤ 0x4000 then
        match r.pre with
        | some p => if p.live < v then y.boundary core else y.retire core { r with live := v }
        | none => y.retire core { r with live := v }
      else y.failCore core 0x10
    | 6 => if v ≤ 1 then y.retire core { r with round := v } else y.failCore core 0x10
    | 7 => y.retire core { r with seed := r.x a }
    | 8 => y.retire core { r with tensor := r.x a }
    | _ => y.failCore core 0x10) s

/-! ### Waiting and tile boundaries -/

/-- An instruction that waits. -/
def Sys.waitOn (c : Nat) (r : Run) (w : Wait) (y : Sys) : Sys := y.modCore c fun k => { k with run := some { r with wait := w } }

/-- EWAIT (R76). -/
def execEwait (core mask : Nat) (s : State) : Res :=
  onSys (Sys.awl core fun r y => if r.cmds.all (fun k => (k.mask &&& (mask % 16)) == 0) then y.retire core r
    else y.waitOn core r (.engines (mask % 16))) s

/-- TILE (R83): it waits for the core's engine commands, and then is a tile boundary. -/
def execTile (core : Nat) (s : State) : Res :=
  onSys (Sys.awl core fun r y => if r.cmds.isEmpty then (y.retire core r).boundary core else y.waitOn core r .tile) s

/-- The sliver is within a tile (R83): the waits of SEMACQ, DWAIT and RWAIT belong to none once the last engine command has ended, nor does a core
that stands at its boundary for a save, nor an EXIT that has issued. -/
def Core.inTile (k : Core) : Bool :=
  k.st == .running && !k.frozen &&
  (match k.run with
   | none => false
   | some r => match r.wait with
     | .ticket _ | .sem _ | .mbox _ _ _ => !r.cmds.isEmpty
     | .exit _ => false
     | _ => true)

/-- TILE_OVERRUN (R83). -/
def execTileOverrun (core : Nat) (s : State) : Res :=
  onSys (fun y => if (y.core core).inTile then
      (y.modStall (stallOf core) fun k => { k with tileOverruns := satInc k.tileOverruns }).sliverEnd core 0x50 false
    else y) s

/-- The sliver's transfers on a core, none of them ended (R309). -/
def Sys.xfersOf (y : Sys) (c : Nat) : List Xfer :=
  match (y.core c).run with
  | some r => y.dma.xfers.filter fun x => x.core == c && x.tg == r.tg && x.sliver == r.sliver
  | none => []

/-- The core's transfers whose writes are not yet visible. -/
def Sys.hasXfers (y : Sys) (c : Nat) : Bool := !(y.xfersOf c).isEmpty

/-- FENCE (R78): pool writes of a core are visible at once in this model; it waits for the core's transfers. -/
def execFence (core : Nat) (s : State) : Res :=
  onSys (Sys.awl core fun r y => if y.hasXfers core then y.waitOn core r .fence else y.retire core r) s

/-- A ticket lies before the next one to be issued, in the order of R309 (half the number circle). -/
def ticketKnown (next t : Nat) : Bool := decide (1 ≤ (next + 2 ^ 32 - t % 2 ^ 32) % 2 ^ 32 ∧ (next + 2 ^ 32 - t % 2 ^ 32) % 2 ^ 32 ≤ 2 ^ 31)

/-- A ticket has not ended. -/
def Sys.ticketOpen (y : Sys) (c t : Nat) : Bool := (y.xfersOf c).any fun x => x.ticket == t

/-- DWAIT (R78, R83). -/
def execDwait (core a : Nat) (s : State) : Res :=
  onSys (Sys.awl core fun r y =>
    let t := (r.x a).toNat
    if !ticketKnown r.tickets t then y.failCore core 0x10
    else if y.ticketOpen core t then (y.waitOn core r (.ticket t)).boundary core
    else (y.retire core r).boundary core) s

/-! ### Semaphores (R282, R283, R306, R307) -/

/-- SEMACQ (R306): it is granted at once when its request is the oldest and tokens suffice; else it waits at a tile boundary. -/
def execSemacq (core a : Nat) (s : State) : Res :=
  onSys (Sys.awl core fun r y =>
    let n := (r.x a).toNat % 4096
    if (y.sem n).total = 0 then y.failCore core 0x10 else
    let w : SemHolder := .sliver r.tg r.sliver
    let y := y.semRequest n { who := w, all := bitAt (r.x a).toNat 12 }
    let q := if (y.sem n).waits.length = 1 then y.semGrant n else (y.limitZero n, none)
    match q with
    | (y, some _) => (y.retire core r).boundary core
    | (y, none) => ((y.waitOn core r (.sem n)).boundary core).yieldCore core) s

/-- SEMREL (R307). -/
def execSemrel (core a : Nat) (s : State) : Res :=
  onSys (Sys.awl core fun r y =>
    match y.semRelease ((r.x a).toNat % 4096) (.sliver r.tg r.sliver) with
    | (y, true) => y.retire core r
    | (y, false) => y.failCore core 0x10) s

/-! ### Remote waits (R287) -/

/-- A full mailbox entry is collected: payload to the local store, length to xd, entry cleared, credit returned (R287). -/
def Sys.collect (c s e d b : Nat) (y : Sys) : Sys :=
  if (y.core c).run.isNone then y else
    let m := tget {} (y.stall s).mbox e
    let y := (y.modStall s fun k => { k with mbox := tset k.mbox e {} }).modPool 2 4 (Pool.give 1)
    if m.status ≠ 0 then y.failCore c m.status
    else if !lsOk b m.data.length then y.failCore c 0x10
    else y.access c b m.data.length fun r' y =>
      ((y.lsWrite c b m.data).retire c ({ r' with wait := .none }.setx d (BitVec.ofNat 32 m.data.length))).boundary c

/-- RWAIT (R287). -/
def execRwait (core d a b : Nat) (s : State) : Res :=
  onSys (Sys.awl core fun r y =>
    let e := (r.x a).toNat
    let m := tget {} (y.stall (stallOf core)).mbox e
    if 256 ≤ e ∨ y.glob.config = 0 ∨ (m.pending = false ∧ m.full = false) then y.failCore core 0x10
    else if m.full then y.collect core (stallOf core) e d (r.x b).toNat
    else (y.waitOn core r (.mbox e d (r.x b).toNat)).boundary core) s

/-! ### EXIT (R95) -/

/-- EXIT's value (R95). -/
def exitValue (v : Nat) : Nat := if v = 0 ∨ v = 0x11 ∨ v = 0x21 then v else 0x10

/-- The sliver's status (R95, R12). -/
def Run.exitStatus (r : Run) (v : Nat) : Nat := statusOf [exitValue v, if r.accSat ≠ 0 then 0x21 else 0, r.codes]

/-- EXIT: the core's engine commands end first; its transfers are waited for (log entry 15). -/
def execExit (core a : Nat) (s : State) : Res :=
  onSys (Sys.awl core fun r y =>
    let v := (r.x a).toNat % 256
    let y := y.forceCmds core r.cmds.length
    match (y.core core).run with
    | none => y
    | some r => if y.hasXfers core then y.waitOn core r (.exit (r.exitStatus v)) else y.sliverEnd core (r.exitStatus v) false) s

/-! ### Engine commands (R74, R76, R457) -/

/-- A command joins the core's engine commands. An EZERO or ESWAP that names no engine has nothing to wait for and ends at once. -/
def Sys.issueCmd (c : Nat) (k : EngCmd) (y : Sys) : Sys :=
  match (y.core c).run with
  | some r => y.retire c { r with cmds := if k.mask = 0 ∧ (k.kind = .zero ∨ k.kind = .swap) then r.cmds else r.cmds ++ [k] }
  | none => y

/-- With EXACT=0 an idle core may take the second half of the steps of an EMMA or ECONV (R97): whether one does, and which half ends first, is
open (log entry 74). -/
def Sys.steal (r : Run) (k : EngCmd) (y : Sys) : Sys × EngCmd :=
  if r.exact || (y.freeCores (y.ctx (y.tg r.tg).ctx).domain).isEmpty then (y, k)
  else (y.tick, { k with steal := Config.freeNat y.chance % 3 })

/-- An EMMA or ECONV joins the core's engine commands. -/
def Sys.issueMac (c : Nat) (k : EngCmd) (y : Sys) : Sys :=
  match (y.core c).run with
  | some r => let q := y.steal r k; q.1.issueCmd c q.2
  | none => y

/-- EMMA (R76): captured at issue (R82). -/
def execEmma (core a : Nat) (s : State) : Res :=
  onSys (Sys.awl core fun r y =>
    let p := (r.x a).toNat
    if p % 4 ≠ 0 ∨ lsOk p 16 = false then y.failCore core 0x10
    else y.access core 0 0x4000 fun r y =>
      match parseEmma (y.lsRead core p 16) with
      | none => y.failCore core 0x10
      | some d =>
        match captureEmma (fun a n => y.lsRead core a n) d r.round r.seed.toNat r.tensor.toNat with
          | none => y.failCore core 0x10
          | some k => y.issueMac core k) s

def execEzero (core mask : Nat) (s : State) : Res :=
  onSys (Sys.awl core fun _ y => y.issueCmd core { kind := .zero, mask := mask % 16 }) s

def execEswap (core mask : Nat) (s : State) : Res :=
  onSys (Sys.awl core fun _ y => y.issueCmd core { kind := .swap, mask := mask % 16 }) s

/-- EDRAIN (R76, R457): its address is checked at issue. -/
def execEdrain (core a mask : Nat) (s : State) : Res :=
  onSys (Sys.awl core fun r y =>
    let p := (r.x a).toNat
    if p % 4 ≠ 0 ∨ lsOk p (64 * popcount 4 mask) = false then y.failCore core 0x10
    else y.access core p (64 * popcount 4 mask) fun _ y => y.issueCmd core { kind := .drain, mask := mask % 16, addr := p }) s

/-- The oldest command of a kind that may be carried out ends (R457); what waits on it goes on. -/
def Sys.endCmd (k : EngKind) (c : Nat) (y : Sys) : Sys :=
  match (y.core c).run with
  | none => y
  | some r =>
    match nextCmd k r.cmds with
    | none => y
    | some i =>
      match r.cmds[i]? with
      | none => y
      | some cmd =>
        let y := y.modCore c fun q => (q.applyCmd cmd)
        let y := (y.modRun c fun r => { r with cmds := r.cmds.eraseIdx i }).modStall (stallOf c) fun s =>
          { s with expSat := satAdd s.expSat cmd.expSat }
        if cmd.malformed then y.failCore c 0x10 else y.wakeEngines c

/-- One engine of the oldest queued EZERO or ESWAP that may act on it carries it out (R457). -/
def Sys.applyOn (k : EngKind) (c e : Nat) (y : Sys) : Sys :=
  match (y.core c).run with
  | none => y
  | some r =>
    let may := fun i => match r.cmds[i]? with
      | some q => q.kind == k && bitAt q.mask e &&
          eligible ((r.cmds.take i).map fun p => { p with mask := p.mask &&& 2 ^ e }) { q with mask := 2 ^ e }
      | none => false
    match (List.range r.cmds.length).find? may with
    | none => y
    | some i =>
      match r.cmds[i]? with
      | none => y
      | some q =>
        let q' := { q with mask := clrBit q.mask e }
        let y := y.modRun c fun r =>
          { r.applyEngine q e with cmds := if q'.mask = 0 then r.cmds.eraseIdx i else r.cmds.set i q' }
        y.wakeEngines c

def execEmmaEnd (core : Nat) (s : State) : Res := onSys (Sys.endCmd .mac core) s
def execEconvEnd (core : Nat) (s : State) : Res := onSys (Sys.endCmd .conv core) s
def execEdrainEnd (core : Nat) (s : State) : Res := onSys (Sys.endCmd .drain core) s
def execEzeroApply (core engine : Nat) (s : State) : Res := onSys (Sys.applyOn .zero core (engine % 4)) s
def execEswapApply (core engine : Nat) (s : State) : Res := onSys (Sys.applyOn .swap core (engine % 4)) s

end Sys2Proof.Machine
end

