-- ==== Sys2Proof/Machine/Pixels.lean ====
section
/-! DEFINITION. Pixel and texel formats (R181, R190, R194, R249): decoding to FP32, encoding by RNE. -/

namespace Sys2Proof.Machine

/-- The FP32 value of a fraction n / d, d > 0. -/
def f32Frac (n d : Nat) : Nat := (fp32.round .rne n d 0).1

/-- RNE of a non-negative rational n / d to an integer. -/
def rneDiv (n d : Nat) : Nat :=
  let q := n / d
  let r := n % d
  if d < 2 * r ∨ (2 * r = d ∧ q % 2 = 1) then q + 1 else q

/-- A component clamped to [0, 1] and encoded in m bits by RNE (R190, R249); a NaN takes the given value. -/
def unormOf (m w nan : Nat) : Nat :=
  if isNaN w then nan
  else if bitAt w 31 then 0
  else if 0x3F800000 ≤ w then 2 ^ m - 1
  else
    let d := f32Val w
    let n := d.m.natAbs * (2 ^ m - 1)
    if d.e ≥ 0 then n * 2 ^ d.e.toNat else rneDiv n (2 ^ (-d.e).toNat)

/-- sRGB code thresholds: the square of the comparison c ≤ ((y + 0.055) / 1.055)^2.4 for y = a / 510, on a / 510 > 0.04045 (log entry 25):
v^5 against the 12th power, v = n / d. -/
def srgbGe (n d a : Nat) : Bool :=
  -- v ≥ decode(a / 510)
  if a * 100000 ≤ 510 * 4045 then decide (a * 100 * d ≤ 510 * 1292 * n)
  else decide ((a * 1000 + 510 * 55) ^ 12 * d ^ 5 ≤ n ^ 5 * (510 * 1055) ^ 12)

/-- The 8-bit sRGB code of a value by rounding its encoding (R190): the number of half steps it reaches; a NaN takes the given value. -/
def srgbOf (w nan : Nat) : Nat :=
  if isNaN w then nan
  else if bitAt w 31 then 0
  else if 0x3F800000 ≤ w then 255
  else
    let d := f32Val w
    let n := if d.e ≥ 0 then d.m.natAbs * 2 ^ d.e.toNat else d.m.natAbs
    let den := if d.e ≥ 0 then 1 else 2 ^ (-d.e).toNat
    ((List.range 255).filter fun k => srgbGe n den (2 * k + 1)).length

/-- The FP32 value nearest below or at the exact decoding of sRGB code k, found bit by bit over the encodings (log entry 25). -/
def srgbVal (k : Nat) : Nat :=
  if k = 0 then 0 else if 255 ≤ k then 0x3F800000 else
  let le := fun (w : Nat) => -- the encoding's value is ≤ decode(k / 255)
    let d := f32Val w
    let n := if d.e ≥ 0 then d.m.natAbs * 2 ^ d.e.toNat else d.m.natAbs
    let den := if d.e ≥ 0 then 1 else 2 ^ (-d.e).toNat
    if k * 100000 ≤ 255 * 4045 then decide (n * (255 * 1292) ≤ k * 100 * den)
    else decide (n ^ 5 * (255 * 1055) ^ 12 ≤ (k * 1000 + 255 * 55) ^ 12 * den ^ 5)
  let lo := ((List.range 30).reverse).foldl (fun a i => if le (a + 2 ^ i) then a + 2 ^ i else a) 0
  -- round to nearest: compare the midpoint with the next encoding
  let a := f32Val lo
  let b := f32Val (lo + 1)
  let s := a.add b
  let mid : Dy := ⟨s.m, s.e - 1⟩
  let n := if mid.e ≥ 0 then mid.m.natAbs * 2 ^ mid.e.toNat else mid.m.natAbs
  let den := if mid.e ≥ 0 then 1 else 2 ^ (-mid.e).toNat
  let midLe := if k * 100000 ≤ 255 * 4045 then decide (n * (255 * 1292) ≤ k * 100 * den)
    else decide (n ^ 5 * (255 * 1055) ^ 12 ≤ (k * 1000 + 255 * 55) ^ 12 * den ^ 5)
  if midLe then lo + 1 else lo

/-- Unsigned small floats of R11G11B10F: 6 and 5 fraction bits, exponent bias 15. -/
def uf11 : Fmt := ⟨7, -20, 0x7BF⟩
def uf10 : Fmt := ⟨6, -19, 0x3DF⟩

/-- A small IEEE-like float (fraction width p − 1, sign at bit s when signed) decoded to FP32. -/
def smallVal (f : Fmt) (inf : Nat) (signed : Bool) (s w : Nat) : Nat :=
  let mag := w % 2 ^ s
  let neg := signed && bitAt w s
  if inf < mag then qNaN else if mag = inf then infOf neg
  else let d := f.dec mag; if d.1 = 0 then zeroOf neg else (fp32.round .rne d.1 1 d.2).1 + putb neg 31

/-- FP32 to a small float by RNE, overflowing to its infinity; unsigned formats take negative values as 0. -/
def smallOf (f : Fmt) (inf nan : Nat) (signed : Bool) (s w : Nat) : Nat :=
  if isNaN w then nan
  else if bitAt w 31 && !signed then 0
  else if isInf w then inf + putb (bitAt w 31) s
  else
    let d := fp32.dec (w % 2 ^ 31)
    let r := f.round .rne d.1 1 d.2
    (if r.2 then inf else r.1) + putb (bitAt w 31) s

def halfVal (w : Nat) : Nat := smallVal fp16 0x7C00 true 15 w
def halfOf (w : Nat) : Nat := smallOf fp16 0x7C00 0x7E00 true 15 w

/-- Bytes of a sample of a colour format (R181). -/
def colorBytes (fmt : Nat) : Nat := if fmt = 2 then 8 else 4

/-- A colour sample decoded to four FP32 values (R181, R190). -/
def colorDec (fmt : Nat) (bs : List Byte) : List Nat :=
  let b := fun i => (bs.getD i 0).toNat
  let w := leNat (bs.take 4)
  match fmt with
  | 0 => (List.range 4).map fun i => f32Frac (b i) 255
  | 1 => [srgbVal (b 0), srgbVal (b 1), srgbVal (b 2), f32Frac (b 3) 255]
  | 2 => (List.range 4).map fun i => halfVal (b (2 * i) + 256 * b (2 * i + 1))
  | 3 => [smallVal uf11 0x7C0 false 11 (fld w 0 11), smallVal uf11 0x7C0 false 11 (fld w 11 11), smallVal uf10 0x3E0 false 10 (fld w 22 10), 0x3F800000]
  | _ => [w, 0, 0, 0x3F800000]

/-- Four FP32 values encoded as a colour sample by RNE (R190); what a NaN encodes to in an integer format is open. -/
def colorEnc (fmt : Nat) (c : List Nat) : List Byte :=
  let v := fun i => c.getD i 0
  let nan := (Config.freeWord fmt).toNat % 256
  match fmt with
  | 0 => (List.range 4).flatMap fun i => leBytes 1 (unormOf 8 (v i) nan)
  | 1 => leBytes 1 (srgbOf (v 0) nan) ++ leBytes 1 (srgbOf (v 1) nan) ++ leBytes 1 (srgbOf (v 2) nan) ++ leBytes 1 (unormOf 8 (v 3) nan)
  | 2 => (List.range 4).flatMap fun i => leBytes 2 (halfOf (v i))
  | 3 => leBytes 4 (smallOf uf11 0x7C0 0x7C1 false 11 (v 0) + 2 ^ 11 * smallOf uf11 0x7C0 0x7C1 false 11 (v 1)
      + 2 ^ 22 * smallOf uf10 0x3E0 0x3E1 false 10 (v 2))
  | _ => leBytes 4 (v 0)

end Sys2Proof.Machine
end

