-- ==== Sys2Proof/Machine/BlockTex.lean ====
section
/-! DEFINITION. Texels of the block-compressed formats BC1, BC4, BC5 and BC7 (R194). The spec gives these formats by name, decoded as they define; the layouts
here are theirs (PRESUMED, log entry 6). A channel a format does not hold is none. -/

namespace Sys2Proof.Machine

/-- n bits of a block from bit k on. -/
def blockBits (b k n : Nat) : Nat := b / 2 ^ k % 2 ^ n

/-! ### BC1 -/

/-- The largest values of the three channels of a 5:6:5 colour. -/
def max565 : List Nat := [31, 63, 31]

/-- The channels of a 5:6:5 colour. -/
def rgb565 (c : Nat) : List Nat := [blockBits c 11 5, blockBits c 5 6, blockBits c 0 5]

/-- Texel t of a BC1 block: two colours, and two between them or one and transparent black. -/
def bc1Texel (b t : Nat) : List (Option Nat) :=
  let c0 := blockBits b 0 16
  let c1 := blockBits b 16 16
  let k := blockBits b (32 + 2 * t) 2
  let mix := fun (x y d : Nat) => ((rgb565 c0).zip (rgb565 c1)).zip max565 |>.map fun q => some (f32Frac (x * q.1.1 + y * q.1.2) (d * q.2))
  if k = 0 then mix 1 0 1 ++ [some 0x3F800000]
  else if k = 1 then mix 0 1 1 ++ [some 0x3F800000]
  else if c1 < c0 then (if k = 2 then mix 2 1 3 else mix 1 2 3) ++ [some 0x3F800000]
  else if k = 2 then mix 1 1 2 ++ [some 0x3F800000]
  else [some 0, some 0, some 0, some 0]

/-! ### BC4 and BC5 -/

/-- Texel t of a single-channel block: two values and six between them, or four between them, 0 and 1. -/
def bc4Value (b t : Nat) : Nat :=
  let e0 := blockBits b 0 8
  let e1 := blockBits b 8 8
  let k := blockBits b (16 + 3 * t) 3
  if k = 0 then f32Frac e0 255
  else if k = 1 then f32Frac e1 255
  else if e1 < e0 then f32Frac ((8 - k) * e0 + (k - 1) * e1) (7 * 255)
  else if k = 6 then 0
  else if k = 7 then 0x3F800000
  else f32Frac ((6 - k) * e0 + (k - 1) * e1) (5 * 255)

/-! ### BC7 -/

/-- The bits of a BC7 mode: subsets, partition, rotation, index selection, colour, alpha, a p-bit for each endpoint, one for each subset, index and
second index. -/
structure Bc7Mode where
  subsets : Nat
  part : Nat
  rot : Nat
  sel : Nat
  color : Nat
  alpha : Nat
  pEach : Nat
  pShared : Nat
  idx : Nat
  idx2 : Nat

/-- The eight modes. -/
def bc7Modes : List Bc7Mode :=
  [⟨3, 4, 0, 0, 4, 0, 1, 0, 3, 0⟩, ⟨2, 6, 0, 0, 6, 0, 0, 1, 3, 0⟩, ⟨3, 6, 0, 0, 5, 0, 0, 0, 2, 0⟩, ⟨2, 6, 0, 0, 7, 0, 1, 0, 2, 0⟩,
   ⟨1, 0, 2, 1, 5, 6, 0, 0, 2, 3⟩, ⟨1, 0, 2, 0, 7, 8, 0, 0, 2, 2⟩, ⟨1, 0, 0, 0, 7, 7, 1, 0, 4, 0⟩, ⟨2, 6, 0, 0, 5, 5, 1, 0, 2, 0⟩]

/-- The 64 partitions into two subsets: bit t is the subset of texel t. -/
def bc7Two : List Nat :=
  [0xCCCC, 0x8888, 0xEEEE, 0xECC8, 0xC880, 0xFEEC, 0xFEC8, 0xEC80, 0xC800, 0xFFEC, 0xFE80, 0xE800, 0xFFE8, 0xFF00, 0xFFF0, 0xF000] ++
  [0xF710, 0x008E, 0x7100, 0x08CE, 0x008C, 0x7310, 0x3100, 0x8CCE, 0x088C, 0x3110, 0x6666, 0x366C, 0x17E8, 0x0FF0, 0x718E, 0x399C] ++
  [0xAAAA, 0xF0F0, 0x5A5A, 0x33CC, 0x3C3C, 0x55AA, 0x9696, 0xA55A, 0x73CE, 0x13C8, 0x324C, 0x3BDC, 0x6996, 0xC33C, 0x9966, 0x0660] ++
  [0x0272, 0x04E4, 0x4E40, 0x2720, 0xC936, 0x936C, 0x39C6, 0x639C, 0x9336, 0x9CC6, 0x817E, 0xE718, 0xCCF0, 0x0FCC, 0x7744, 0xEE22]

/-- The anchor texel of their second subset. -/
def bc7TwoAnchor : List Nat :=
  [15, 15, 15, 15, 15, 15, 15, 15, 15, 15, 15, 15, 15, 15, 15, 15, 15, 2, 8, 2, 2, 8, 8, 15, 2, 8, 2, 2, 8, 8, 2, 2] ++
  [15, 15, 6, 8, 2, 8, 15, 15, 2, 8, 2, 2, 2, 15, 15, 6, 6, 2, 6, 8, 15, 15, 2, 2, 15, 15, 15, 15, 15, 2, 2, 15]

/-- The 64 partitions into three subsets: bits 2t + 1 and 2t are the subset of texel t. -/
def bc7Three : List Nat :=
  [0xAA685050, 0x6A5A5040, 0x5A5A4200, 0x5450A0A8, 0xA5A50000, 0xA0A05050, 0x5555A0A0, 0x5A5A5050] ++
  [0xAA550000, 0xAA555500, 0xAAAA5500, 0x90909090, 0x94949494, 0xA4A4A4A4, 0xA9A59450, 0x2A0A4250] ++
  [0xA5945040, 0x0A425054, 0xA5A5A500, 0x55A0A0A0, 0xA8A85454, 0x6A6A4040, 0xA4A45000, 0x1A1A0500] ++
  [0x0050A4A4, 0xAAA59090, 0x14696914, 0x69691400, 0xA08585A0, 0xAA821414, 0x50A4A450, 0x6A5A0200] ++
  [0xA9A58000, 0x5090A0A8, 0xA8A09050, 0x24242424, 0x00AA5500, 0x24924924, 0x24499224, 0x50A50A50] ++
  [0x500AA550, 0xAAAA4444, 0x66660000, 0xA5A0A5A0, 0x50A050A0, 0x69286928, 0x44AAAA44, 0x66666600] ++
  [0xAA444444, 0x54A854A8, 0x95809580, 0x96969600, 0xA85454A8, 0x80959580, 0xAA141414, 0x96960000] ++
  [0xAAAA1414, 0xA05050A0, 0xA0A5A5A0, 0x96000000, 0x40804080, 0xA9A8A9A8, 0xAAAAAA44, 0x2A4A5254]

/-- The anchor texels of their second and of their third subset. -/
def bc7ThreeAnchor1 : List Nat :=
  [3, 3, 15, 15, 8, 3, 15, 15, 8, 8, 6, 6, 6, 5, 3, 3, 3, 3, 8, 15, 3, 3, 6, 10, 5, 8, 8, 6, 8, 5, 15, 15] ++
  [8, 15, 3, 5, 6, 10, 8, 15, 15, 3, 15, 5, 15, 15, 15, 15, 3, 15, 5, 5, 5, 8, 5, 10, 5, 10, 8, 13, 15, 12, 3, 3]

def bc7ThreeAnchor2 : List Nat :=
  [15, 8, 8, 3, 15, 15, 3, 8, 15, 15, 15, 15, 15, 15, 15, 8, 15, 8, 15, 3, 15, 8, 15, 8, 3, 15, 6, 10, 15, 15, 10, 8] ++
  [15, 3, 15, 10, 10, 8, 9, 10, 6, 15, 8, 15, 3, 6, 6, 8, 15, 3, 15, 15, 15, 15, 15, 15, 15, 15, 15, 15, 3, 15, 15, 8]

/-- The subset of texel t. -/
def bc7Subset (n part t : Nat) : Nat :=
  match n with
  | 2 => blockBits (bc7Two.getD part 0) t 1
  | 3 => blockBits (bc7Three.getD part 0) (2 * t) 2
  | _ => 0

/-- The texels whose index has one bit less. -/
def bc7Anchors (n part : Nat) : List Nat :=
  match n with
  | 2 => [0, bc7TwoAnchor.getD part 0]
  | 3 => [0, bc7ThreeAnchor1.getD part 0, bc7ThreeAnchor2.getD part 0]
  | _ => [0]

/-- Weights of an index of n bits, in 1/64. -/
def bc7Weights (n : Nat) : List Nat :=
  match n with
  | 2 => [0, 21, 43, 64]
  | 3 => [0, 9, 18, 27, 37, 46, 55, 64]
  | _ => [0, 4, 9, 13, 17, 21, 26, 30, 34, 38, 43, 47, 51, 55, 60, 64]

/-- A value of n bits widened to 8 by repeating its high bits. -/
def widen8 (v n : Nat) : Nat := let w := v * 2 ^ (8 - n); w + w / 2 ^ n

/-- The index of texel t in index data of n bits a texel from bit k on. -/
def bc7Index (b k n : Nat) (anchors : List Nat) (t : Nat) : Nat :=
  blockBits b (k + n * t - (anchors.filter (· < t)).length) (if anchors.contains t then n - 1 else n)

/-- Bits of the mode that lie before the endpoints: the mode's own, partition, rotation, index selection. -/
def Bc7Mode.head (m : Bc7Mode) (n : Nat) : Nat := n + 1 + m.part + m.rot + m.sel

/-- Bits of all colour and alpha endpoints, and of the p-bits. -/
def Bc7Mode.ends (m : Bc7Mode) : Nat := 2 * m.subsets * (3 * m.color + m.alpha)
def Bc7Mode.pBits (m : Bc7Mode) : Nat := 2 * m.subsets * m.pEach + m.subsets * m.pShared

/-- Endpoint e (0 or 1) of a subset in channel c, as 8 bits. -/
def Bc7Mode.endpoint (m : Bc7Mode) (n b s e c : Nat) : Nat :=
  let n0 := m.head n
  let i := 2 * s + e
  let bits := if c < 3 then m.color else m.alpha
  if bits = 0 then 255 else
  let raw := blockBits b (n0 + 2 * m.subsets * m.color * c + i * bits) bits
  let p := n0 + m.ends + (if m.pEach = 1 then i else s)
  if m.pEach + m.pShared = 0 then widen8 raw bits else widen8 (2 * raw + blockBits b p 1) (bits + 1)

/-- Texel t of a BC7 block of mode n, four channels of 8 bits. -/
def Bc7Mode.texel (m : Bc7Mode) (n b t : Nat) : List Nat :=
  let part := blockBits b (n + 1) m.part
  let rot := blockBits b (n + 1 + m.part) m.rot
  let sel := blockBits b (n + 1 + m.part + m.rot) m.sel
  let s := bc7Subset m.subsets part t
  let k := m.head n + m.ends + m.pBits
  let anchors := bc7Anchors m.subsets part
  let first := (bc7Index b k m.idx anchors t, m.idx)
  let second := if m.idx2 = 0 then first else (bc7Index b (k + 16 * m.idx - anchors.length) m.idx2 anchors t, m.idx2)
  let mix := fun (i : Nat × Nat) (c : Nat) =>
    let w := (bc7Weights i.2).getD i.1 0
    ((64 - w) * m.endpoint n b s 0 c + w * m.endpoint n b s 1 c + 32) / 64
  let color := if sel = 1 then second else first
  let alpha := if sel = 1 then first else second
  let v := [mix color 0, mix color 1, mix color 2, mix alpha 3]
  if rot = 0 then v else (v.set (rot - 1) (v.getD 3 0)).set 3 (v.getD (rot - 1) 0)

/-- Texel t of a BC7 block; a block that names no mode reads 0 in every channel. -/
def bc7Texel (b t : Nat) : List (Option Nat) :=
  let n := ((List.range 8).find? fun i => blockBits b i 1 == 1).getD 8
  match bc7Modes[n]? with
  | some m => (m.texel n b t).map fun v => some (f32Frac v 255)
  | none => [some 0, some 0, some 0, some 0]

/-- Texel t of a block of a format of R194 (9 BC1, 10 BC4, 11 BC5, 12 BC7), four channels as FP32. -/
def blockTexel (fmt : Nat) (bs : List Byte) (t : Nat) : List (Option Nat) :=
  let b := leNat bs
  match fmt with
  | 9 => bc1Texel b t
  | 10 => [some (bc4Value b t), none, none, none]
  | 11 => [some (bc4Value (b % 2 ^ 64) t), some (bc4Value (b / 2 ^ 64) t), none, none]
  | _ => bc7Texel b t

end Sys2Proof.Machine
end

