-- ==== Sys2Proof/Machine/Vector.lean ====
section
/-! DEFINITION. The vector unit (R84 to R87): the lane operations of VOP. -/

namespace Sys2Proof.Machine

/-- Lanes of an operand. -/
def lanes (bs : List Byte) : List Nat := (List.range 16).map (wordAt bs)

/-- An operand address of VOP: 4-byte aligned, 64 bytes wholly below 0x4000 (R84). -/
def lanesOk (p : Nat) : Bool := decide (p % 4 = 0) && lsOk p 64

/-- A result of 16 lanes in bytes. -/
def laneBytes (ls : List Nat) : List Byte := ls.flatMap fun w => leBytes 4 (w % 2 ^ 32)

/-- A VOP with operands a and b and a result in the local store: only the operands it uses are checked and read (R84). -/
def vop (useA useB : Bool) (c d a b : Nat) (f : Run → List Nat → List Nat → List Nat) (s : State) : Res :=
  onSys (Sys.awl c fun r y =>
    let pd := (r.x d).toNat
    let pa := (r.x a).toNat
    let pb := (r.x b).toNat
    if lanesOk pd && (!useA || lanesOk pa) && (!useB || lanesOk pb) then
      let y := y.interlock c pd 64
      let y := if useA then y.interlock c pa 64 else y
      let y := if useB then y.interlock c pb 64 else y
      match (y.core c).run with
      | none => y
      | some r =>
        let va := if useA then lanes (y.lsRead c pa 64) else []
        let vb := if useB then lanes (y.lsRead c pb 64) else []
        (y.lsWrite c pd (laneBytes (f r va vb))).retire c r
    else y.failCore c 0x10) s

/-- A VOP that writes VA (R84). -/
def vopAcc (useB : Bool) (c a b : Nat) (f : Run → List Nat → List Nat → List Nat) (s : State) : Res :=
  onSys (Sys.awl c fun r y =>
    let pa := (r.x a).toNat
    let pb := (r.x b).toNat
    if lanesOk pa && (!useB || lanesOk pb) then
      let y := y.interlock c pa 64
      let y := if useB then y.interlock c pb 64 else y
      match (y.core c).run with
      | none => y
      | some r =>
        let vb := if useB then lanes (y.lsRead c pb 64) else []
        y.retire c { r with va := (f r (lanes (y.lsRead c pa 64)) vb).map (BitVec.ofNat 32) }
    else y.failCore c 0x10) s

/-- A lane-by-lane operation of two operands. -/
def lane2 (op : Nat → Nat → Nat) : Run → List Nat → List Nat → List Nat := fun _ a b => (a.zip b).map fun p => op p.1 p.2

/-- A lane-by-lane operation of one operand. -/
def lane1 (op : Nat → Nat) : Run → List Nat → List Nat → List Nat := fun _ a _ => a.map op

/-- A reduction: lane 0 takes the value, the others +0. -/
def laneRed (op : List Nat → Nat) : Run → List Nat → List Nat → List Nat := fun _ a _ => op a :: List.replicate 15 0

def execVadd (core d a b : Nat) (s : State) : Res := vop true true core d a b (lane2 fAdd) s
def execVsub (core d a b : Nat) (s : State) : Res := vop true true core d a b (lane2 fSub) s
def execVmul (core d a b : Nat) (s : State) : Res := vop true true core d a b (lane2 fMul) s
def execVmin (core d a b : Nat) (s : State) : Res := vop true true core d a b (lane2 fMin) s
def execVmax (core d a b : Nat) (s : State) : Res := vop true true core d a b (lane2 fMax) s
/-- VA = a × b + VA, one rounding. -/
def execVfma (core a b : Nat) (s : State) : Res :=
  vopAcc true core a b (fun r a b => ((a.zip b).zip r.va).map fun p => fFma p.1.1 p.1.2 p.2.toNat) s
def execVlda (core a : Nat) (s : State) : Res := vopAcc false core a 0 (fun _ a _ => a) s
def execVsta (core d : Nat) (s : State) : Res := vop false false core d 0 0 (fun r _ _ => r.va.map (·.toNat)) s
def execVexp2 (core d a : Nat) (s : State) : Res := vop true false core d a 0 (lane1 fExp2) s
def execVrcp (core d a : Nat) (s : State) : Res := vop true false core d a 0 (lane1 fRcp) s
def execVrsq (core d a : Nat) (s : State) : Res := vop true false core d a 0 (lane1 fRsq) s
def execVdiv (core d a b : Nat) (s : State) : Res := vop true true core d a b (lane2 fDiv) s
def execVcvti (core d a : Nat) (s : State) : Res := vop true false core d a 0 (lane1 fCvtI) s
def execVcvtf (core d a : Nat) (s : State) : Res := vop true false core d a 0 (lane1 fCvtF) s
def execViadd (core d a b : Nat) (s : State) : Res := vop true true core d a b (lane2 fun x y => (x + y) % 2 ^ 32) s
def execVimul (core d a b : Nat) (s : State) : Res := vop true true core d a b (lane2 fun x y => x * y % 2 ^ 32) s
def execVsum (core d a : Nat) (s : State) : Res := vop true false core d a 0 (laneRed (tree fAdd 0)) s
def execVmaxr (core d a : Nat) (s : State) : Res := vop true false core d a 0 (laneRed (tree fMax 0)) s

end Sys2Proof.Machine
end

