-- ==== Sys2Proof/Machine/SetUnit.lean ====
section
/-! DEFINITION. The set unit and the gather/scatter unit (R86 to R91). -/

namespace Sys2Proof.Machine

/-- A place a set or gather/scatter descriptor names: byte address, and 1 for the stall pool (R86 words 1 to 3). -/
structure Place where
  addr : Nat
  pool : Bool
  deriving DecidableEq, Repr

/-- A place from its word; none when a reserved bit is set. -/
def placeOf (w : Nat) : Option Place := if fld w 21 11 = 0 then some ⟨fld w 0 20, bitAt w 20⟩ else none

/-- n bytes at a place lie in its region (R81, R93). -/
def Place.ok (p : Place) (n : Nat) : Bool :=
  if p.pool then poolOk p.addr n && decide (p.addr < 0x100000) else lsOk p.addr n && decide (p.addr < 0x4000)

/-- n bytes at an offset of a place, as a core sees them. -/
def Sys.placeRead (y : Sys) (c : Nat) (p : Place) (o n : Nat) : List Byte :=
  if p.pool then y.poolRead (stallOf c) (p.addr + o) n else y.lsRead c (p.addr + o) n

/-- A range of a place touches a faulty granule of the pool (R400). -/
def Sys.placeBad (y : Sys) (c : Nat) (p : Place) (o n : Nat) : Bool := p.pool && y.poolBad (stallOf c) (p.addr + o) n

/-- Bytes written at an offset of a place. -/
def Sys.placeWrite (c : Nat) (p : Place) (o : Nat) (bs : List Byte) (y : Sys) : Sys :=
  if p.pool then y.poolWrite (stallOf c) (p.addr + o) bs else y.lsWrite c (p.addr + o) bs

/-! ### Set operations (R86 to R89) -/

/-- The set descriptor (R86). -/
structure SetD where
  nA : Nat
  nB : Nat
  a : Place
  b : Place
  out : Place
  payload : Bool
  fp : Bool
  k : Nat
  deriving DecidableEq, Repr

/-- A set descriptor from its twenty bytes (R86). -/
def parseSet (bs : List Byte) : Option SetD :=
  match placeOf (wordAt bs 1), placeOf (wordAt bs 2), placeOf (wordAt bs 3) with
  | some a, some b, some o =>
    let w := wordAt bs 4
    if fld w 11 21 = 0 then
      some ⟨fld (wordAt bs 0) 0 16, fld (wordAt bs 0) 16 16, a, b, o, bitAt w 0, bitAt w 1, fld w 2 9⟩
    else none
  | _, _, _ => none

/-- A set element: its key and payload. -/
abbrev SElem := Nat × Nat

/-- The order number of a key: itself, or the mapped key of R87. -/
def SetD.key (d : SetD) (e : SElem) : Nat := if d.fp then fKey e.1 else e.1

/-- Bytes of one element. -/
def SetD.size (d : SetD) : Nat := if d.payload then 8 else 4

/-- The elements of a byte string. -/
def SetD.elems (d : SetD) (n : Nat) (bs : List Byte) : List SElem :=
  (List.range n).map fun i => if d.payload then (wordAt bs (2 * i), wordAt bs (2 * i + 1)) else (wordAt bs i, 0)

/-- The bytes of elements. -/
def SetD.bytes (d : SetD) (es : List SElem) : List Byte :=
  es.flatMap fun e => leBytes 4 e.1 ++ (if d.payload then leBytes 4 e.2 else [])

/-- Strictly ascending by key (R88). -/
def SetD.sorted (d : SetD) (es : List SElem) : Bool := ascending (es.map d.key)

/-- The keys of A also in B, walking both once (R88 SINT). -/
def SetD.inter (d : SetD) : Nat → List SElem → List SElem → List SElem
  | 0, _, _ => []
  | _ + 1, [], _ => []
  | _ + 1, _, [] => []
  | f + 1, x :: xs, z :: zs =>
    if d.key x < d.key z then d.inter f xs (z :: zs)
    else if d.key z < d.key x then d.inter f (x :: xs) zs
    else x :: d.inter f xs zs

/-- The min(K, N_A) largest, descending, ties in input position (R88 STOPK). -/
def SetD.top (d : SetD) (es : List SElem) : List SElem :=
  (es.mergeSort fun a b => decide (d.key b ≤ d.key a)).take d.k

/-- A set command: its descriptor read and checked, the output computed from inputs read first, count to xd, SET_CNT (R81, R88). -/
def setOp (useB : Bool) (c d a : Nat) (f : SetD → List SElem → List SElem → List Byte → Option (List SElem × Nat)) (s : State) : Res :=
  onSys (Sys.awl c fun r y =>
    let p := (r.x a).toNat
    if p % 4 ≠ 0 ∨ lsOk p 20 = false then y.failCore c 0x10
    else y.access c 0 0x4000 fun r y =>
      match parseSet (y.lsRead c p 20) with
      | none => y.failCore c 0x10
      | some q =>
        let la := q.nA * q.size
        let lb := q.nB * q.size
        if !q.a.ok la || (useB && !q.b.ok lb) || (!useB && !q.out.ok 0) then y.failCore c 0x10
        else if y.placeBad c q.a 0 la || (useB && y.placeBad c q.b 0 lb) then y.failCore c granuleFault else
        let ea := q.elems q.nA (y.placeRead c q.a 0 la)
        let eb := if useB then q.elems q.nB (y.placeRead c q.b 0 lb) else []
        let mask := if lsOk q.nB q.nA then y.lsRead c q.nB q.nA else []
        match f q ea eb mask with
        | none => y.failCore c 0x10
        | some (es, cnt) =>
          let bs := q.bytes es
          if !q.out.ok bs.length then y.failCore c 0x10
          else (y.placeWrite c q.out 0 bs).retire c { r.setx d (BitVec.ofNat 32 es.length) with setCnt := cnt }) s

/-- SINT: keys present in both, A's payload (R88). -/
def execSint (core d a : Nat) (s : State) : Res :=
  setOp true core d a (fun q ea eb _ => if q.sorted ea && q.sorted eb then
    some (q.inter (ea.length + eb.length) ea eb, ea.length + eb.length) else none) s

/-- SMRG: all elements of both, A's first for equal keys (R88). -/
def execSmrg (core d a : Nat) (s : State) : Res :=
  setOp true core d a (fun q ea eb _ => if q.sorted ea && q.sorted eb then
    some (ea.merge eb (fun x z => decide (q.key x ≤ q.key z)), ea.length + eb.length) else none) s

/-- STOPK: it examines all of A here; with EXACT=0 R89 would let it stop early with the same output. -/
def execStopk (core d a : Nat) (s : State) : Res :=
  setOp false core d a (fun q ea _ _ => if 1 ≤ q.k ∧ q.k ≤ 256 then some (q.top ea, ea.length) else none) s

/-- SCMP: elements whose mask byte is not 0; N_B is the address of the mask (R86, R88). -/
def execScmp (core d a : Nat) (s : State) : Res :=
  setOp false core d a (fun q ea _ mask => if lsOk q.nB q.nA && decide (q.nB < 0x4000) then
    some (((ea.zip mask).filter fun p => p.2 != 0).map (·.1), ea.length) else none) s

/-! ### Gather and scatter (R90, R91) -/

/-- The gather/scatter descriptor (R90). -/
structure GsD where
  n : Nat
  size : Nat
  wide : Bool
  a : Place
  b : Place
  out : Place
  deriving DecidableEq, Repr

/-- A gather/scatter descriptor from its sixteen bytes (R90). -/
def parseGs (bs : List Byte) : Option GsD :=
  match placeOf (wordAt bs 1), placeOf (wordAt bs 2), placeOf (wordAt bs 3) with
  | some a, some b, some o =>
    let w := wordAt bs 0
    let sz := fld w 16 4
    if (sz = 1 ∨ sz = 2 ∨ sz = 4 ∨ sz = 8) ∧ fld w 21 11 = 0 then some ⟨fld w 0 16, sz, bitAt w 20, a, b, o⟩ else none
  | _, _, _ => none

/-- The index list. -/
def GsD.indices (d : GsD) (bs : List Byte) : List Nat :=
  (List.range d.n).map fun i => if d.wide then wordAt bs i else leNat ((bs.drop (2 * i)).take 2)

/-- Bytes of the index list. -/
def GsD.idxBytes (d : GsD) : Nat := d.n * (if d.wide then 4 else 2)

/-- An index is in range: its element lies within the region it addresses (R90). -/
def Place.inRange (p : Place) (size i : Nat) : Bool := p.ok (i * size + size)

/-- Out-of-range indices counted (R90, R103). -/
def Sys.countGs (s n : Nat) (y : Sys) : Sys := y.modStall s fun k => { k with gsRange := satAdd k.gsRange n }

/-- A gather/scatter command up to its own effect: descriptor and index list read and checked. -/
def gsOp (c a : Nat) (f : GsD → List Nat → Run → Sys → Sys) (s : State) : Res :=
  onSys (Sys.awl c fun r y =>
    let p := (r.x a).toNat
    if p % 4 ≠ 0 ∨ lsOk p 16 = false then y.failCore c 0x10
    else y.access c 0 0x4000 fun r y =>
      match parseGs (y.lsRead c p 16) with
      | none => y.failCore c 0x10
      | some q =>
        if y.placeBad c q.a 0 q.idxBytes then y.failCore c granuleFault
        else if q.a.ok q.idxBytes then f q (q.indices (y.placeRead c q.a 0 q.idxBytes)) r y else y.failCore c 0x10) s

/-- GATH: OUT[k] = B[index k]; zeros for an index out of range (R90). -/
def execGath (core a : Nat) (s : State) : Res :=
  gsOp core a (fun q is r y =>
    if !q.out.ok (q.n * q.size) || !q.b.ok 0 then y.failCore core 0x10
    else if is.any (fun i => q.b.inRange q.size i && y.placeBad core q.b (i * q.size) q.size) then y.failCore core granuleFault else
    let bs := is.flatMap fun i => if q.b.inRange q.size i then y.placeRead core q.b (i * q.size) q.size else List.replicate q.size 0
    let bad := (is.filter fun i => !q.b.inRange q.size i).length
    ((y.placeWrite core q.out 0 bs).countGs (stallOf core) bad).retire core r) s

/-- SCAT: OUT[index k] = B[k], the later position winning (R90). -/
def execScat (core a : Nat) (s : State) : Res :=
  gsOp core a (fun q is r y =>
    if !q.b.ok (q.n * q.size) || !q.out.ok 0 then y.failCore core 0x10
    else if y.placeBad core q.b 0 (q.n * q.size) then y.failCore core granuleFault else
    let bs := y.placeRead core q.b 0 (q.n * q.size)
    let bad := (is.filter fun i => !q.out.inRange q.size i).length
    let y := is.zipIdx.foldl (fun y p =>
      if q.out.inRange q.size p.1 then y.placeWrite core q.out (p.1 * q.size) ((bs.drop (p.2 * q.size)).take q.size) else y) y
    (y.countGs (stallOf core) bad).retire core r) s

/-- SCADD (R91): FP32 additions in index-list order; with EXACT=1 and a pool destination they are staged for the end of the task
group. An element size other than 4, which the spec does not treat, ends the sliver with 0x10, and the staged contributions are kept beside the pool, at
no address of it (DESIGN CHOICE, log entry 86). -/
def execScadd (core a : Nat) (s : State) : Res :=
  gsOp core a (fun q is r y =>
    if q.size ≠ 4 ∨ q.b.ok (4 * q.n) = false ∨ q.out.ok 0 = false then y.failCore core 0x10 else
    let bs := y.placeRead core q.b 0 (4 * q.n)
    let bad := (is.filter fun i => !q.out.inRange 4 i).length
    let good := is.zipIdx.filter fun p => q.out.inRange 4 p.1
    if y.placeBad core q.b 0 (4 * q.n) || (!r.exact && good.any fun p => y.placeBad core q.out (4 * p.1) 4) then y.failCore core granuleFault else
    let y :=
      if r.exact && q.out.pool then
        y.modTg r.tg fun g => { g with staged := g.staged ++ good.map fun p =>
          { sliver := r.sliver, pool := true, stall := stallOf core, addr := q.out.addr + 4 * p.1,
            value := BitVec.ofNat 32 (wordAt bs p.2) } }
      else good.foldl (fun y p =>
        let old := leNat (y.placeRead core q.out (4 * p.1) 4)
        y.placeWrite core q.out (4 * p.1) (leBytes 4 (fAdd old (wordAt bs p.2)))) y
    (y.countGs (stallOf core) bad).retire core r) s

end Sys2Proof.Machine
end

