-- ==== Sys2Proof/Machine/Conv.lean ====
section
/-! DEFINITION. ECONV (R133 to R146): descriptor, borders, line buffers, convolution and pooling. -/

namespace Sys2Proof.Machine

/-- The ECONV descriptor (R134); strides and dilations as values. -/
structure Econv where
  lb : Nat
  lbPool : Bool
  engines : Nat
  op : Nat
  edge : Bool
  layout : Nat
  zeroFirst : Bool
  wide : Bool
  rsteps : Nat
  aCode : Nat
  bCode : Nat
  ga : Nat
  gb : Nat
  aOfs : Int
  countPad : Bool
  bAddr : Nat
  bStride : Nat
  ofs : Nat
  scale : Nat
  rFirst : Nat
  kh : Nat
  kw : Nat
  stY : Nat
  stX : Nat
  dy : Nat
  dx : Nat
  h : Nat
  w : Nat
  c : Nat
  cpg : Nat
  padT : Nat
  padB : Nat
  padL : Nat
  padR : Nat
  modeT : Nat
  modeB : Nat
  modeL : Nat
  modeR : Nat
  cval : Nat
  oy : Nat
  ox : Nat
  lbFirst : Nat
  lbRows : Nat
  lbCol : Nat
  lbCols : Nat
  slot : Nat
  chBase : Nat
  out : Nat
  deriving DecidableEq, Repr

/-- The fields of R134. -/
def econvFields (bs : List Byte) : Econv :=
  let w := wordAt bs
  { lb := fld (w 0) 0 20, lbPool := bitAt (w 0) 20, engines := fld (w 0) 21 4, op := fld (w 0) 25 2, edge := bitAt (w 0) 27,
    layout := fld (w 0) 28 2, zeroFirst := bitAt (w 0) 30, wide := bitAt (w 0) 31,
    rsteps := fld (w 1) 0 9, aCode := fld (w 1) 9 4, bCode := fld (w 1) 13 4, ga := fld (w 1) 17 2, gb := fld (w 1) 19 2,
    aOfs := sx 8 (fld (w 1) 21 8), countPad := bitAt (w 1) 29,
    bAddr := fld (w 2) 0 14, bStride := fld (w 2) 14 14, ofs := fld (w 3) 0 14, scale := fld (w 3) 14 14, rFirst := fld (w 4) 0 24,
    kh := fld (w 5) 0 5, kw := fld (w 5) 5 5, stY := fld (w 5) 10 4 + 1, stX := fld (w 5) 14 4 + 1,
    dy := fld (w 5) 18 6 + 1, dx := fld (w 5) 24 6 + 1,
    h := fld (w 6) 0 13, w := fld (w 6) 13 13, c := fld (w 7) 0 12, cpg := fld (w 7) 12 12,
    padT := fld (w 8) 0 10, padB := fld (w 8) 10 10, padL := fld (w 8) 20 10, modeT := fld (w 8) 30 2,
    padR := fld (w 9) 0 10, modeB := fld (w 9) 10 2, modeL := fld (w 9) 12 2, modeR := fld (w 9) 14 2,
    cval := w 10, oy := fld (w 11) 0 13, ox := fld (w 11) 13 13,
    lbFirst := fld (w 12) 0 13, lbRows := fld (w 12) 13 8, lbCol := fld (w 13) 0 13, lbCols := fld (w 13) 13 13,
    slot := fld (w 14) 0 20, chBase := fld (w 15) 0 12, out := fld (w 15) 12 14 }

/-- The reserved bits of R134, and every bit its table gives no field, are 0. -/
def econvReserved (bs : List Byte) : Bool :=
  let w := wordAt bs
  fld (w 1) 30 2 == 0 && fld (w 2) 28 4 == 0 && fld (w 3) 28 4 == 0 && fld (w 4) 24 8 == 0 && fld (w 5) 30 2 == 0 &&
  fld (w 6) 26 6 == 0 && fld (w 7) 24 8 == 0 && fld (w 9) 16 16 == 0 && fld (w 11) 26 6 == 0 && fld (w 12) 21 11 == 0 &&
  fld (w 13) 26 6 == 0 && fld (w 14) 20 12 == 0 && fld (w 15) 26 6 == 0

/-- The block width B (R133). -/
def Econv.blk (d : Econv) : Nat := if d.layout = 0 then 16 else if d.layout = 1 then 32 else d.c
/-- CB (R133). -/
def Econv.cb (d : Econv) : Nat := cdiv d.c d.blk
/-- Input group size; none under TENSOR. -/
def Econv.gSize (d : Econv) : Option Nat := groupSize d.ga

/-- Total steps of the whole reduction (R137). -/
def Econv.total (d : Econv) : Nat :=
  if d.edge then cdiv (d.kh * d.kw * d.c) 4
  else if d.cpg = 0 then d.kh * d.kw * d.c / 4
  else if d.cpg ≤ 2 then d.kh * d.kw
  else d.kh * d.kw * d.cpg / 4

/-- The Diagonal form (R137). -/
def Econv.diag (d : Econv) : Bool := !d.edge && (d.cpg == 1 || d.cpg == 2)

/-- A MIRROR side's padding is at most n − 1 (R135). -/
def mirrorOk (mode pad n : Nat) : Bool := mode != 3 || decide (pad ≤ n - 1)

/-- The limits of R135. -/
def Econv.ok (d : Econv) : Bool :=
  let kmax := if d.edge then 31 else 11
  d.op != 3 && d.layout != 3 && d.gb != 3 &&
  decide (1 ≤ d.kh ∧ d.kh ≤ kmax ∧ 1 ≤ d.kw ∧ d.kw ≤ kmax) &&
  (if d.edge then true else decide (d.stY ≤ 2 ∧ d.stX ≤ 2)) &&
  (if d.edge then true else (d.dy == 1 || d.dy == 2 || d.dy == 4) && (d.dx == 1 || d.dx == 2 || d.dx == 4)) &&
  (d.edge || d.layout != 2) && (d.edge || !d.lbPool) &&
  decide (1 ≤ d.c ∧ 1 ≤ d.h ∧ 1 ≤ d.w) && (d.edge || d.c % 4 == 0) &&
  (if d.edge then d.cpg == 0 else d.cpg == 0 || d.cpg == 1 || d.cpg == 2 || (d.cpg % 4 == 0 && d.c % d.cpg == 0)) &&
  (if d.edge then d.ox % 16 == 0 else d.ox % 4 == 0) && decide (d.rFirst + d.rsteps ≤ d.total) &&
  (d.op != 0 || (decide (1 ≤ d.rsteps ∧ d.rsteps ≤ if d.edge then 126 else 256) && d.engines != 0)) &&
  (if d.wide then !d.edge && (d.aCode == 8 || d.aCode == 9) && (d.bCode == 8 || d.bCode == 9)
   else decide (d.aCode ≤ 7 ∧ d.bCode ≤ 7)) &&
  (d.op == 0 || decide (d.kh * d.kw ≤ 256)) &&
  mirrorOk d.modeT d.padT d.h && mirrorOk d.modeB d.padB d.h && mirrorOk d.modeL d.padL d.w && mirrorOk d.modeR d.padR d.w &&
  (d.ga != 3 || d.layout == 2) &&
  (match d.gSize with | some g => d.cb * d.blk % g == 0 | none => true) &&
  isFinite d.cval && d.lbRows != 0 && d.slot % 64 == 0 && d.chBase % 4 == 0

/-- OH and OW (R136). -/
def Econv.oh (d : Econv) : Int :=
  Int.fdiv ((d.h + d.padT + d.padB : Nat) - ((d.kh - 1) * d.dy + 1 : Nat) : Int) d.stY + 1
def Econv.ow (d : Econv) : Int :=
  Int.fdiv ((d.w + d.padL + d.padR : Nat) - ((d.kw - 1) * d.dx + 1 : Nat) : Int) d.stX + 1

/-- An empty output (R136). -/
def Econv.empty (d : Econv) : Bool := decide (d.oh ≤ 0 ∨ d.ow ≤ 0)

/-! ### Borders (R138) -/

/-- What a tap resolves to. -/
inductive ConvTap where
  | pad
  | cpad
  | real (y x : Nat)
  deriving DecidableEq, Repr

/-- remap of R138. -/
def remap (p : Int) (n mode : Nat) : Nat :=
  if 0 ≤ p ∧ p < n then p.toNat
  else if mode = 2 then (if p < 0 then 0 else n - 1)
  else if p < 0 then (-p).toNat else (2 * ((n : Int) - 1) - p).toNat

/-- An input position resolved (R138). -/
def Econv.tap (d : Econv) (iy ix : Int) : ConvTap :=
  let vm := if iy < 0 then some d.modeT else if (d.h : Int) ≤ iy then some d.modeB else none
  let hm := if ix < 0 then some d.modeL else if (d.w : Int) ≤ ix then some d.modeR else none
  match vm with
  | some 0 => .pad
  | some 1 => .cpad
  | _ => match hm with
    | some 0 => .pad
    | some 1 => .cpad
    | _ => .real (remap iy d.h (vm.getD 0)) (remap ix d.w (hm.getD 0))

/-- What output (oy, ox) reads at tap k = ky × KW + kx (R136, R138); none outside the output. -/
def Econv.at (d : Econv) (oy ox k : Nat) : Option ConvTap :=
  if (oy : Int) < d.oh ∧ (ox : Int) < d.ow then
    some (d.tap ((oy * d.stY + k / d.kw * d.dy : Nat) - (d.padT : Int)) ((ox * d.stX + k % d.kw * d.dx : Nat) - (d.padL : Int)))
  else none

/-! ### Line buffers (R140, R141) -/

/-- An A element before expansion. -/
inductive AIn where
  /-- It enters as +0 without a correction (R139). -/
  | zero
  /-- CONST padding. -/
  | cpad
  /-- A real sample: raw code, its group when coded, position in the group, Tanner index. -/
  | real (raw : Nat) (g : Option Group) (pos idx : Nat)
  /-- Its group is malformed (R112). -/
  | broken
  /-- It is not resident, or lies outside the memory (R81, R140). -/
  | out
  deriving DecidableEq, Repr

/-- Raw code of element e of a slot at base. -/
def Econv.rawAt (d : Econv) (rd : Nat → Nat → Option (List Byte)) (base e : Nat) : Option Nat :=
  let bits := codeBits d.aCode
  let lo := e * bits / 8
  let hi := (e * bits + bits - 1) / 8
  (rd (base + lo) (hi + 1 - lo)).map fun bs => leNat bs / 2 ^ (e * bits % 8) % 2 ^ bits

/-- A resident sample's element of channel c (R140, R141). -/
def Econv.sample (d : Econv) (rd : Nat → Nat → Option (List Byte)) (tensor : Option Group) (iy ix c : Nat) : AIn :=
  if ¬(d.lbFirst ≤ iy ∧ iy < d.lbFirst + d.lbRows ∧ d.lbCol ≤ ix ∧ ix < d.lbCol + d.lbCols) then .out else
  let base := d.lb + iy % d.lbRows * d.slot
  let col := ix - d.lbCol
  let el := fun c => c / d.blk * (d.lbCols * d.blk) + col * d.blk + c % d.blk
  match d.rawAt rd base (el c) with
  | none => .out
  | some raw =>
    let idx := (iy * d.w + ix) * d.c + c
    if !isCoded d.aCode then .real raw none 0 idx else
    match d.gSize with
    | none => .real raw tensor 0 idx
    | some g =>
      let ng := d.cb * d.blk / g
      let n := col * ng + c / g
      let w0 := cdiv (cdiv (d.cb * d.lbCols * d.blk * codeBits d.aCode) 8) 64 * 64
      let s0 := cdiv (w0 + 4 * d.lbCols * ng) 32 * 32
      match rd (base + w0 + 4 * n) 4, rd (base + s0 + 32 * n) 32,
        ((List.range g).filter fun p => decide (c / g * g + p < d.c)).mapM (fun p => d.rawAt rd base (el (c / g * g + p))) with
      | some wb, some slot, some raws =>
        match parseGroup d.aCode g (leNat wb) slot raws with
        | some gr => .real raw (some gr) (c % g) idx
        | none => .broken
      | _, _, _ => .out

/-- The A element of output column ox, reduction tap k and channel c. -/
def Econv.aEl (d : Econv) (rd : Nat → Nat → Option (List Byte)) (tensor : Option Group) (ox k c : Nat) : AIn :=
  if d.c ≤ c then .zero else
  match d.at d.oy ox k with
  | none => .zero
  | some .pad => .zero
  | some .cpad => if isZero d.cval then .zero else .cpad
  | some (.real y x) => d.sample rd tensor y x c

/-- ConvTap and channel of reduction index r for engine e (R137); none beyond the end of the Edge form. -/
def Econv.term (d : Econv) (e r : Nat) : Option (Nat × Nat) :=
  if d.edge then (if r < d.kh * d.kw * d.c then some (r / d.c, r % d.c) else none)
  else if d.cpg = 0 then some (r / d.c, r % d.c)
  else if d.cpg ≤ 2 then some (r / 4, d.chBase + 4 * e + r % 4)
  else some (r / d.cpg, (d.chBase + 4 * e) / d.cpg * d.cpg + r % d.cpg)

/-- The sixteen A elements of engine e at step T (R137). -/
def Econv.aTile (d : Econv) (rd : Nat → Nat → Option (List Byte)) (tensor : Option Group) (e T : Nat) : List AIn :=
  (List.range 16).map fun q =>
    let ox := d.ox + (if d.edge then 4 * e else 0) + q / 4
    match d.term e (4 * T + q % 4) with
    | none => .zero
    | some (k, c) => d.aEl rd tensor ox k c

/-- A tile expanded: offset, high and low operands, saturations (R114, R115, R116, R139). -/
def Econv.expandA (d : Econv) (round seed tensor : Nat) (t : List AIn) : Int × List XOp × List XOp × Nat :=
  let o := if isCoded d.aCode then tileOffset d.aCode (t.filterMap fun a => match a with | .real _ g _ _ => g | _ => none) else d.aOfs
  let el := fun (a : AIn) => match a with
    | .cpad => ((⟨0, some d.cval⟩ : XOp), (⟨0, none⟩ : XOp), false)
    | .real raw g pos idx =>
      match g with
      | some g => let r := expandElem d.aCode g pos raw o (modeOf round seed tensor idx); (r.1, ⟨0, none⟩, r.2)
      | none => if d.wide then let s := splitWide d.aCode raw o; (⟨s.1, none⟩, ⟨s.2.1, none⟩, s.2.2) else (⟨raw, none⟩, ⟨0, none⟩, false)
    | _ => (⟨0, none⟩, ⟨0, none⟩, false)
  let es := t.map el
  (o, es.map (·.1), es.map (·.2.1), (es.filter (fun e => e.2.2)).length)

/-! ### Weights -/

/-- Where element (t, j) of a tile stands among the values a Diagonal step holds; none for an entry the engine supplies as +0 (R137). -/
def diagSlot (cpg t j : Nat) : Option Nat :=
  if cpg = 1 then (if t = j then some j else none)
  else if t / 2 = j / 2 then some (4 * (t / 2) + 2 * (t % 2) + j % 2) else none

/-- One engine's B stream expanded: per step offset, high and low tiles; saturations; false for a malformed group. -/
def Econv.expandB (d : Econv) (n : Nat) (bytes ofs : List Byte) (words : List Nat) (slots : List (List Byte)) (round seed tensor : Nat) :
    Stream :=
  let bits := codeBits d.bCode
  let per := if d.diag then 4 * d.cpg else 16
  let raw := fun (T t j : Nat) =>
    if d.diag then (diagSlot d.cpg t j).map fun s => elemAt bits bytes (T * per + s)
    else if d.edge && decide (d.kh * d.kw * d.c ≤ 4 * (d.rFirst + T) + t) then none
    else some (elemAt bits bytes (T * per + 4 * t + j))
  let off := fun (T : Nat) => sx 8 (ofs.getD T 0).toNat
  let mode := fun (T e : Nat) => modeOf round seed ((tensor + 1 + n) % 2 ^ 32) (16 * (d.rFirst + T) + e)
  if !isCoded d.bCode then
    let ts := (List.range d.rsteps).map fun T => (off T, (List.range 16).map fun e =>
      match raw T (e / 4) (e % 4) with
      | none => (0, 0, false)
      | some r => if d.wide then splitWide d.bCode r (off T) else (r, 0, false))
    ⟨ts.map fun t => (t.1, t.2.map (fun s => ⟨s.1, none⟩), t.2.map fun s => ⟨s.2.1, none⟩),
     (ts.map fun t => (t.2.filter fun s => s.2.2).length).sum, true⟩
  else
    let g := (groupSize d.gb).getD 32
    let ng := if d.diag then 1 else 4 * d.rsteps / g
    let groups := (List.range (4 * ng)).map fun i =>
      let j := i / ng
      if d.diag then
        -- one group per channel over its taps; a tap outside the command is taken to agree with its entry
        let es := weltEntries (slots.getD i []) (fld (words.getD i 0) 28 4)
        let codes := (List.range (d.kh * d.kw)).map fun k =>
          if d.rFirst ≤ k ∧ k < d.rFirst + d.rsteps then
            let rs := (List.range 4).filterMap fun t => raw (k - d.rFirst) t j
            (rs.find? (· == escCode d.bCode)).getD (rs.headD 0)
          else if es.any (fun e => e.1 == k) then escCode d.bCode else (if escCode d.bCode = 0 then 1 else 0)
        parseGroup d.bCode (d.kh * d.kw) (words.getD i 0) (slots.getD i []) codes
      else
        -- a position past the reduction's end reads nothing (R137) and is taken to agree with its entry
        let es := weltEntries (slots.getD i []) (fld (words.getD i 0) 28 4)
        parseGroup d.bCode g (words.getD i 0) (slots.getD i []) ((List.range g).map fun p =>
          let kk := i % ng * g + p
          (raw (kk / 4) (kk % 4) j).getD (if es.any (fun e => e.1 == p) then escCode d.bCode else if escCode d.bCode = 0 then 1 else 0))
    if groups.any (·.isNone) then ⟨[], 0, false⟩
    else
      let gs := groups.map (·.getD .zero)
      let grp := fun (T t j : Nat) => gs.getD (if d.diag then j else j * ng + (4 * T + t) / g) .zero
      let pos := fun (T t : Nat) => if d.diag then d.rFirst + T else (4 * T + t) % g
      let ts := (List.range d.rsteps).map fun T =>
        let o := tileOffset d.bCode ((List.range 4).map fun j => grp T 0 j)
        (o, (List.range 16).map fun e =>
          match raw T (e / 4) (e % 4) with
          | none => ((⟨0, none⟩ : XOp), false)
          | some r =>
            match grp T (e / 4) (e % 4) with
            | .escaped s z es =>
              if d.diag && r != escCode d.bCode then expandElem d.bCode (.plain s z) 0 r o (mode T e)
              else expandElem d.bCode (.escaped s z es) (pos T (e / 4)) r o (mode T e)
            | g => expandElem d.bCode g (pos T (e / 4)) r o (mode T e))
      ⟨ts.map fun t => (t.1, t.2.map (·.1), []), (ts.map fun t => (t.2.filter (·.2)).length).sum, true⟩

/-- The steps of one tile pair: one, or the four of R75. -/
def pairSteps (wide : Bool) (a b : Int × List XOp × List XOp) : List EngStep :=
  if wide then
    [mkStep a.2.1 b.2.1 a.1 b.1, mkStep a.2.1 b.2.2 a.1 b.1, mkStep a.2.2 b.2.1 a.1 b.1, mkStep a.2.2 b.2.2 a.1 b.1]
  else [mkStep a.2.1 b.2.1 a.1 b.1]

/-! ### Issue -/

/-- The single input scale word under GA=TENSOR (R141): its group when Plain; outer none for a breach. -/
def Econv.tensorGroup (d : Econv) (ls : Nat → Nat → Option (List Byte)) : Option (Option Group) :=
  if d.ga = 3 ∧ isCoded d.aCode = true then
    match (ls d.scale 4).map leNat with
    | none => none
    | some w => match parseGroup d.aCode 32 w [] [] with
      | some (.plain s z) => if d.scale % 4 = 0 then some (some (.plain s z)) else none
      | _ => none
  else some none

/-- Local store and line buffer readers with the range checks of R81; whole says that a faulty granule of the pool refuses the read. -/
def Sys.lsGet (y : Sys) (c a n : Nat) : Option (List Byte) := if lsOk a n then some (y.lsRead c a n) else none
def Sys.lbGet (y : Sys) (c : Nat) (pool whole : Bool) (a n : Nat) : Option (List Byte) :=
  if pool then (if poolOk a n && !(whole && y.poolBad (stallOf c) a n) then some (y.poolRead (stallOf c) a n) else none) else y.lsGet c a n

/-- An ECONV with OP=MAC captured at issue; none for a breach that ends the sliver with 0x10 (R135, R140, R141). -/
def Econv.capture (d : Econv) (ls lb : Nat → Nat → Option (List Byte)) (round seed tensor : Nat) : Option EngCmd :=
  let engs := maskList 4 d.engines
  let per := if d.diag then 4 * d.cpg else 16
  let bLen := cdiv (d.rsteps * per * codeBits d.bCode) 8
  let gB := (groupSize d.gb).getD 32
  let nB := if isCoded d.bCode then (if d.diag then 4 else 16 * d.rsteps / gB) else 0
  let streams := if d.edge then 1 else engs.length
  let sBase := d.scale + (if d.ga = 3 then 4 else 0)
  let sSlots := cdiv (4 * (nB * streams) + (sBase - d.scale)) 32 * 32 + d.scale
  if isCoded d.bCode && (d.scale % 4 != 0 || (!d.diag && 4 * d.rsteps % gB != 0)) then none else
  match d.tensorGroup ls with
  | none => none
  | some tg =>
    let bs := engs.zipIdx.mapM fun p => do
      let m := if d.edge then 0 else p.2
      let bytes ← ls (d.bAddr + m * d.bStride) bLen
      let ofs ← if isCoded d.bCode then some [] else ls (d.ofs + p.2 * d.rsteps) d.rsteps
      let words ← if nB = 0 then some [] else ls (sBase + 4 * nB * m) (4 * nB)
      let slots ← if nB = 0 then some [] else ls (sSlots + 32 * nB * m) (32 * nB)
      some (p.1, d.expandB m bytes ofs ((List.range nB).map (wordAt words)) ((List.range nB).map fun i => (slots.drop (32 * i)).take 32)
        round seed tensor)
    match bs with
    | none => none
    | some bs =>
      let shared := !d.edge && d.cpg == 0
      let raws := (if shared then [0] else engs).map fun e => (e, (List.range d.rsteps).map fun T => d.aTile lb tg e (d.rFirst + T))
      if raws.any fun p => p.2.any fun t => t.any (· == .out) then none else
      let ex := raws.map fun p => (p.1, p.2.map (d.expandA round seed tensor))
      let aSat := (ex.map fun p => (p.2.map fun t => t.2.2.2).sum).sum
      let bSat := if d.edge then (match bs with | b :: _ => b.2.sats | [] => 0) else (bs.map fun b => b.2.sats).sum
      some { kind := .conv, mask := d.engines,
             work := bs.map fun b =>
               let as := match ex.find? (fun p => p.1 == b.1) with | some p => p.2 | none => (match ex with | p :: _ => p.2 | [] => [])
               { engine := b.1, zeroFirst := d.zeroFirst,
                 steps := (as.zip b.2.tiles).flatMap fun p => pairSteps d.wide (p.1.1, p.1.2.1, p.1.2.2.1) p.2 },
             expSat := aSat + bSat,
             malformed := bs.any (fun b => !b.2.ok) || raws.any fun p => p.2.any fun t => t.any (· == .broken) }

/-- A descriptor at xa, with the form a row names (R134, R135, R144): none when it breaks a rule; some none when it is another form. -/
def Sys.econvAt (y : Sys) (c p : Nat) (form : Econv → Bool) : Option (Option Econv) :=
  if p % 4 ≠ 0 ∨ lsOk p 64 = false then none else
  let bs := y.lsRead c p 64
  let d := econvFields bs
  if econvReserved bs && d.ok then (if form d then some (some d) else some none) else none

/-- The sliver meets an empty output: no step, code 0x11 (R136). -/
def Sys.emptyOut (c : Nat) (r : Run) (y : Sys) : Sys := y.retire c { r with codes := statusJoin r.codes 0x11 }

/-- ECONV with OP=MAC of the form a row names (R137, R143, R144). -/
def econvMac (form : Econv → Bool) (c a : Nat) (s : State) : Res :=
  onSys (Sys.awl c fun _ y => y.access c 0 0x4000 fun r y =>
    match y.econvAt c (r.x a).toNat form with
    | none => y.failCore c 0x10
    | some none => y
    | some (some d) =>
      let g := y.tg r.tg
      if g.eng < popcount 4 d.engines ∨ (d.edge = true ∧ g.setgs = false) then y.failCore c 0x10
      else if d.empty then y.emptyOut c r
      else match d.capture (y.lsGet c) (y.lbGet c d.lbPool true) r.round r.seed.toNat r.tensor.toNat with
        | none =>
          if (d.capture (y.lsGet c) (y.lbGet c d.lbPool false) r.round r.seed.toNat r.tensor.toNat).isSome then y.failCore c granuleFault
          else y.failCore c 0x10
        | some k => y.issueMac c k) s

def execEconvMacMain (core a : Nat) (s : State) : Res := econvMac (fun d => d.op == 0 && !d.edge) core a s
def execEconvMacEdge (core a : Nat) (s : State) : Res := econvMac (fun d => d.op == 0 && d.edge) core a s

/-! ### Pooling (R146) -/

/-- The FP32 value of a 16-bit wide element (R116, R146): exact, infinities and NaNs kept. -/
def wideVal (code raw : Nat) : Nat :=
  if code = 9 then raw * 2 ^ 16
  else if 0x7C00 ≤ raw % 2 ^ 15 then putb (bitAt raw 15) 31 + 0x7F800000 + raw % 2 ^ 10 * 2 ^ 13
  else let v := fp16.val 15 raw; f32Of v (bitAt raw 15)

/-- The value a tap contributes (R146). -/
def Econv.poolVal (d : Econv) : AIn → Nat
  | .cpad => d.cval
  | .real raw g pos _ =>
    match g with
    | none => if d.wide then wideVal d.aCode raw else let v := x16.val 15 raw; f32Of ⟨v.m, v.e + d.aOfs⟩ (bitAt raw 15)
    | some .zero => 0
    | some (.const v) => v
    | some (.plain s z) => f32Of (decodeElem d.aCode raw s z) (isNegZero d.aCode raw)
    | some (.escaped s z es) => match es.find? (fun e => e.1 == pos) with
      | some e => e.2
      | none => f32Of (decodeElem d.aCode raw s z) (isNegZero d.aCode raw)
  | _ => 0

/-- A tap belongs to the window (R146). -/
def Econv.included (d : Econv) (k : Nat) : Bool :=
  match d.at d.oy d.ox k with
  | some .pad => d.countPad
  | some .cpad => d.countPad
  | _ => true

/-- The order of MAX pooling: R87, every NaN above every number. -/
def poolKeyOf (w : Nat) : Nat := if isNaN w then 2 ^ 32 + fKey w else fKey w

/-- The pooled value of the included values in window order (R146). -/
def poolOf (op : Nat) (vs : List Nat) : Nat :=
  match vs with
  | [] => 0
  | v :: t =>
    if op = 1 then t.foldl (fun a b => if poolKeyOf a < poolKeyOf b then b else a) v
    else fDiv (tree fAdd 0 (v :: t)) (fCvtF (v :: t).length)

/-- ECONV with OP=MAX or OP=AVG: sixteen channels of one output position (R146). -/
def econvPool (op : Nat) (c a : Nat) (s : State) : Res :=
  onSys (Sys.awl c fun _ y => y.access c 0 0x4000 fun r y =>
    match y.econvAt c (r.x a).toNat (fun d => d.op == op) with
    | none => y.failCore c 0x10
    | some none => y
    | some (some d) =>
      if !(y.tg r.tg).vec || (d.edge && !(y.tg r.tg).setgs) || !lsOk d.out 64 then y.failCore c 0x10
      else if d.empty then y.emptyOut c r
      else match d.tensorGroup (y.lsGet c) with
        | none => y.failCore c 0x10
        | some tg =>
          let taps := (List.range (d.kh * d.kw)).filter d.included
          let look := fun (whole : Bool) => (List.range 16).map fun q => if d.c ≤ d.chBase + q then none else
            some (taps.map fun k => d.aEl (y.lbGet c d.lbPool whole) tg d.ox k (d.chBase + q))
          let els := look true
          let broken := fun (es : List (Option (List AIn))) => es.any fun e => (e.getD []).any fun x => x == .out || x == .broken
          if broken els then y.failCore c (if broken (look false) then 0x10 else granuleFault)
          else (y.lsWrite c d.out (laneBytes (els.map fun e => match e with
            | none => 0
            | some l => poolOf op (l.map d.poolVal)))).retire c r) s

def execEconvMax (core a : Nat) (s : State) : Res := econvPool 1 core a s
def execEconvAvg (core a : Nat) (s : State) : Res := econvPool 2 core a s

end Sys2Proof.Machine
end

