-- ==== Sys2Proof/Machine/Dma.lean ====
section
/-! DEFINITION. The stall DMA agents (R308, R309): copies, quantising conversion (R121 to R132), zero compression (R147, R148), remote
requests (R388), host and peer reads in packets (R322, R326, R387), and the end of a ticket. -/

namespace Sys2Proof.Machine

/-! ### Descriptor (R308) -/

def Xfer.w (x : Xfer) (n : Nat) : Nat := x.words.getD n 0
def Xfer.srcSpace (x : Xfer) : Nat := fld (x.w 0) 3 2
def Xfer.dstSpace (x : Xfer) : Nat := fld (x.w 0) 5 2
def Xfer.rowBytes (x : Xfer) : Nat := fld (x.w 1) 0 20
def Xfer.rows (x : Xfer) : Nat := fld (x.w 2) 0 16
def Xfer.word64 (x : Xfer) (n : Nat) : Nat := x.w n + 2 ^ 32 * x.w (n + 1)
def Xfer.srcRow (x : Xfer) (r : Nat) : Nat := (x.word64 5 + r * x.w 3) % 2 ^ 64
def Xfer.dstRow (x : Xfer) (r : Nat) : Nat := (x.word64 7 + r * x.w 4) % 2 ^ 64
/-- The device virtual address in AUX. -/
def Xfer.aux (x : Xfer) : Nat := x.word64 9

/-- Rows of n bytes in a local space lie in it (R81, R93, R308). -/
def rowsOk (space base pitch rows n : Nat) : Bool :=
  if space = 2 then true
  else decide (base < 2 ^ 20) && (List.range rows).all fun r =>
    if space = 0 then lsOk (base + r * pitch) n else poolOk (base + r * pitch) n

/-- Some row reaches the mailbox (R286, R308). -/
def rowsMbox (space base pitch rows n : Nat) : Bool :=
  space == 1 && (List.range rows).any fun r => decide (mboxBase < base + r * pitch + n)

/-- A place of the peer window, when a device virtual address of a context translates there; no effect on the machine (R387, R388). -/
def Sys.peerOf (y : Sys) (ctx va : Nat) : Option Nat :=
  match (y.translate none ctx va 4 false).2 with
  | .ok x => let pa := x.pa + (va - x.va); if !x.host && y.inPeer pa then some (pa - peerBase) else none
  | .error _ => none

/-- The descriptor asks for a remote request: its mailbox entry and the address on the other die (R388). -/
def Sys.remoteOf (y : Sys) (ctx : Nat) (x : Xfer) : Option (Nat × Nat) :=
  let d := x.word64 7
  if y.glob.config = 1 ∧ x.op = 0 ∧ x.rows = 1 ∧ 4 ≤ x.rowBytes ∧ x.rowBytes ≤ 56 ∧ x.rowBytes % 4 = 0 ∧ x.srcSpace = 2
      ∧ x.dstSpace = 1 ∧ mboxBase ≤ d ∧ d < 0x100000 ∧ d % 64 = 0 then
    (y.peerOf ctx (x.word64 5)).map fun a => ((d - mboxBase) / 64, a)
  else none

/-- The checks of R308 that hold for every operation. -/
def Xfer.formOk (x : Xfer) : Bool :=
  decide (x.op ≤ 3) && fld (x.w 0) 7 25 == 0 && x.srcSpace != 3 && x.dstSpace != 3 && fld (x.w 1) 25 7 == 0 && fld (x.w 2) 16 16 == 0 &&
  x.rows != 0 && x.w 14 == 0 && x.w 15 == 0 && (x.op == 1 || x.rowBytes != 0) &&
  (decide (x.op < 2) || (fld (x.w 1) 20 2 != 3 && (fld (x.w 1) 20 2 == 2 || fld (x.w 1) 23 2 != 3))) &&
  (x.op != 1 || (x.srcSpace != 2 && x.dstSpace == 2))

/-- The local ranges of a descriptor: source rows of n bytes, destination rows where DST is used. -/
def Xfer.rangesOk (x : Xfer) (n : Nat) : Bool :=
  (x.op == 3 || rowsOk x.srcSpace (x.word64 5) (x.w 3) x.rows n) &&
  (x.op == 1 || x.op == 2 || (rowsOk x.dstSpace (x.word64 7) (x.w 4) x.rows x.rowBytes &&
    !rowsMbox x.dstSpace (x.word64 7) (x.w 4) x.rows x.rowBytes))

/-! ### Host and peer reads (R321, R322, R326) -/

/-- A packet's pieces: at most 256 bytes, crossing no 256-byte boundary of the address. -/
def cut256 : Nat → Nat → Nat → List (Nat × Nat)
  | 0, _, _ => []
  | f + 1, a, n => if n = 0 then [] else let k := min n (256 - a % 256); (a, k) :: cut256 f (a + k) (n - k)

/-- The reads one page piece of a transfer's source needs; none while the page is device memory. -/
def Sys.pieceReads (y : Sys) (ctx va n off : Nat) : List HPkt :=
  match (y.translate none ctx va n false).2 with
  | .error _ => []
  | .ok x =>
    let pa := x.pa + (va - x.va)
    let peer := !x.host && y.inPeer pa
    if x.host || peer then
      let base := if peer then pa - peerBase else pa
      (cut256 (n / 256 + 2) base n).map fun p => { read := true, addr := p.1, len := p.2, off := off + (p.1 - base), peer := peer }
    else []

/-- The host and peer reads of a copy. -/
def Sys.xferReads (y : Sys) (x : Xfer) : List HPkt :=
  if x.op = 0 ∧ x.srcSpace = 2 then
    (List.range x.rows).flatMap fun r =>
      (piecesOf (x.srcRow r) x.rowBytes).flatMap fun p => y.pieceReads x.ctx p.1 p.2 (r * x.rowBytes + (p.1 - x.srcRow r))
  else []

/-- A transfer changed. -/
def Sys.modXfer (id : Nat) (f : Xfer → Xfer) (y : Sys) : Sys :=
  y.modDma fun d => { d with xfers := d.xfers.map fun x => if x.id = id then f x else x }

/-- The next free tag of a module (R322: 1,024 tags, none reused while outstanding). -/
def Module.freeTag (m : Module) : Option Nat :=
  (List.range 1024).find? fun i => m.reads.all fun r => r.tag != (m.nextTag + i) % 1024

/-- A read leaves on a module when its credits and a tag are free (R326). -/
def Sys.sendRead (x : Xfer) (p : HPkt) (y : Sys) : Option Sys :=
  if p.peer then
    match y.duo.hm.freeTag with
    | none => none
    | some i =>
      let tag := (y.duo.hm.nextTag + i) % 1024
      if y.duo.st = 3 ∧ y.duo.hold = false ∧ y.duo.hm.txq = [] ∧ 1 ≤ (y.pool 2 2).free ∧ units p.len ≤ (y.pool 2 3).free then
        let y := (y.modPool 2 2 (Pool.take 1)).modPool 2 3 (Pool.take (units p.len))
        let y := y.modDuo fun d => { d with hm := { ((d.hm.ledgerAdd 2 1).ledgerAdd 3 (units p.len)) with
          nextTag := (tag + 1) % 1024,
          reads := d.hm.reads ++ [{ tag := tag, xfer := x.id, off := p.off, len := p.len, units := units p.len }] } }
        some (y.emit (.harness "MRD" [tag, x.ctx, p.addr, p.len] []))
      else none
  else
    let m := y.moduleOf x.ctx
    match (y.module m).freeTag with
    | none => none
    | some i =>
      let tag := ((y.module m).nextTag + i) % 1024
      if (y.module m).st = 3 ∧ y.muted = false ∧ 1 ≤ (y.pool 1 (4 * m + 2)).free ∧ units p.len ≤ (y.pool 1 (4 * m + 3)).free then
        let y := (y.modPool 1 (4 * m + 2) (Pool.take 1)).modPool 1 (4 * m + 3) (Pool.take (units p.len))
        let y := y.modModule m fun k => { ((k.ledgerAdd 2 1).ledgerAdd 3 (units p.len)) with
          nextTag := (tag + 1) % 1024,
          reads := k.reads ++ [{ tag := tag, xfer := x.id, off := p.off, len := p.len, units := units p.len }] }
        some (y.emit (.mrd m tag x.ctx p.addr p.len))
      else none

/-- A transfer's reads leave as far as they may. -/
def Sys.pump (id : Nat) (y : Sys) : Sys :=
  match y.dma.xfers.find? (fun x => x.id == id) with
  | none => y
  | some x =>
    if x.cancelled || !y.holds (.dma x.stall) then y else
    let r := x.todo.foldl (fun (st : Sys × List HPkt × Bool) p =>
      if st.2.2 then (st.1, st.2.1 ++ [p], true)
      else match st.1.sendRead x p with
        | some y' => (y', st.2.1, false)
        | none => (st.1, [p], true)) (y, [], false)
    r.1.modXfer id fun x => { x with todo := r.2.1 }

/-- Every waiting transfer tries again (credits came back, or a holding was granted). -/
def Sys.pumpAll (y : Sys) : Sys := (y.dma.xfers.map (·.id)).foldl (fun y i => y.pump i) y

/-! ### Issue (R309) -/

/-- A transfer takes its slot and ticket, and its agent asks for the DMA class when it holds none (R309). -/
def Sys.startXfer (c d : Nat) (x : Xfer) (y : Sys) : Sys :=
  match (y.core c).run with
  | none => y
  | some r =>
    let s := stallOf c
    let id := y.dma.next
    let x := { x with id := id, stall := s, core := c, ticket := r.tickets, tg := r.tg, sliver := r.sliver,
                      round := r.round, seed := r.seed.toNat, tensor := r.tensor.toNat }
    let x := { x with todo := y.xferReads x }
    let y := (y.modDma fun m => { m with next := id + 1, xfers := m.xfers ++ [x] }).modPool 7 s (Pool.take 1)
    let y := if y.holds (.dma s) then y else
      y.request { holds := [{ who := .dma s, cost := y.cost 7, ctx := x.ctx }], prio := y.prioOf r.tg r.sliver, act := .dma s }
    let y := y.pump id
    match (y.core c).run with
    | some r => y.retire c ({ r with wait := .none, tickets := (r.tickets + 1) % 2 ^ 32 }.setx d (BitVec.ofNat 32 r.tickets))
    | none => y

/-- A DMA descriptor at p, when its operation is one a row names (R308): checked, copied and issued. A core with four transfers waits. -/
def Sys.dmaIssue (c d p : Nat) (opOk : Nat → Bool) (y : Sys) : Sys :=
  if p % 64 ≠ 0 ∨ lsOk p 64 = false then y.failCore c 0x10 else
  y.access c p 64 fun r y =>
    let bs := y.lsRead c p 64
    let ctx := (y.tg r.tg).ctx
    let x : Xfer := { id := 0, stall := stallOf c, core := c, ticket := 0, tg := r.tg, sliver := r.sliver, ctx := ctx,
                      op := fld (wordAt bs 0) 0 3, words := (List.range 16).map (wordAt bs) }
    if !x.formOk then y.failCore c 0x10
    else if !opOk x.op then y
    else if 4 ≤ (y.dma.xfers.filter fun q => q.core == c && !q.cancelled).length then y.waitOn c r (.dmaSlot d p)
    else if x.op = 1 then
      if x.aux % 32 ≠ 0 then y.failCore c 0x10 else
      match y.vread (some x.stall) ctx x.aux 96 with
      | (y, .error st) => y.failCore c st
      | (y, .ok q) =>
        match parseQRec q with
        | none => y.failCore c 0x10
        | some qr =>
          let ts := (y.tg r.tg).tallies
          let known := ts.any fun t => t.qrec == x.aux
          if !x.rangesOk (4 * qr.channels) || (!known && decide (8 ≤ ts.length)) then y.failCore c 0x10
          else
            let y := if known then y else y.modTg r.tg fun g => { g with tallies := g.tallies ++
              [{ qrec := x.aux, action := qr.action, thresh := qr.thresh, hasWide := qr.wideAddr != 0 }] }
            y.startXfer c d { x with qrec := q }
    else
      match y.remoteOf ctx x with
      | some (e, _) =>
        let m := tget ({} : Mbox) (y.stall x.stall).mbox e
        if m.pending || m.full then y.failCore c 0x10
        else
          let y := y.modStall x.stall fun s => { s with mbox := tmod {} s.mbox e fun m =>
            { m with pending := true, tag := y.dma.next % 2 ^ 16, owner := some (x.tg, x.sliver) } }
          y.startXfer c d { x with op := 4 }
      | none => if x.rangesOk x.rowBytes then y.startXfer c d x else y.failCore c 0x10

/-- A DMA instruction (R78, R308). A victim issues no new DMA: it stops before the instruction as at a tile boundary (R275, log entry 30). -/
def dma (op c d a : Nat) (s : State) : Res :=
  onSys (Sys.awl c fun r y =>
    let y := if r.pre.any (·.cand.isSome) then y.boundary c else y
    if (y.core c).issues then y.dmaIssue c d (r.x a).toNat (· == op) else y) s

def execDmaCopy (core d a : Nat) (s : State) : Res := dma 0 core d a s
def execDmaConvert (core d a : Nat) (s : State) : Res := dma 1 core d a s
def execDmaZcStore (core d a : Nat) (s : State) : Res := dma 2 core d a s
def execDmaZcLoad (core d a : Nat) (s : State) : Res := dma 3 core d a s

/-! ### Carrying a transfer out -/

/-- A change of the saves that hold a sliver. -/
def Sys.modSaved (t n : Nat) (f : Save → Save) (y : Sys) : Sys :=
  let g := fun (v : Save) => if v.run.tg = t ∧ v.run.sliver = n then f v else v
  (y.modStalls fun ss => tmap ss fun _ s => { s with saves := s.saves.map g }).modBridle fun b =>
    { b with areas := tmap b.areas fun _ l => l.map g }

/-- The transfer's sliver is on its core. -/
def Sys.xferOnCore (y : Sys) (x : Xfer) : Bool :=
  match (y.core x.core).run with
  | some r => r.tg == x.tg && r.sliver == x.sliver
  | none => false

/-- Its saved local store, when the sliver is saved. -/
def Sys.savedLs (y : Sys) (x : Xfer) : List Byte :=
  match (y.stalls.flatMap fun s => s.2.saves).find? (fun v => v.run.tg == x.tg && v.run.sliver == x.sliver) with
  | some v => v.ls
  | none => []

/-- n bytes of the transfer's stream from a space; off is the place in the stream (R308). -/
def Sys.xferRead (x : Xfer) (space a n off : Nat) (y : Sys) : Sys × Except Nat (List Byte) :=
  match space with
  | 0 => (y, .ok (if y.xferOnCore x then y.lsRead x.core a n else padTo n ((y.savedLs x).drop a)))
  | 1 => if y.poolBad x.stall a n then (y, .error granuleFault) else (y, .ok (y.poolRead x.stall a n))
  | _ =>
    match y.translate (some x.stall) x.ctx a n false with
    | (y, .error k) => (y, .error k.status)
    | (y, .ok t) =>
      let pa := t.pa + (a - t.va)
      let got := (List.range n).map fun i => tfind x.buf (off + i)
      if (t.host || y.inPeer pa) && got.all (·.isSome) then (y, .ok (got.map (·.getD 0)))
      else y.readPiece (some x.stall) x.ctx a n

/-- Bytes of the transfer written to a space. -/
def Sys.xferWrite (x : Xfer) (space a : Nat) (bs : List Byte) (y : Sys) : Sys × Except Nat Unit :=
  match space with
  | 0 => (if y.xferOnCore x then y.lsWrite x.core a bs
          else y.modSaved x.tg x.sliver fun v => { v with ls := (v.ls.take a ++ bs ++ v.ls.drop (a + bs.length)).take v.ls.length }, .ok ())
  | 1 => (y.poolWrite x.stall a bs, .ok ())
  | _ => y.vwrite (some x.stall) x.ctx a bs (some x.tg)

/-- One after the other until an error. -/
def Sys.seq {α : Type} (l : List α) (f : α → Sys → Sys × Except Nat Unit) (y : Sys) : Sys × Except Nat Unit :=
  l.foldl (fun st a => match st with
    | (y, .error e) => (y, .error e)
    | (y, .ok _) => f a y) (y, .ok ())

/-- COPY: row by row, page by page, up to the first fault (R308). -/
def Sys.runCopy (x : Xfer) (y : Sys) : Sys × Except Nat Unit :=
  let ps := (List.range x.rows).flatMap fun r =>
    (if x.srcSpace = 2 then piecesOf (x.srcRow r) x.rowBytes else [(x.srcRow r, x.rowBytes)]).map fun p => (r, p.1, p.2)
  y.seq ps fun p y =>
    let o := p.2.1 - x.srcRow p.1
    match y.xferRead x x.srcSpace p.2.1 p.2.2 (p.1 * x.rowBytes + o) with
    | (y, .error e) => (y, .error e)
    | (y, .ok bs) => y.xferWrite x x.dstSpace (x.dstRow p.1 + o) bs

/-! ### CONVERT (R122 to R132) -/

/-- A stored word as R123 takes it: its scale and zero point when Plain or Escaped. -/
def storedForm (c word : Nat) : Option Group :=
  match zeroPoint c (fld word 16 8) with
  | none => none
  | some zp =>
    let n := fld word 28 4
    if goodScale (fld word 0 16) && ((fld word 24 4 == 0 && n == 0) || (fld word 24 4 == 4 && decide (1 ≤ n ∧ n ≤ 4)))
    then some (.plain (fld word 0 16) zp) else none

/-- The tally of a record in a task group. -/
def Sys.modTally (t qrec : Nat) (f : Tally → Tally) (y : Sys) : Sys :=
  y.modTg t fun g => { g with tallies := g.tallies.map fun k => if k.qrec = qrec then f k else k }

/-- What a converted group adds to the tally and to the stall's counters (R127, R129, R132). -/
def Sys.countGroup (s t n qrec sat escOv welts regauged nans : Nat) (y : Sys) : Sys :=
  (y.modTally t qrec fun k =>
    { k with sat := k.sat + sat, escOv := k.escOv + escOv, regauged := k.regauged + regauged, nans := k.nans + nans,
             parts := tmod [] k.parts n fun l => [l.getD 0 0 + sat, l.getD 1 0 + escOv, l.getD 2 0 + regauged, l.getD 3 0 + nans] })
  |>.modStall s fun k =>
    { k with convSat := satAdd k.convSat (sat + escOv), escapes := satAdd k.escapes welts, regauges := satAdd k.regauges regauged }

/-- Writes to memory in order. -/
def Sys.vwrites (s ctx t : Nat) (ws : List (Nat × List Byte)) (y : Sys) : Sys × Except Nat Unit :=
  y.seq ws fun w y => y.vwrite (some s) ctx w.1 w.2 (some t)

/-- The welt entries of a group as writes: only the valid ones. -/
def weltWrites (a : Nat) (ws : List (Nat × Nat)) : List (Nat × List Byte) :=
  [(a, ws.flatMap fun w => leBytes 4 (w.1 % 2 ^ 16) ++ leBytes 4 w.2)].filter fun p => !p.2.isEmpty

/-- The four words of a gauge record (R127). -/
def GroupOut.gauge (o : GroupOut) : List Byte :=
  wordsBytes [o.mn, o.mx, o.ma, put o.clipped 0 16 + putb o.isOv 16 + putb o.isUn 17 + putb o.regauged 18]

/-- One group of one row of a conversion (R123 to R127). Where the spec leaves the case open (DESIGN CHOICE, log entry 76): a CONVERT writes every
position of its groups, so with APPEND=1 no earlier element counts; a wide re-run writes no gauge record; an infinity replaced by the largest value
whose wide form overflows too counts twice. -/
def Sys.convertOne (x : Xfer) (q : QRec) (wide : Bool) (r g : Nat) (raw : List Nat) (y : Sys) : Sys × Except Nat Unit :=
  let row := (fld (x.w 11) 0 32 + r) % 2 ^ 32
  let n := row * (q.channels / q.g) + g
  let subs := raw.map substX
  let xs := subs.map (·.1)
  let nans := (subs.filter fun p => p.2.1).length
  let subSat := (subs.filter fun p => p.2.2).length
  if wide then
    let ws := xs.map (wideOf q.wideFmt)
    let sat := subSat + (ws.filter (·.2)).length
    (y.vwrites x.stall x.ctx x.tg [(q.wideAddr + 2 * (row * q.channels + g * q.g), ws.flatMap fun w => leBytes 2 w.1),
      (q.scaleAddr + 4 * n, leBytes 4 0x08003F80)]) |> fun st => (st.1.countGroup x.stall x.tg x.sliver x.aux sat 0 0 0 nans, st.2)
  else
    let prev := if q.append then q.scaleAddr else q.prevAddr
    let st := if q.delayed then y.vread (some x.stall) x.ctx (prev + 4 * n) 4 else (y, .ok [])
    match st with
    | (y, .error e) => (y, .error e)
    | (y, .ok wb) =>
      let els := xs.zipIdx.map fun p => ({ pos := p.2, x := p.1, idx := (q.indexBase + row * q.channels + g * q.g + p.2) % 2 ^ 32 } : El)
      let o := convertGroup q (storedForm q.code (leNat wb)) x.round x.seed x.tensor els
      let bits := codeBits q.code
      let codeW := if o.codes.isEmpty then [] else
        [(q.codeAddr + (row * q.channels + g * q.g) * bits / 8, packElems bits (o.codes.map (·.2)))]
      let gaugeW := if q.gaugeAddr = 0 then [] else [(q.gaugeAddr + 16 * n, o.gauge)]
      let st := y.vwrites x.stall x.ctx x.tg (codeW ++ [(q.scaleAddr + 4 * n, leBytes 4 o.word)] ++ weltWrites (q.weltAddr + 32 * n) o.welts ++ gaugeW)
      (st.1.countGroup x.stall x.tg x.sliver x.aux (subSat + o.sat) o.escOv o.welts.length (if o.regauged then 1 else 0) nans, st.2)

/-- CONVERT (R122 to R131). -/
def Sys.runConvert (x : Xfer) (y : Sys) : Sys × Except Nat Unit :=
  match parseQRec x.qrec with
  | none => (y, .error 0x10)
  | some q =>
    let wide := (y.tg x.tg).tallies.any fun t => t.qrec == x.aux && t.wide
    let tab := if q.rescale then y.vread (some x.stall) x.ctx q.rescaleAddr (8 * q.channels) else (y, .ok [])
    match tab with
    | (y, .error e) => (y, .error e)
    | (y, .ok tb) =>
      y.seq (List.range x.rows) fun r y =>
        match y.xferRead x x.srcSpace (x.srcRow r) (4 * q.channels) 0 with
        | (y, .error e) => (y, .error e)
        | (y, .ok bs) =>
          y.seq (List.range (q.channels / q.g)) fun g y =>
            let raw := (List.range q.g).map fun k =>
              let ch := g * q.g + k
              if q.rescale then fFma (wordAt bs ch) (wordAt tb (2 * ch)) (wordAt tb (2 * ch + 1)) else wordAt bs ch
            y.convertOne x q wide r g raw

/-! ### Zero compression (R147, R148) -/

/-- Element width, lanes and pixels of a row of a ZC transfer. -/
def Xfer.zcBits (x : Xfer) : Nat := 4 * 2 ^ fld (x.w 1) 20 2
def Xfer.zcLanes (x : Xfer) : Nat := if bitAt (x.w 1) 22 then 32 else 16
def Xfer.zcPixels (x : Xfer) : Nat := 8 * x.rowBytes / (x.zcBits * x.zcLanes)

/-- Group size of a ZC transfer, and groups of a column: its row blocks are the channel blocks of one image row (R141, R308; DEDUCED, log
entry 77). -/
def Xfer.zcG (x : Xfer) : Nat := (groupSize (fld (x.w 1) 23 2)).getD 32
def Xfer.zcNg (x : Xfer) : Nat := max 1 (x.rows * x.zcLanes / x.zcG)

/-- The code that counts as zero for a pixel of row block r, all of whose lanes lie in one group: ZP of its scale word in the order of R141 for 4-
and 8-bit elements, else 0 (R148). -/
def Sys.zcZero (x : Xfer) (r p : Nat) (y : Sys) : Sys × Except Nat Nat :=
  if x.zcBits = 16 then (y, .ok 0)
  else match y.vread (some x.stall) x.ctx (x.word64 12 + 4 * (p * x.zcNg + r * x.zcLanes / x.zcG)) 4 with
    | (y, .error e) => (y, .error e)
    | (y, .ok bs) => (y, .ok (fld (leNat bs) 16 8 % 2 ^ x.zcBits))

/-- The zero codes of every pixel of a row. -/
def Sys.zcZeros (x : Xfer) (r : Nat) (y : Sys) : Sys × Except Nat (List Nat) :=
  (List.range x.zcPixels).foldl (fun st p => match st with
    | (y, .error e) => (y, .error e)
    | (y, .ok zs) => match y.zcZero x r p with
      | (y, .error e) => (y, .error e)
      | (y, .ok z) => (y, .ok (zs ++ [z]))) (y, .ok [])

/-- One pixel record (R147). -/
def zcPixel (bits lanes z : Nat) (es : List Nat) : List Byte :=
  let mask := (List.range lanes).foldl (fun m k => if es.getD k 0 = z then m else m + 2 ^ k) 0
  leBytes (lanes / 8) mask ++ packElems bits (es.filter (· != z))

/-- ZC_STORE: each row packed into its block at the offset its entry holds, and the next entry set (R147, R308). -/
def Sys.runZcStore (x : Xfer) (y : Sys) : Sys × Except Nat Unit :=
  y.seq (List.range x.rows) fun r y =>
    let k := x.w 11 + r
    match y.xferRead x x.srcSpace (x.srcRow r) x.rowBytes (r * x.rowBytes) with
    | (y, .error e) => (y, .error e)
    | (y, .ok bs) =>
      match y.zcZeros x r with
      | (y, .error e) => (y, .error e)
      | (y, .ok zs) =>
        match y.vread (some x.stall) x.ctx (x.aux + 4 * k) 4 with
        | (y, .error e) => (y, .error e)
        | (y, .ok eb) =>
          let body := zs.zipIdx.flatMap fun z =>
            zcPixel x.zcBits x.zcLanes z.1 ((List.range x.zcLanes).map fun l => elemAt x.zcBits bs (z.2 * x.zcLanes + l))
          let blk := padTo (cdiv body.length 64 * 64) body
          y.vwrites x.stall x.ctx x.tg [(x.aux + 64 * leNat eb, blk), (x.aux + 4 * (k + 1), leBytes 4 (leNat eb + blk.length / 64))]

/-- The pixels of a row block expanded from its bytes (R148). -/
def zcExpand (bits lanes : Nat) : List Nat → List Byte → List Nat
  | [], _ => []
  | z :: zs, bs =>
    let mask := leNat (bs.take (lanes / 8))
    let n := popcount lanes mask
    let rest := bs.drop (lanes / 8)
    (List.range lanes).map (fun l => if bitAt mask l then elemAt bits rest (popcount l mask) else z)
      ++ zcExpand bits lanes zs (rest.drop (cdiv (n * bits) 8))

/-- ZC_LOAD: row blocks expanded into rows (R148, R308). -/
def Sys.runZcLoad (x : Xfer) (y : Sys) : Sys × Except Nat Unit :=
  y.seq (List.range x.rows) fun r y =>
    let k := x.w 11 + r
    match y.zcZeros x r with
    | (y, .error e) => (y, .error e)
    | (y, .ok zs) =>
      match y.vread (some x.stall) x.ctx (x.aux + 4 * k) 8 with
      | (y, .error e) => (y, .error e)
      | (y, .ok eb) =>
        let lo := wordAt eb 0
        match y.vread (some x.stall) x.ctx (x.aux + 64 * lo) (64 * (wordAt eb 1 - lo)) with
        | (y, .error e) => (y, .error e)
        | (y, .ok blk) => y.xferWrite x x.dstSpace (x.dstRow r) (packElems x.zcBits (zcExpand x.zcBits x.zcLanes zs blk))

/-! ### Remote request (R388) -/

/-- The RREQ leaves when an NPH credit is free; its entry has been PENDING with the request's tag since the issue (R286, R388). -/
def Sys.runRemote (x : Xfer) (y : Sys) : Sys × Except Nat Unit :=
  match y.remoteOf x.ctx { x with op := 0 } with
  | none => (y, .error 0x10)
  | some (e, a) =>
    let tag := x.id % 2 ^ 16
    let y := (y.modPool 2 2 (Pool.take 1)).modDuo fun d => { d with hm := d.hm.ledgerAdd 2 1 }
    (y.emit (.harness "RREQ" [tag, x.stall, e, a, x.rowBytes] []), .ok ())

/-! ### The end of a ticket (R309) -/

/-- A slot returns; the agent's holding returns with its last one (R309, R312). -/
def Sys.freeSlot (s : Nat) (y : Sys) : Sys :=
  let y := y.modPool 7 s (Pool.give 1)
  if y.dma.xfers.any (fun x => x.stall == s && !x.cancelled) then y else (y.dropHold (.dma s)).unrequest (.dma s)

/-- What waits on the core's transfers goes on: DWAIT, FENCE, EXIT, a DMA issue (R78, R309). -/
def Sys.wakeXfers (c : Nat) (y : Sys) : Sys :=
  match (y.core c).run with
  | none => y
  | some r =>
    if (y.core c).st != .running then y else
    match r.wait with
    | .ticket t => if y.ticketOpen c t then y else (y.resumeWait c id).boundary c
    | .fence => if y.hasXfers c then y else y.resumeWait c id
    | .exit st => if y.hasXfers c then y else y.sliverEnd c st false
    | .dmaSlot d p =>
      let y := y.modRun c fun r => { r with wait := .none }
      let y := if r.pre.any (·.cand.isSome) then y.boundary c else y
      if (y.core c).issues then y.dmaIssue c d p (fun _ => true) else y
    | _ => y

/-- A transfer failed with a status: its slot returns and its sliver ends with it, at once or when it is restored (R308, R329). -/
def Sys.failXfer (id st : Nat) (y : Sys) : Sys :=
  match y.dma.xfers.find? (fun x => x.id == id) with
  | none => y
  | some x =>
    let y := (y.modDma fun d => { d with xfers := d.xfers.filter fun q => q.id != id }).freeSlot x.stall
    if y.xferOnCore x then y.failCore x.core st
    else y.modSaved x.tg x.sliver fun v => { v with run := { v.run with cancel := some st } }

/-- A transfer has all its data and may end: its agent holds the class, and no read of it is to send or outstanding. -/
def Sys.xferReady (y : Sys) (x : Xfer) : Bool :=
  y.holds (.dma x.stall) && !y.duo.hold && !x.cancelled && x.todo.isEmpty &&
  !((y.link.m0.reads ++ y.link.m1.reads ++ y.duo.hm.reads).any fun r => r.xfer == x.id) &&
  (x.op != 4 || (y.duo.st == 3 && y.duo.hm.txq.isEmpty && decide (1 ≤ (y.pool 2 2).free)))

/-- DMA_TICKET_END: the transfer of a core's sliver with a ticket is carried out and its ticket ends (R309). -/
def execDmaTicketEnd (core ticket : Nat) (s : State) : Res :=
  onSys (fun y =>
    match y.dma.xfers.find? (fun x => x.core == core && x.ticket == ticket && y.xferReady x) with
    | none => y
    | some x =>
      let r := match x.op with
        | 0 => y.runCopy x
        | 1 => y.runConvert x
        | 2 => y.runZcStore x
        | 3 => y.runZcLoad x
        | _ => y.runRemote x
      match r with
      | (y, .error st) => y.failXfer x.id st
      | (y, .ok _) => ((y.modDma fun d => { d with xfers := d.xfers.filter fun q => q.id != x.id }).freeSlot x.stall).wakeXfers core) s

end Sys2Proof.Machine
end

