-- ==== Sys2Proof/Machine/KvLists.lean ====
section
/-! DEFINITION. KV lists, page frames and the KV pools (R153 to R159, R170 to R177): the kernels KAPPEND and KLIST over one list. A kernel's
work is done as one action when its last sliver ends (log entry 22). -/

namespace Sys2Proof.Machine

def Sys.frameAddr (y : Sys) (d n : Nat) : Nat := (y.kvDom d).frames.addr frameBytes n
def Sys.slotAddr (y : Sys) (d n : Nat) : Nat := (y.kvDom d).slots.addr frameBytes n

/-! ### The kernels' way to memory -/

/-- A kernel's work: a state change that may end with a status. -/
abbrev K (α : Type) := ExceptT Nat (StateM Sys) α

/-- A state operation with a status as a kernel's work. -/
def K.lift {α : Type} (f : Sys → Sys × Except Nat α) : K α := ExceptT.mk fun y => let r := f y; (r.2, r.1)

/-- A state change. -/
def K.act (f : Sys → Sys) : K Unit := K.lift fun y => (f y, .ok ())

/-- A look at the state. -/
def K.look {α : Type} (f : Sys → α) : K α := K.lift fun y => (y, .ok (f y))

/-- End with 0x10 unless b. -/
def K.need (b : Bool) : K Unit := if b then pure () else throw 0x10

/-- Who a kernel is: its task group, context, domain. -/
structure Kid where
  tg : Nat
  ctx : Nat
  dom : Nat
  /-- Stall whose counters its conversions feed (R132). -/
  stall : Nat := 0
  deriving DecidableEq, Repr

def Kid.read (k : Kid) (a n : Nat) : K (List Byte) := K.lift fun y => y.vread none k.ctx a n
def Kid.write (k : Kid) (a : Nat) (bs : List Byte) : K Unit := K.lift fun y => y.vwrite none k.ctx a bs (some k.tg)

/-- n bytes of device memory by physical address. -/
def Sys.devRead (a n : Nat) (y : Sys) : Sys × Except Nat (List Byte) :=
  match y.mem.fails .work a n with
  | some b => (y.uncorrectable b, .error 0x30)
  | none => let r := y.mem.load .work a n; ({ y with mem := r.1 }, .ok r.2)

/-- Bytes of device memory written by physical address. -/
def Sys.devWrite (a : Nat) (bs : List Byte) (y : Sys) : Sys := y.modMem fun m => m.store .work a bs

/-! ### The list descriptor (R153) -/

structure LDesc where
  addr : Nat
  layout : Nat
  vg : Nat
  dim : Nat
  tag : Nat
  len : Nat
  prov : Nat
  window : Nat
  cap : Nat
  base : Nat
  vtab : Nat
  resLimit : Nat
  resident : Nat
  sem : Nat
  deriving DecidableEq, Repr

def LDesc.paged (l : LDesc) : Bool := l.layout == 2

/-- A list descriptor from its bytes; none for a layout, V group or dimension outside R153. -/
def parseList (a : Nat) (bs : List Byte) : Option LDesc :=
  let w := wordAt bs
  match groupSize (fld (w 0) 4 2), groupSize (fld (w 0) 2 2), fld (w 0) 0 2 with
  | some d, vg, lay =>
    if lay = 3 ∨ (lay ≠ 2 ∧ vg.isNone) ∨ a % 64 ≠ 0 then none
    else some ⟨a, lay, vg.getD 32, d, w 1, w 2, fld (w 3) 0 7, w 4, w 5, word64At bs 6, word64At bs 8, w 10, w 11, fld (w 12) 0 16⟩
  | none, _, _ => none

def Kid.list (k : Kid) (a : Nat) : K LDesc := do
  let bs ← k.read a 64
  match parseList a bs with
  | some l => pure l
  | none => throw 0x10

/-- The words the device writes: LEN, PROV, RESIDENT, RESULT (R153), at publication (R154). -/
def Kid.publish (k : Kid) (l : LDesc) (result : Option Nat) : K Unit := do
  k.write (l.addr + 8) (leBytes 4 (l.len % 2 ^ 32) ++ leBytes 4 (l.prov % 128))
  k.write (l.addr + 44) (leBytes 4 (l.resident % 2 ^ 32))
  match result with
  | some r => k.write (l.addr + 52) (leBytes 4 r)
  | none => pure ()

/-! ### Pages (R155 to R158) -/

/-- Where a page lies. -/
inductive PageAt where
  | hole
  | frame (n : Nat)
  | spilled (n : Nat)
  /-- A frame of a FLAT or RING list: its device virtual address. -/
  | region (a : Nat)
  deriving DecidableEq, Repr

/-- An entry of a page list (R157). -/
def entryOf (w : Nat) : PageAt := if w = 0xFFFFFFFF then .hole else if bitAt w 31 then .spilled (w % 2 ^ 31) else .frame w

/-- Where the page of list block b lies. -/
def Kid.pageAt (k : Kid) (l : LDesc) (b : Nat) : K PageAt := do
  if l.paged then
    if l.cap ≤ b then throw 0x10
    let bs ← k.read (l.base + 4 * b) 4
    pure (entryOf (leNat bs))
  else if l.layout = 0 then
    if l.cap ≤ b then throw 0x10
    pure (.region (l.base + frameBytes * b))
  else pure (.region (l.base + frameBytes * (b % max 1 l.cap)))

/-- A spilled page can be reached only over a module that is not DOWN; else the access ends with 0x30 after its retries (R164, R177, R328). -/
def Kid.hostUp (k : Kid) : K Unit := do
  let up ← K.look fun y => (y.module (y.moduleOf k.ctx)).st != 0
  if up then pure () else throw 0x30

/-- Bytes of a page. -/
def Kid.pageRead (k : Kid) (p : PageAt) (o n : Nat) : K (List Byte) :=
  match p with
  | .hole => throw 0x10
  | .frame f => K.lift fun y => y.devRead (y.frameAddr k.dom f + o) n
  | .spilled s => do k.hostUp; K.look fun y => Cells.read y.hostCells (y.slotAddr k.dom s + o) n
  | .region a => k.read (a + o) n

/-- Bytes of a page written; a host slot receives them over the host link. -/
def Kid.pageWrite (k : Kid) (p : PageAt) (o : Nat) (bs : List Byte) : K Unit :=
  match p with
  | .hole => throw 0x10
  | .frame f => K.act fun y => y.devWrite (y.frameAddr k.dom f + o) bs
  | .spilled s => do k.hostUp; K.act fun y => y.hostWrite k.ctx (y.slotAddr k.dom s + o) bs
  | .region a => k.write (a + o) bs

/-- A page header (R155). -/
structure PHead where
  code : Nat
  g : Nat
  dim : Nat
  count : Nat
  pinned : Bool
  prov : Bool
  vside : Bool
  tag : Nat
  pos0 : Nat
  score : Nat
  segs : List Nat
  deriving DecidableEq, Repr

def parseHead (bs : List Byte) : Option PHead :=
  let w := wordAt bs
  match groupSize (fld (w 0) 4 2), groupSize (fld (w 0) 6 2) with
  | some g, some d => some ⟨fld (w 0) 0 4, g, d, fld (w 0) 8 5, bitAt (w 0) 13, bitAt (w 0) 14, bitAt (w 0) 15, w 1, w 2, w 3,
      (List.range 16).map fun i => leNat ((bs.drop (16 + 2 * i)).take 2)⟩
  | _, _ => none

/-- The field codes of a group size. -/
def groupCode (g : Nat) : Nat := if g = 32 then 0 else if g = 64 then 1 else 2

def PHead.bytes (h : PHead) : List Byte :=
  leBytes 4 (put h.code 0 4 + put (groupCode h.g) 4 2 + put (groupCode h.dim) 6 2 + put h.count 8 5 + putb h.pinned 13 + putb h.prov 14 + putb h.vside 15)
  ++ leBytes 4 h.tag ++ leBytes 4 h.pos0 ++ leBytes 4 h.score ++ h.segs.flatMap (leBytes 2) ++ List.replicate 80 0

/-- The payload's end (R156). -/
def payloadEnd (bits d g : Nat) (vside : Bool) : Nat := 128 + 4 * d * bits + (if vside then 576 else 1152) * d / g

/-- A format R156 admits for a list. -/
def formatOk (code g d : Nat) (vside : Bool) : Bool :=
  (code == 1 || code == 3 || code == 6) && decide (g ≤ d) && decide (payloadEnd (codeBits code) d g vside ≤ frameBytes)

/-- Region offsets of the payload (R156): K codes, K words, K slots, V codes, V words, V slots. -/
def PHead.kCodes (_ : PHead) : Nat := 128
def PHead.kWords (h : PHead) : Nat := 128 + 2 * h.dim * codeBits h.code
def PHead.kSlots (h : PHead) : Nat := h.kWords + 64 * h.dim / h.g
def PHead.vCodes (h : PHead) : Nat := h.kSlots + 512 * h.dim / h.g
def PHead.vWords (h : PHead) : Nat := h.vCodes + 2 * h.dim * codeBits h.code
def PHead.vSlots (h : PHead) : Nat := h.vWords + 64 * h.dim / h.g

/-- The header of a list's page at a block; 0x10 when it disagrees with its list or breaks R156 (R161). -/
def Kid.head (k : Kid) (l : LDesc) (b : Nat) (p : PageAt) : K PHead := do
  let bs ← k.pageRead p 0 128
  match parseHead bs with
  | none => throw 0x10
  | some h =>
    if h.tag = l.tag ∧ h.dim = l.dim ∧ h.pos0 = 16 * b % 2 ^ 32 ∧ h.count ≤ 16 ∧ formatOk h.code h.g h.dim h.vside = true ∧ h.vside = !l.paged
    then pure h else throw 0x10

/-- All entries of a page list. -/
def Kid.entries (k : Kid) (l : LDesc) : K (List PageAt) := do
  let bs ← k.read l.base (4 * l.cap)
  pure ((List.range l.cap).map fun e => entryOf (wordAt bs e))

/-- An entry written. -/
def Kid.setEntry (k : Kid) (l : LDesc) (e w : Nat) : K Unit := k.write (l.base + 4 * e) (leBytes 4 w)

/-- A page that SPILL and the spill on append may move (R175): resident, not PINNED, not PROV, not holding LEN − 1. -/
def Kid.spillable (k : Kid) (l : LDesc) (e : Nat) (p : PageAt) : K Bool := do
  match p with
  | .frame _ =>
    let bs ← k.pageRead p 0 4
    pure (!bitAt (leNat bs) 13 && !bitAt (leNat bs) 14 && (l.len == 0 || e != (l.len - 1) / 16))
  | _ => pure false

/-- Spillable entries, ascending. -/
def Kid.spillables (k : Kid) (l : LDesc) (es : List PageAt) : K (List Nat) := do
  let mut out := []
  for p in es.zipIdx do
    if (← k.spillable l p.2 p.1) then out := out ++ [p.2]
  pure out

/-- One page spilled to a reserved host slot: copied whole, its entry SPILLED, its frame returned (R175). -/
def Kid.spill (k : Kid) (l : LDesc) (e f slot : Nat) : K Unit := do
  let bs ← k.pageRead (.frame f) 0 frameBytes
  k.pageWrite (.spilled slot) 0 bs
  k.setEntry l e (2 ^ 31 + slot)
  K.act fun y => (y.kvGive k.dom [f] false).modKvDom k.dom fun q => { q with spills := satInc q.spills }

/-! ### KAPPEND (R170 to R172) -/

structure KApp where
  ntok : Nat
  prov : Bool
  action : Nat
  delayed : Bool
  round : Nat
  underLog : Nat
  code : Nat
  g : Nat
  seed : Nat
  tensor : Nat
  list : Nat
  src : Nat
  seg : Nat
  deriving DecidableEq, Repr

def parseKApp (bs : List Byte) : Option KApp :=
  let w := wordAt bs 0
  match groupSize (fld w 26 2) with
  | none => none
  | some g =>
    let a : KApp := ⟨fld w 0 13, bitAt w 13, fld w 14 2, bitAt w 16, fld w 17 1, fld w 18 4, fld w 22 4, g, wordAt bs 1, wordAt bs 2,
      word64At bs 3, word64At bs 5, word64At bs 7⟩
    if 1 ≤ a.ntok ∧ a.ntok ≤ 4096 ∧ a.action ≠ 3 ∧ (a.code = 1 ∨ a.code = 3 ∨ a.code = 6) then some a else none

/-- First position of the append. -/
def LDesc.next (l : LDesc) : Nat := l.len + l.prov

/-- The conditions of R170 and R158. -/
def KApp.ok (a : KApp) (l : LDesc) : Bool :=
  (a.prov || l.prov == 0) && (!a.prov || (l.paged && decide (l.prov + a.ntok ≤ 64))) &&
  formatOk a.code a.g l.dim (!l.paged) &&
  (match l.layout with
   | 1 => 16 * l.cap % l.vg == 0 && decide (l.window + l.vg ≤ 16 * l.cap)
   | 0 => 16 * l.cap % l.vg == 0 && decide (l.next + a.ntok ≤ 16 * l.cap)
   | _ => decide (l.next + a.ntok ≤ 16 * l.cap))

/-- New pages a PAGED append opens: list blocks whose first position it reaches (R172). -/
def KApp.newBlocks (a : KApp) (l : LDesc) : List Nat :=
  if l.paged then ((List.range a.ntok).map (l.next + ·)).filterMap fun p => if p % 16 = 0 then some (p / 16) else none else []

/-- The pages an append will spill, in order, and whether it passes RES_LIMIT (R172). -/
def spillPlan (limit : Nat) : Nat → Nat → List Nat → List Nat × Bool
  | 0, _, _ => ([], false)
  | n + 1, res, cand =>
    if res < limit then spillPlan limit n (res + 1) cand
    else match cand with
      | e :: t => let r := spillPlan limit n res t; (e :: r.1, r.2)
      | [] => let r := spillPlan limit n (res + 1) []; (r.1, true)

/-- A quantisation record for a group of a KAPPEND. -/
def KApp.qrec (a : KApp) (code g : Nat) (append : Bool) : QRec :=
  { code := code, g := g, action := a.action, delayed := a.delayed, append := append, wideFmt := 0, rescale := false, underLog := a.underLog,
    thresh := 0xFFFF, channels := g, indexBase := 0, codeAddr := 0, scaleAddr := 0, weltAddr := 0, prevAddr := 0, wideAddr := 0,
    rescaleAddr := 0, gaugeAddr := 0 }

/-- What the groups of a token count: saturations and escape overflows. -/
def tokenSat (subs : List (Nat × Bool × Bool)) (o : GroupOut) : Nat := (subs.filter fun p => p.2.2).length + o.sat + o.escOv

/-- Conversion saturations and escape overflows, welt entries and regauged groups count in the stall (R132). -/
def Kid.countConv (k : Kid) (sats : Nat) (o : GroupOut) : K Unit := K.act fun y => y.modStall k.stall fun q =>
  { q with convSat := satAdd q.convSat sats, escapes := satAdd q.escapes o.welts.length, regauges := satAdd q.regauges (if o.regauged then 1 else 0) }

/-- One group along D of a token converted and written into its page (R171): offsets of codes, words and slots; the saturations. -/
def Kid.tokenGroup (k : Kid) (a : KApp) (h : PHead) (p : PageAt) (i gi : Nat) (oc ow os : Nat) (xs : List Nat) (idx tensor : Nat)
    (prev : Option Nat) : K Nat := do
  let subs := xs.map substX
  let els := subs.zipIdx.map fun s => ({ pos := s.2, x := s.1.1, idx := (idx + s.2) % 2 ^ 32 } : El)
  let a' := a.qrec h.code h.g false
  -- before the first token the group is gauged fresh and not counted as regauged
  let o := convertGroup { a' with delayed := a.delayed && prev.isSome } (prev.bind (storedForm h.code)) a.round a.seed tensor els
  let n := i * (h.dim / h.g) + gi
  let bits := codeBits h.code
  if !o.codes.isEmpty then k.pageWrite p (oc + (i * h.dim + gi * h.g) * bits / 8) (packElems bits (o.codes.map (·.2)))
  k.pageWrite p (ow + 4 * n) (leBytes 4 o.word)
  if !o.welts.isEmpty then k.pageWrite p (os + 32 * n) (o.welts.flatMap fun w => leBytes 4 (w.1 % 2 ^ 16) ++ leBytes 4 w.2)
  k.countConv (tokenSat subs o) o
  pure (tokenSat subs o)

/-- The word most recently written for group gi of K or V (PAGED) before position p (R171), page by page back: a page of larger groups may have no
such group, and an evicted page holds its words no more (log entry 78). -/
def Kid.prevWord (k : Kid) (l : LDesc) (v : Bool) (gi : Nat) : Nat → Nat → K (Option Nat)
  | 0, _ => pure none
  | f + 1, p => do
    if p = 0 then pure none else
    let b := (p - 1) / 16
    let at_ ← k.pageAt l b
    if at_ = .hole then k.prevWord l v gi f (16 * b) else
    let h ← k.head l b at_
    let n := h.dim / h.g
    if gi < n then
      let bs ← k.pageRead at_ ((if v then h.vWords else h.kWords) + 4 * ((p - 1) % 16 * n + gi)) 4
      pure (some (leNat bs))
    else k.prevWord l v gi f (16 * b)

/-- The words most recently written for the first n groups before position p. -/
def Kid.prevWords (k : Kid) (l : LDesc) (p n : Nat) (v : Bool) : K (List (Option Nat)) := do
  let mut out : List (Option Nat) := []
  for gi in List.range n do
    let w ← k.prevWord l v gi (p / 16 + 1) p
    out := out ++ [w]
  pure out

/-- Slots per region of a FLAT or RING list, and the slot of a position (R158). -/
def LDesc.slotOf (l : LDesc) (p : Nat) : Nat := if l.layout = 1 then p % max 1 (16 * l.cap) else p

/-- The raw V codes of channel j in slots a to a + n − 1 of a FLAT or RING list. -/
def Kid.vCodesOf (k : Kid) (l : LDesc) (h : PHead) (a n j : Nat) : K (List Nat) := do
  let bits := codeBits h.code
  let mut out := []
  for i in List.range n do
    let s := a + i
    let e := (s % 16) * h.dim + j
    let bs ← k.pageRead (.region (l.base + frameBytes * (s / 16))) (h.vCodes + e * bits / 8) 1
    out := out ++ [if bits = 4 then leNat bs / 2 ^ (4 * (e % 2)) % 16 else leNat bs]
  pure out

/-- The V element of channel j of a token appended to its group along tokens (R126, R158, R171): the saturations. -/
def Kid.vElem (k : Kid) (a : KApp) (l : LDesc) (h : PHead) (p j x : Nat) : K Nat := do
  let s := l.slotOf p
  let n := s / l.vg
  let pos := s % l.vg
  let entry := l.vtab + n * 36 * l.dim
  let wAddr := entry + 4 * j
  let sAddr := entry + 4 * l.dim + 32 * j
  let sub := substX x
  let new : El := { pos := pos, x := sub.1, idx := (p * l.dim + j) % 2 ^ 32 }
  let fresh := pos == 0
  -- earlier elements of the group, decoded
  let own ← if fresh then pure 0 else do let bs ← k.read wAddr 4; pure (leNat bs)
  let raws ← if fresh then pure [] else k.vCodesOf l h (n * l.vg) pos j
  let slot ← if fresh then pure [] else k.read sAddr 32
  let form := if fresh then none else parseGroup h.code l.vg own slot raws
  if !fresh && form.isNone then throw 0x10
  let old := raws.zipIdx.map fun r =>
    let gone : Nat × Bool := match form with
      | some (.const v) => (v, false)
      | some (.escaped sc zp es) => match es.find? (fun e => e.1 == r.2) with
        | some e => (e.2, true)
        | none => (f32Of (decodeElem h.code r.1 sc zp) (isNegZero h.code r.1), false)
      | some (.plain sc zp) => (f32Of (decodeElem h.code r.1 sc zp) (isNegZero h.code r.1), false)
      | _ => (0, false)
    ({ pos := r.2, x := gone.1, idx := ((p - pos + r.2) * l.dim + j) % 2 ^ 32, old := true, oldEsc := gone.2 } : El)
  -- the stored word: the group's own, or the one most recently written for the channel
  let prev ← if !fresh then pure (some own)
    else if p = 0 then pure none
    else do
      let q := l.slotOf (p - 1) / l.vg
      let bs ← k.read (l.vtab + q * 36 * l.dim + 4 * j) 4
      pure (some (leNat bs))
  let rec_ := a.qrec h.code l.vg (!fresh)
  let o := convertGroup { rec_ with delayed := a.delayed && prev.isSome } (prev.bind (storedForm h.code)) a.round a.seed ((a.tensor + 1) % 2 ^ 32)
    (old ++ [new])
  let bits := codeBits h.code
  for c in o.codes do
    let sl := n * l.vg + c.1
    let e := (sl % 16) * h.dim + j
    let pg : PageAt := .region (l.base + frameBytes * (sl / 16))
    let off := h.vCodes + e * bits / 8
    if bits = 4 then
      let ob ← k.pageRead pg off 1
      let v := leNat ob
      k.pageWrite pg off (leBytes 1 (if e % 2 = 0 then v / 16 * 16 + c.2 else v % 16 + 16 * c.2))
    else k.pageWrite pg off (leBytes 1 c.2)
  k.write wAddr (leBytes 4 o.word)
  if !o.welts.isEmpty then k.write sAddr (o.welts.flatMap fun w => leBytes 4 (w.1 % 2 ^ 16) ++ leBytes 4 w.2)
  let sats := (if sub.2.2 then 1 else 0) + o.sat + o.escOv
  k.countConv sats o
  pure sats

/-- One token appended at position p (R171, R172): the saturations. -/
def Kid.appendToken (k : Kid) (a : KApp) (l : LDesc) (t p seg : Nat) (frame : Option Nat) : K Nat := do
  let b := p / 16
  let i := p % 16
  -- the page: a new one when p is a multiple of 16
  match frame with
  | some f => k.setEntry l b f
  | none => pure ()
  let at_ ← k.pageAt l b
  if (match at_ with | .frame _ => false | .region _ => false | _ => true) then throw 0x10
  let h0 : PHead ← if i = 0 then pure ⟨a.code, a.g, l.dim, 0, false, a.prov, !l.paged, l.tag, p % 2 ^ 32, 0, List.replicate 16 0⟩
    else k.head l b at_
  if !l.paged && (h0.code != a.code || h0.g != a.g) then throw 0x10
  let h := { h0 with count := i + 1, segs := h0.segs.set i seg }
  let kPrev ← k.prevWords l p (h.dim / h.g) false
  let vPrev ← if l.paged then k.prevWords l p (h.dim / h.g) true else pure []
  k.pageWrite at_ 0 h.bytes
  let xb ← k.read (a.src + 8 * l.dim * t) (8 * l.dim)
  let mut sats := 0
  for gi in List.range (h.dim / h.g) do
    let xs := (List.range h.g).map fun c => wordAt xb (gi * h.g + c)
    let n ← k.tokenGroup a h at_ i gi h.kCodes h.kWords h.kSlots xs (p * l.dim + gi * h.g) a.tensor (kPrev[gi]?.getD none)
    sats := sats + n
  if l.paged then
    for gi in List.range (h.dim / h.g) do
      let xs := (List.range h.g).map fun c => wordAt xb (l.dim + gi * h.g + c)
      let n ← k.tokenGroup a h at_ i gi h.vCodes h.vWords h.vSlots xs (p * l.dim + gi * h.g) ((a.tensor + 1) % 2 ^ 32) (vPrev[gi]?.getD none)
      sats := sats + n
  else
    for j in List.range l.dim do
      let n ← k.vElem a l h p j (wordAt xb (l.dim + j))
      sats := sats + n
  pure sats

/-- What an append must reserve: frames, the entries to spill, OVER_LIMIT (R172). -/
def Kid.appendPlan (k : Kid) (a : KApp) (l : LDesc) : K (Nat × List Nat × Bool) := do
  let nb := (a.newBlocks l).length
  if nb = 0 then pure (0, [], false) else
  let es ← k.entries l
  let cand ← k.spillables l es
  let r := spillPlan l.resLimit nb l.resident cand
  pure (nb, r.1, r.2)

/-- KAPPEND with its frames and slots reserved: the status (R170 to R172). -/
def Kid.append (k : Kid) (a : KApp) (l : LDesc) (frames slots : List Nat) : K Nat := do
  let (_, spills, past) ← k.appendPlan a l
  if !l.paged && decide (0 < l.len) then
    let at_ ← k.pageAt l ((l.len - 1) / 16)
    let h ← k.head l ((l.len - 1) / 16) at_
    K.need (h.code == a.code && h.g == a.g)
  let es ← if spills.isEmpty then pure [] else k.entries l
  let mut sats := 0
  let mut left := frames
  for t in List.range a.ntok do
    let p := l.next + t
    let seg ← if a.seg = 0 then pure 0 else do let bs ← k.read (a.seg + 2 * t) 2; pure (leNat bs)
    let f := if l.paged && p % 16 == 0 then left.head? else none
    if f.isSome then left := left.tail
    let n ← k.appendToken a l t p seg f
    sats := sats + n
  for s in spills.zip slots do
    match es[s.1]? with
    | some (.frame f) => k.spill l s.1 f s.2
    | _ => pure ()
  let l' := { l with len := if a.prov then l.len else l.len + a.ntok, prov := if a.prov then l.prov + a.ntok else l.prov,
                     resident := l.resident + frames.length - spills.length }
  k.publish l' none
  if past then K.act fun y => y.kvEvent 2
  pure (if 0 < sats then 0x21 else 0)

/-! ### KLIST (R173 to R176) -/

structure KLst where
  op : Nat
  n : Nat
  keep : Nat
  list : Nat
  idx : Nat
  tree : Nat
  deriving DecidableEq, Repr

def parseKLst (bs : List Byte) : Option KLst :=
  let q : KLst := ⟨fld (wordAt bs 0) 0 3, fld (wordAt bs 1) 0 24, fld (wordAt bs 2) 0 24, word64At bs 3, word64At bs 5, word64At bs 7⟩
  if q.op ≤ 4 ∧ (q.op = 4 → q.n ≤ 16) then some q else none

/-- PIN and UNPIN (R173): the pages acted on. -/
def Kid.pin (k : Kid) (q : KLst) (l : LDesc) (set : Bool) : K Nat := do
  let es ← k.entries l
  let ib ← k.read q.idx (4 * q.n)
  let is_ := (List.range q.n).map (wordAt ib)
  K.need (is_.all (fun e => decide (e < l.cap)))
  let mut done := 0
  for e in is_ do
    let p := es.getD e .hole
    if p ≠ .hole then
      let bs ← k.pageRead p 0 4
      let w := leNat bs
      k.pageWrite p 0 (leBytes 4 (if set then setBit w 13 else clrBit w 13))
      done := done + 1
  pure done

/-- EVICT (R174). -/
def Kid.evict (k : Kid) (q : KLst) (l : LDesc) : K (Nat × LDesc) := do
  let es ← k.entries l
  let live := (es.zipIdx.filter fun p => p.1 != .hole)
  let shut := (live.drop (live.length - q.keep)).map (·.2)
  let mut cand : List (Nat × Nat × PageAt) := []
  for p in live do
    let bs ← k.pageRead p.1 0 16
    let w := wordAt bs 0
    if !bitAt w 13 && !bitAt w 14 && (l.len == 0 || p.2 != (l.len - 1) / 16) && !shut.contains p.2 then
      cand := cand ++ [(fKey (wordAt bs 3), p.2, p.1)]
  let out := (cand.mergeSort fun a b => decide (a.1 < b.1) || (a.1 == b.1 && decide (a.2.1 ≤ b.2.1))).take q.n
  let mut l := l
  for c in out do
    k.setEntry l c.2.1 0xFFFFFFFF
    match c.2.2 with
    | .frame f => K.act (Sys.kvGive k.dom [f] false); l := { l with resident := l.resident - 1 }
    | .spilled s => K.act (Sys.kvGive k.dom [s] true)
    | _ => pure ()
  K.act fun y => y.modKvDom k.dom fun d => { d with evicts := satAdd d.evicts out.length }
  pure (out.length, l)

/-- SPILL with its slots reserved (R175). -/
def Kid.spillOp (k : Kid) (q : KLst) (l : LDesc) (slots : List Nat) : K (Nat × LDesc) := do
  let es ← k.entries l
  let cand ← k.spillables l es
  let out := (cand.take q.n).zip slots
  for c in out do
    match es[c.1]? with
    | some (.frame f) => k.spill l c.1 f c.2
    | _ => pure ()
  pure (out.length, { l with resident := l.resident - out.length })

/-- The row of a token copied from one position to another (R176). -/
def Kid.copyRow (k : Kid) (l : LDesc) (src dst : Nat) : K Unit := do
  let a ← k.pageAt l (src / 16)
  let b ← k.pageAt l (dst / 16)
  let h ← k.head l (src / 16) a
  let i := src % 16
  let j := dst % 16
  let rb := h.dim * codeBits h.code / 8
  let nw := 4 * (h.dim / h.g)
  let ns := 32 * (h.dim / h.g)
  for r in [(h.kCodes, rb), (h.kWords, nw), (h.kSlots, ns), (h.vCodes, rb), (h.vWords, nw), (h.vSlots, ns), (16, 2)] do
    let bs ← k.pageRead a (r.1 + i * r.2) r.2
    k.pageWrite b (r.1 + j * r.2) bs

/-- COMMIT (R176): the list as it stands after it. -/
def Kid.commit (k : Kid) (q : KLst) (l : LDesc) : K (Nat × LDesc) := do
  let pb ← k.read q.idx q.n
  let path := (List.range q.n).map fun i => (pb.getD i 0).toNat
  K.need (path.all (fun n => decide (n < l.prov)))
  let tb ← k.read q.tree l.prov
  let par := fun n => (tb.getD n 0).toNat
  K.need ((path.zipIdx).all fun p => par p.1 == if p.2 = 0 then 0xFF else path.getD (p.2 - 1) 0)
  for p in path.zipIdx do
    if p.1 ≠ p.2 then k.copyRow l (l.len + p.1) (l.len + p.2)
  let len := l.len + q.n
  -- entries that now hold no committed token
  let first := cdiv len 16
  let last := cdiv (l.len + l.prov) 16
  let mut acted := 0
  let mut res := l.resident
  for e in List.range (last - first) do
    let at_ ← k.pageAt l (first + e)
    match at_ with
    | .frame f =>
      k.setEntry l (first + e) 0xFFFFFFFF
      K.act (Sys.kvGive k.dom [f] false)
      res := res - 1
      acted := acted + 1
    | _ => pure ()
  -- pages kept that held provisional tokens: COUNT and PROV
  for e in List.range (first - l.len / 16) do
    let b := l.len / 16 + e
    let at_ ← k.pageAt l b
    if at_ ≠ .hole then
      let h ← k.head l b at_
      let cnt := if b = (len - 1) / 16 then (len - 1) % 16 + 1 else 16
      k.pageWrite at_ 0 { h with count := cnt, prov := false }.bytes
      acted := acted + 1
  pure (acted, { l with len := len, prov := 0, resident := res })

/-- KLIST with its host slots reserved: the status. -/
def Kid.klist (k : Kid) (q : KLst) (l : LDesc) (slots : List Nat) : K Nat := do
  let r ← match q.op with
    | 0 => k.evict q l
    | 1 => do let n ← k.pin q l true; pure (n, l)
    | 2 => do let n ← k.pin q l false; pure (n, l)
    | 3 => k.spillOp q l slots
    | _ => k.commit q l
  k.publish r.2 (some r.1)
  pure 0

end Sys2Proof.Machine
end

