-- ==== Sys2Proof/Machine/Attention.lean ====
section
/-! DEFINITION. The attention kernels ATTN and ATTN_BWD (R160 to R169, R178): rows, tiles, visibility, online softmax, splits and their
merge, page masses, gradients. -/

namespace Sys2Proof.Machine

/-! ### The parameter block (R160) -/

structure AttnP where
  tree : Bool
  qCode : Nat
  causal : Bool
  segments : Bool
  score : Bool
  saveMl : Bool
  bf16 : Bool
  sparse : Bool
  qg : Nat
  hpk : Nat
  qtok : Nat
  qpos0 : Nat
  scale : Nat
  list : Nat
  q : Nat
  o : Nat
  ml : Nat
  qseg : Nat
  treeAddr : Nat
  globals : Nat
  qOfs : Int
  rtiles : Nat
  pfAhead : Nat
  ns : Nat
  spl : Nat
  nglobal : Nat
  loc : Nat
  pf : Nat
  /-- Q_SCALE_ADDR, or DO_ADDR of ATTN_BWD, and DQ_ADDR, DK_ADDR, DV_ADDR (R178). -/
  qScale : Nat
  dq : Nat
  dk : Nat
  dv : Nat
  deriving DecidableEq, Repr

/-- The block from its 128 bytes; none for a field out of its range (R161, R178). -/
def parseAttn (bwd : Bool) (bs : List Byte) : Option AttnP :=
  let w := wordAt bs
  let a : AttnP := {
    tree := fld (w 0) 0 2 == 1, qCode := fld (w 0) 2 4, causal := bitAt (w 0) 6, segments := bitAt (w 0) 7, score := bitAt (w 0) 8,
    saveMl := bitAt (w 0) 9, bf16 := bitAt (w 0) 10, sparse := bitAt (w 0) 11, qg := (groupSize (fld (w 0) 12 2)).getD 0,
    hpk := fld (w 0) 16 7, qtok := fld (w 1) 0 13, qpos0 := w 2, scale := w 3, list := word64At bs 4, q := word64At bs 6, o := word64At bs 8,
    ml := word64At bs 10, qseg := word64At bs 12, treeAddr := word64At bs 14, globals := word64At bs 16, qOfs := sx 8 (fld (w 18) 0 8),
    rtiles := fld (w 18) 8 4 + 1, pfAhead := fld (w 18) 12 4, ns := fld (w 18) 16 8, spl := fld (w 19) 0 16, nglobal := fld (w 19) 16 7,
    loc := w 20, pf := word64At bs 21, qScale := word64At bs 24, dq := word64At bs 26, dk := word64At bs 28, dv := word64At bs 30 }
  let codeOk := a.qCode = 0 ∨ a.qCode = 8 ∨ a.qCode = 9 ∨ (bwd = false ∧ (a.qCode = 3 ∨ a.qCode = 6) ∧ a.qg ≠ 0)
  if fld (w 0) 0 2 ≤ 1 ∧ codeOk ∧ 1 ≤ a.hpk ∧ a.hpk ≤ 64 ∧ 1 ≤ a.qtok ∧ a.qtok ≤ 4096 ∧ isFinite a.scale = true ∧ 1 ≤ a.spl ∧
     a.nglobal ≤ 64 ∧ a.pfAhead ≤ 8 ∧ (bwd = true → a.tree = false) ∧ (a.tree = true → a.score = false)
  then some a else none

/-- Rows (R162). -/
def AttnP.rows (a : AttnP) : Nat := a.qtok * a.hpk

/-- What a kernel run knows beside its block: the list, parents, segments, global positions. -/
structure AttnX where
  p : AttnP
  l : LDesc
  parents : List Nat
  segs : List Nat
  globals : List Nat
  deriving DecidableEq, Repr

/-- Node j is t or an ancestor of t (fuel bounds the path). -/
def isAncestor (parents : List Nat) : Nat → Nat → Nat → Bool
  | 0, t, j => t == j
  | f + 1, t, j => t == j || (let p := parents.getD t 0xFF; p != 0xFF && isAncestor parents f p j)

/-- Length of the path from a node to the root (fuel bounds it). -/
def pathLen (parents : List Nat) : Nat → Nat → Nat
  | 0, _ => 1
  | f + 1, t => let p := parents.getD t 0xFF; if p = 0xFF then 1 else 1 + pathLen parents f p

/-- Position of a row's query token (R163). -/
def AttnX.qpos (x : AttnX) (r : Nat) : Nat := if x.p.tree then x.l.len + r / x.p.hpk else x.p.qpos0 + r / x.p.hpk

/-- A key at a position is visible to a row, as far as position and mode decide (R163). -/
def AttnX.sees (x : AttnX) (r pos : Nat) : Bool :=
  let qp := x.qpos r
  (if x.p.tree then decide (pos < x.l.len) || isAncestor x.parents 16 (r / x.p.hpk) (pos - x.l.len) else decide (pos < x.l.len)) &&
  (x.l.layout != 1 || decide (x.l.len ≤ pos + x.l.window)) &&
  (!x.p.causal || x.p.tree || decide (pos ≤ qp)) &&
  (!x.p.sparse || decide (qp < pos + x.p.loc) || x.globals.contains pos)

/-- Walk block 0 and the blocks of the walk (R162). -/
def AttnX.first (x : AttnX) : Nat := if x.l.layout = 1 then (x.l.len - x.l.window) / 16 else 0
def AttnX.blocks (x : AttnX) : Nat := cdiv (if x.p.tree then x.l.len + x.l.prov else x.l.len) 16 - x.first

/-- The block's conditions against its list (R161), with what it names read. -/
def Kid.attnX (k : Kid) (bwd : Bool) (bs : List Byte) : K AttnX := do
  match parseAttn bwd bs with
  | none => throw 0x10
  | some p =>
    let l ← k.list p.list
    K.need (decide (p.qg ≤ l.dim) || p.qCode != 3 && p.qCode != 6)
    K.need (l.len != 0 || l.prov != 0)
    K.need ((!p.score || l.paged) && (!p.tree || (l.paged && p.qtok == l.prov)) && (!bwd || l.layout == 0))
    let parents ← if p.tree then do let b ← k.read p.treeAddr p.qtok; pure (b.map (·.toNat)) else pure []
    K.need (parents.zipIdx.all fun q => q.1 == 0xFF || decide (q.1 < q.2))
    K.need (parents.zipIdx.all fun q => decide (pathLen parents 64 q.2 ≤ 16))
    let segs ← if p.segments then do
        let b ← k.read p.qseg (2 * p.qtok)
        pure ((List.range p.qtok).map fun i => leNat ((b.drop (2 * i)).take 2))
      else pure []
    let globals ← if p.sparse && p.nglobal != 0 then do
        let b ← k.read p.globals (4 * p.nglobal)
        pure ((List.range p.nglobal).map (wordAt b))
      else pure []
    K.need (ascending globals)
    let x : AttnX := ⟨p, l, parents, segs, globals⟩
    K.need (decide (x.blocks ≤ (p.ns + 1) * p.spl))
    pure x

/-! ### Operand tiles -/

/-- One tile as the cells take it: its offset and 16 operands, with a second list for a wide operand's low part (R116). -/
structure QTile where
  ofs : Int
  hi : List XOp
  lo : List XOp
  deriving DecidableEq, Repr

/-- A finite FP32 value as an exact number; another value is open (log entry 23). -/
def stageVal (w : Nat) : Dy :=
  if isFinite w then f32Val w else f32Val ((Config.freeWord w).toNat % 2 ^ 30)

/-- The staged offset of a tile of floating values (R162): from floor(log2 |x|) of its nonzero finite elements. -/
def stagedOffset (ds : List Dy) : Int :=
  match (ds.filter (fun d => d.m != 0)).map (fun d => floorLog2 d.m.natAbs 1 + d.e) with
  | [] => 0
  | e :: es => max (-128) (min 127 (es.foldl max e - 31))

/-- A tile of FP32 values staged to X16 under RNE (R162), with the saturation flag. -/
def stageTile (ws : List Nat) (ofs : Option Int) : QTile × Bool :=
  let ds := ws.map stageVal
  let o := ofs.getD (stagedOffset ((ws.filter isFinite).map f32Val))
  let r := ds.map fun d => toX16 .rne ⟨d.m, d.e - o⟩
  (⟨o, r.map fun p => ⟨p.1, none⟩, []⟩, r.any (·.2))

/-- The value of a wide element (code 8 or 9). -/
def wideDy (c raw : Nat) : Dy :=
  let f := if c = 8 then fp16 else bf16
  let m := raw % 2 ^ 15
  if (if c = 8 then 0x7C00 else 0x7F80) ≤ m then ⟨0, 0⟩ else f.val 15 raw

/-- Swap rows and columns of a 4 × 4 tile. -/
def transpose4 {α : Type} (d : α) (t : List α) : List α := (List.range 16).map fun e => t.getD (4 * (e % 4) + e / 4) d

/-- Number of cells of a tile that satisfy a test, rows by columns. -/
def tileCount (rows : List Nat) (f : Nat → Nat → Bool) : Nat := (rows.map fun i => ((List.range 4).filter (f i)).length).sum

/-- Row tile T of Q at channel step c (R162): rows 4T to 4T + 3, channels 4c to 4c + 3, with its expansion saturations (R117). -/
def Kid.qTile (k : Kid) (x : AttnX) (T c : Nat) : K (QTile × Nat) := do
  let d := x.l.dim
  let code := x.p.qCode
  let bits := codeBits code
  let rowsIn := (List.range 4).filter fun i => decide (4 * T + i < x.p.rows)
  let mut raws : List (List Nat) := []
  for i in rowsIn do
    let bs ← k.read (x.p.q + (4 * T + i) * d * bits / 8 + 4 * c * bits / 8) (4 * bits / 8)
    raws := raws ++ [(List.range 4).map (elemAt bits bs)]
  let raw := fun (i t : Nat) => (raws.getD i []).getD t 0
  let pad : XOp := ⟨0, none⟩
  let grid := fun (f : Nat → Nat → XOp) => (List.range 16).map fun e => if e / 4 < rowsIn.length then f (e / 4) (e % 4) else pad
  if code = 0 then pure (⟨x.p.qOfs, grid fun i t => ⟨raw i t, none⟩, []⟩, 0)
  else if 8 ≤ code then
    let o := stagedOffset (raws.flatten.map (wideDy code))
    let sp := fun (i t : Nat) => splitWide code (raw i t) o
    let sat := tileCount rowsIn fun i t => (sp i t).2.2
    pure (⟨o, grid fun i t => ⟨(sp i t).1, none⟩, grid fun i t => ⟨(sp i t).2.1, none⟩⟩, sat)
  else
    let n := x.p.rows * (d / x.p.qg)
    let slot0 := cdiv (x.p.qScale + 4 * n) 32 * 32
    let mut gs : List Group := []
    let gi := 4 * c / x.p.qg
    for i in rowsIn do
      let j := (4 * T + i) * (d / x.p.qg) + gi
      let wb ← k.read (x.p.qScale + 4 * j) 4
      let sb ← k.read (slot0 + 32 * j) 32
      let cb ← k.read (x.p.q + ((4 * T + i) * d + gi * x.p.qg) * bits / 8) (x.p.qg * bits / 8)
      match parseGroup code x.p.qg (leNat wb) sb ((List.range x.p.qg).map (elemAt bits cb)) with
      | some g => gs := gs ++ [g]
      | none => throw 0x10
    let o := tileOffset code gs
    let e := fun (i t : Nat) => expandElem code (gs.getD i .zero) ((4 * c + t) % x.p.qg) (raw i t) o .rne
    let sat := tileCount rowsIn fun i t => (e i t).2
    pure (⟨o, grid fun i t => (e i t).1, []⟩, sat)

/-- A page of the walk as read: where it lies, header, bytes, and the V groups of a FLAT or RING list. -/
structure Blk where
  at_ : PageAt
  b : Nat
  h : PHead
  bytes : List Byte
  /-- Side table: scale words and slots of the V group, and its raw codes by channel (R158). -/
  side : List Byte
  vRaws : List (List Nat)
  deriving DecidableEq, Repr

/-- The position of slot i of a block. -/
def Blk.pos (b : Blk) (i : Nat) : Nat := 16 * b.b + i

/-- A row sees the key in slot i of a block (R163). -/
def AttnX.vis (x : AttnX) (b : Blk) (r i : Nat) : Bool :=
  decide (i < b.h.count) && x.sees r (b.pos i) && (!x.p.segments || b.h.segs.getD i 0 == x.segs.getD (r / x.p.hpk) 0)

/-- Bytes of a page's region. -/
def Blk.part (b : Blk) (o n : Nat) : List Byte := (b.bytes.drop o).take n

/-- The K group g of slot i (R156, R159). -/
def Blk.kGroup (b : Blk) (i g : Nat) : Option Group :=
  let n := i * (b.h.dim / b.h.g) + g
  let bits := codeBits b.h.code
  parseGroup b.h.code b.h.g (leNat (b.part (b.h.kWords + 4 * n) 4)) (b.part (b.h.kSlots + 32 * n) 32)
    ((List.range b.h.g).map fun c => elemAt bits (b.part b.h.kCodes (2 * b.h.dim * bits)) (i * b.h.dim + g * b.h.g + c))

/-- The V group of slot i and channel j, and the element's position in it (R156, R158). -/
def Blk.vGroup (b : Blk) (l : LDesc) (i j : Nat) : Option Group × Nat :=
  let bits := codeBits b.h.code
  if b.h.vside then
    (parseGroup b.h.code l.vg (leNat ((b.side.drop (4 * j)).take 4)) ((b.side.drop (4 * l.dim + 32 * j)).take 32) (b.vRaws.getD j []),
     l.slotOf (b.pos i) % l.vg)
  else
    let g := j / b.h.g
    let n := i * (b.h.dim / b.h.g) + g
    (parseGroup b.h.code b.h.g (leNat (b.part (b.h.vWords + 4 * n) 4)) (b.part (b.h.vSlots + 32 * n) 32)
      ((List.range b.h.g).map fun c => elemAt bits (b.part b.h.vCodes (2 * b.h.dim * bits)) (i * b.h.dim + g * b.h.g + c)), j % b.h.g)

/-- Raw code of slot i, channel j: K or V. -/
def Blk.raw (b : Blk) (v : Bool) (i j : Nat) : Nat :=
  elemAt (codeBits b.h.code) (b.part (if v then b.h.vCodes else b.h.kCodes) (2 * b.h.dim * codeBits b.h.code)) (i * b.h.dim + j)

/-- The tile of K or V of slots 4s to 4s + 3 and channels 4c to 4c + 3, as token × channel; a slot no row of the tile sees enters as +0
(R159). -/
def Blk.tile (b : Blk) (l : LDesc) (v : Bool) (s c : Nat) (seen : Nat → Bool) : K (QTile × Nat) := do
  let mut gs : List (List (Group × Nat)) := []
  for i in List.range 4 do
    let mut row : List (Group × Nat) := []
    if seen (4 * s + i) then
      for t in List.range 4 do
        let g := if v then b.vGroup l (4 * s + i) (4 * c + t) else (b.kGroup (4 * s + i) ((4 * c + t) / b.h.g), (4 * c + t) % b.h.g)
        match g.1 with
        | some q => row := row ++ [(q, g.2)]
        | none => throw 0x10
    gs := gs ++ [row]
  let o := tileOffset b.h.code (gs.flatten.map (·.1))
  let e := fun (i t : Nat) => match (gs.getD i [])[t]? with
    | some g => expandElem b.h.code g.1 g.2 (b.raw v (4 * s + i) (4 * c + t)) o .rne
    | none => (⟨0, none⟩, false)
  pure (⟨o, (List.range 16).map fun q => (e (q / 4) (q % 4)).1, []⟩, tileCount (List.range 4) fun i t => (e i t).2)

/-- One EMMA step, or two for a wide A or a wide B (R116, R165): the bank and the saturation flag. -/
def stepOn (acc : List Word × Bool) (a b : QTile) : List Word × Bool :=
  let go := fun (acc : List Word × Bool) (x z : List XOp) => let r := applyStep acc.1 (mkStep x z a.ofs b.ofs); (r.1, acc.2 || r.2)
  let acc := go acc a.hi b.hi
  let acc := if a.lo.isEmpty then acc else go acc a.lo b.hi
  if b.lo.isEmpty then acc else go acc a.hi b.lo

/-- A bank of zeros. -/
def zeroBank : List Word × Bool := (List.replicate 16 0, false)

/-- A tile transposed. -/
def QTile.tr (q : QTile) : QTile := ⟨q.ofs, transpose4 ⟨0, none⟩ q.hi, if q.lo.isEmpty then [] else transpose4 ⟨0, none⟩ q.lo⟩

/-- A key of a page is visible to one of some rows, its header known (R163). -/
def AttnX.shows (x : AttnX) (rows : List Nat) (b : Nat) (h : PHead) : Bool :=
  rows.any fun r => (List.range 16).any fun i => x.vis ⟨.hole, b, h, [], [], []⟩ r i

/-- A block fetched (R164): its page, header and the V groups it needs; none for a HOLE, or when no key is visible to the rows of the chunk. -/
def Kid.fetch (k : Kid) (x : AttnX) (rows : List Nat) (b : Nat) : K (Option Blk) := do
  let at_ ← k.pageAt x.l b
  if at_ = .hole then pure none else
  let h ← k.head x.l b at_
  if !x.shows rows b h then pure none else
  let bytes ← k.pageRead at_ 0 frameBytes
  if h.vside then
    let n := x.l.slotOf (16 * b) / x.l.vg
    let side ← k.read (x.l.vtab + n * 36 * x.l.dim) (36 * x.l.dim)
    let lastS := x.l.slotOf (x.l.len - 1)
    let cnt := if lastS / x.l.vg = n then lastS % x.l.vg + 1 else x.l.vg
    let mut raws : List (List Nat) := []
    for j in List.range x.l.dim do
      let r ← k.vCodesOf x.l h (n * x.l.vg) cnt j
      raws := raws ++ [r]
    pure (some ⟨at_, b, h, bytes, side, raws⟩)
  else pure (some ⟨at_, b, h, bytes, [], []⟩)

/-! ### Online softmax (R165 to R167) -/

def negInf : Nat := 0xFF800000
def log2e : Nat := 0x3FB8AA3B

/-- A row's running state: m, l and O, and (block, mn, S) of each block kept for SCORE. -/
structure RowS where
  m : Nat := negInf
  l : Nat := 0
  o : List Nat
  marks : List (Nat × Nat × Nat) := []
  deriving DecidableEq, Repr

/-- The scores of a row tile against a block: z[row][slot] (R165), with its expansion saturations and the saturation flag. -/
def Kid.scores (k : Kid) (x : AttnX) (qs : List QTile) (b : Blk) (seen : Nat → Bool) : K (List (List Nat) × Nat × Bool) := do
  let mut cols : List (List Word) := []
  let mut sat := false
  let mut ex := 0
  for s in List.range 4 do
    let mut acc := zeroBank
    for q in qs.zipIdx do
      let t ← b.tile x.l false s q.2 seen
      ex := ex + t.2
      acc := stepOn acc q.1 t.1.tr
    sat := sat || acc.2
    cols := cols ++ [acc.1]
  let _ := k
  pure ((List.range 4).map fun i => (List.range 16).map fun j => fMul ((cols.getD (j / 4) []).getD (4 * i + j % 4) 0).toNat x.p.scale, ex, sat)

/-- One block's update of the four rows of a tile (R165), with the expansion saturations of its EMMAs, qx of the row tile's own, and the saturation
flag. -/
def Kid.softStep (k : Kid) (x : AttnX) (T : Nat) (qs : List QTile) (qx : Nat) (b : Blk) (rows : List RowS) : K (List RowS × Nat × Bool) := do
  let vis := fun (i j : Nat) => decide (4 * T + i < x.p.rows) && x.vis b (4 * T + i) j
  let seen := fun (j : Nat) => (List.range 4).any fun i => vis i j
  if !((List.range 16).any seen) then pure (rows, 0, false) else
  let (z, ex0, sat0) ← k.scores x qs b seen
  let parts := (List.range 4).map fun i =>
    let r := rows.getD i { o := [] }
    let vs := (List.range 16).filter (vis i)
    let mb := tree fMax negInf (vs.map fun j => (z.getD i []).getD j 0)
    let mn := fMax r.m mb
    let a := fExp2 (fMul (fSub r.m mn) log2e)
    let ps := (List.range 16).map fun j => if vis i j then fExp2 (fMul (fSub ((z.getD i []).getD j 0) mn) log2e) else 0
    (vs.isEmpty, mn, a, ps, tree fAdd 0 ps)
  let pTile := fun (s : Nat) =>
    (stageTile ((List.range 16).map fun e => match parts[e / 4]? with | some q => if q.1 then 0 else q.2.2.2.1.getD (4 * s + e % 4) 0 | none => 0) (some (-31)))
  let mut sat := sat0
  let mut ex := ex0 + qx
  let mut pv : List (List Nat) := List.replicate 4 []
  for c in List.range (x.l.dim / 4) do
    let mut acc := zeroBank
    for s in List.range 4 do
      let t ← b.tile x.l true s c seen
      let p := pTile s
      ex := ex + t.2
      sat := sat || p.2
      acc := stepOn acc p.1 t.1
    sat := sat || acc.2
    pv := pv.zipIdx.map fun q => q.1 ++ (List.range 4).map fun e => (acc.1.getD (4 * q.2 + e) 0).toNat
  let out := rows.zipIdx.map fun r =>
    match parts[r.2]? with
    | some (false, mn, a, _, s) =>
      { m := mn, l := fAdd (fMul a r.1.l) s,
        o := r.1.o.zipIdx.map fun q => fAdd (fMul a q.1) ((pv.getD r.2 []).getD q.2 0),
        marks := if x.p.score then r.1.marks ++ [(b.b, mn, s)] else [] }
    | _ => r.1
  pure (out, ex, sat)

/-- Merge of two partials (R167). -/
def mergeRow (a b : RowS) : RowS :=
  let m := fMax a.m b.m
  let marks := a.marks ++ b.marks
  if m = negInf then { m := negInf, l := 0, o := a.o.map fun _ => 0, marks := marks } else
  let aa := fExp2 (fMul (fSub a.m m) log2e)
  let ab := fExp2 (fMul (fSub b.m m) log2e)
  { m := m, l := fAdd (fMul aa a.l) (fMul ab b.l), o := (a.o.zip b.o).map fun p => fAdd (fMul aa p.1) (fMul ab p.2), marks := marks }

/-- The partials of one row tile over the blocks of a split, the expansion saturations and the saturation flag. -/
def Kid.walk (k : Kid) (x : AttnX) (T : Nat) (qs : List QTile × Nat) (blks : List Blk) : K (List RowS × Nat × Bool) := do
  let mut rows : List RowS := List.replicate 4 { o := List.replicate x.l.dim 0 }
  let mut sat := false
  let mut ex := 0
  for b in blks do
    let r ← k.softStep x T qs.1 qs.2 b rows
    rows := r.1
    ex := ex + r.2.1
    sat := sat || r.2.2
  pure (rows, ex, sat)

/-- The channel steps of a row tile of Q, with their expansion saturations. -/
def Kid.qSteps (k : Kid) (x : AttnX) (T : Nat) : K (List QTile × Nat) := do
  let mut out : List QTile := []
  let mut ex := 0
  for c in List.range (x.l.dim / 4) do
    let t ← k.qTile x T c
    out := out ++ [t.1]
    ex := ex + t.2
  pure (out, ex)

/-- Expansion saturations of a sliver of the kernel count in the stall it runs or ran on (R117, R132). -/
def Kid.countExp (k : Kid) (n ex : Nat) : K Unit := K.act fun y =>
  if ex = 0 then y else
  let s := match y.cores.find? (fun c => match c.2.run with | some r => r.tg == k.tg && r.sliver == n | none => false) with
    | some c => stallOf c.1
    | none => match (y.tg k.tg).places.find? (fun p => p.1 == n) with
      | some p => stallOf p.2.1
      | none => k.stall
  y.modStall s fun q => { q with expSat := satAdd q.expSat ex }

/-- Row tiles, row chunks and the tiles of a chunk (R162). -/
def AttnP.tiles (p : AttnP) : Nat := cdiv p.rows 4
def AttnP.chunks (p : AttnP) : Nat := cdiv p.tiles p.rtiles
def AttnP.chunkTiles (p : AttnP) (c : Nat) : List Nat := ((List.range p.rtiles).map (c * p.rtiles + ·)).filter (· < p.tiles)

def AttnP.chunkRows (p : AttnP) (c : Nat) : List Nat := (p.chunkTiles c).flatMap fun T => ((List.range 4).map (4 * T + ·)).filter (· < p.rows)

/-- List blocks of split s with a position some row of the chunk may see (R162, R164). -/
def AttnX.splitBlocks (x : AttnX) (c s : Nat) : List Nat :=
  let rows := x.p.chunkRows c
  (((List.range x.p.spl).map (s * x.p.spl + ·)).filter (· < x.blocks)).map (x.first + ·)
    |>.filter fun b => rows.any fun r => (List.range 16).any fun i => x.sees r (16 * b + i)

/-- The blocks of split s of chunk c fetched, those without a visible key left out. -/
def Kid.fetchAll (k : Kid) (x : AttnX) (c s : Nat) : K (List Blk) := do
  let mut out : List Blk := []
  for b in x.splitBlocks c s do
    match ← k.fetch x (x.p.chunkRows c) b with
    | some q => out := out ++ [q]
    | none => pure ()
  pure out

/-- FP32 to BF16 under RNE (R166). -/
def bf16Of (w : Nat) : Nat :=
  if isNaN w then 0x7FC0 else if isInf w then w / 2 ^ 16 else (w + 0x7FFF + w / 2 ^ 16 % 2) / 2 ^ 16 % 2 ^ 16

/-- The outputs of a row (R166). -/
def Kid.writeRow (k : Kid) (x : AttnX) (r : Nat) (s : RowS) : K Unit := do
  let none_ := isZero s.l
  let os := s.o.map fun o => if none_ then 0 else fDiv o s.l
  if x.p.bf16 then k.write (x.p.o + r * x.l.dim * 2) (os.flatMap fun o => leBytes 2 (bf16Of o))
  else k.write (x.p.o + r * x.l.dim * 4) (wordsBytes os)
  if x.p.saveMl then k.write (x.p.ml + 8 * r) (wordsBytes (if none_ then [negInf, 0] else [s.m, s.l]))

/-- w[r] of R169 for a block. -/
def pageMass (s : RowS) (b : Nat) : Nat :=
  match s.marks.find? (fun q => q.1 == b) with
  | some q => if isZero s.l || isNaN s.l || bitAt s.l 31 then 0 else fDiv (fMul q.2.2 (fExp2 (fMul (fSub q.2.1 s.m) log2e))) s.l
  | none => 0

/-- ATTN (R160 to R169): the status. -/
def Kid.attn (k : Kid) (x : AttnX) : K Nat := do
  let mut sat := false
  let mut all : List RowS := []
  let mut fetched : List Blk := []
  for c in List.range x.p.chunks do
    let mut qs : List (Nat × List QTile × Nat) := []
    for T in x.p.chunkTiles c do
      let q ← k.qSteps x T
      qs := qs ++ [(T, q)]
    let mut parts : List (List RowS) := []
    for s in List.range (x.p.ns + 1) do
      let blks ← k.fetchAll x c s
      fetched := fetched ++ blks.filter fun b => !fetched.any fun f => f.b == b.b
      let mut rows : List RowS := []
      let mut ex := 0
      for q in qs do
        let r ← k.walk x q.1 q.2 blks
        ex := ex + r.2.1
        sat := sat || r.2.2
        rows := rows ++ r.1
      k.countExp (c * (x.p.ns + 1) + s) ex
      sat := sat || decide (0 < ex)
      parts := parts ++ [rows]
    let n := (parts.getD 0 []).length
    all := all ++ (List.range n).map fun i =>
      tree mergeRow { o := List.replicate x.l.dim 0 } (parts.map fun p => p.getD i { o := List.replicate x.l.dim 0 })
  let rows := all.take x.p.rows
  for r in rows.zipIdx do k.writeRow x r.2 r.1
  if x.p.score then
    for b in fetched do
      let m := tree fAdd 0 (rows.map fun r => pageMass r b.b)
      k.pageWrite b.at_ 12 (leBytes 4 (fAdd b.h.score m))
  pure (if sat then 0x21 else 0)

/-- Slivers of ATTN and ATTN_BWD (R162). -/
def AttnP.slivers (p : AttnP) : Nat := p.chunks * (p.ns + 1)

/-- The spilled pages sliver n of an ATTN prefetches, with the frame each lands in, in the order of its walk: the first PF_AHEAD are in flight,
and each that lands lets the next one leave (R164). -/
def Kid.prefetches (k : Kid) (x : AttnX) (n : Nat) : K (List Prefetch) := do
  let mut out : List Prefetch := []
  if x.p.pfAhead = 0 || !x.l.paged then pure [] else
  let c := n / (x.p.ns + 1)
  let mut i := 0
  for b in x.splitBlocks c (n % (x.p.ns + 1)) do
    match ← k.pageAt x.l b with
    | .spilled q =>
      let h ← k.head x.l b (.spilled q)
      if x.shows (x.p.chunkRows c) b h then
        let a ← K.look fun y => y.slotAddr k.dom q
        out := out ++ [⟨k.tg, n, a, x.p.pf + (n * x.p.pfAhead + i % x.p.pfAhead) * frameBytes⟩]
        i := i + 1
    | _ => pure ()
  pure out

/-! ### Backward (R178) -/

/-- Vectors of gradients keyed by row or position. -/
abbrev Grad := Tab (List Nat)

/-- Four rows of FP32 words at an address, channels 4c to 4c + 3; rows beyond n are +0. -/
def Kid.f32Tile (k : Kid) (a d n T c : Nat) : K (List Nat) := do
  let mut out : List Nat := []
  for i in List.range 4 do
    if 4 * T + i < n then
      let bs ← k.read (a + (4 * T + i) * d * 4 + 16 * c) 16
      out := out ++ (List.range 4).map (wordAt bs)
    else out := out ++ [0, 0, 0, 0]
  pure out

/-- Rows of a bank added to a gradient table at the keys of its four rows, channels 4c to 4c + 3. -/
def bankOf (g : Tab (List Word)) (key c : Nat) : List Word := tget (List.replicate 16 0) g (4096 * key + c)

/-- The gradients of one sliver (row chunk, split): dQ banks by row tile and channel step, dK and dV banks by key tile and channel step. -/
structure BwdS where
  dq : Tab (List Word) := []
  dk : Tab (List Word) := []
  dv : Tab (List Word) := []
  sat : Bool := false
  /-- Expansion saturations. -/
  ex : Nat := 0
  deriving DecidableEq, Repr

/-- One row tile against one block (R178); Q, with qx expansion saturations, enters two products. -/
def Kid.bwdStep (k : Kid) (x : AttnX) (T : Nat) (qs : List QTile) (qx : Nat) (ml : List (Nat × Nat)) (dos : List (List Nat)) (dr : List Nat) (b : Blk)
    (g : BwdS) : K BwdS := do
  let vis := fun (i j : Nat) => decide (4 * T + i < x.p.rows) && x.vis b (4 * T + i) j
  let seen := fun (j : Nat) => (List.range 4).any fun i => vis i j
  if !((List.range 16).any seen) then pure g else
  let (z, ex0, s0) ← k.scores x qs b seen
  let p := fun (i j : Nat) =>
    if vis i j then let q := ml.getD i (0, 0); fDiv (fExp2 (fMul (fSub ((z.getD i []).getD j 0) q.1) log2e)) q.2 else 0
  let doTiles := dos.map fun t => stageTile t none
  let mut g := { g with sat := g.sat || s0 || doTiles.any (·.2), ex := g.ex + ex0 + 2 * qx }
  for s in List.range 4 do
    let pT := stageTile ((List.range 16).map fun e => p (e / 4) (4 * s + e % 4)) (some (-31))
    let key := 4 * b.b + s
    -- dV += pᵀ dO
    for d in doTiles.zipIdx do
      let r := stepOn (bankOf g.dv key d.2, false) pT.1.tr d.1.1
      g := { g with dv := tset g.dv (4096 * key + d.2) r.1, sat := g.sat || r.2 || pT.2 }
    -- dP = dO Vᵀ
    let mut acc := zeroBank
    for d in doTiles.zipIdx do
      let v ← b.tile x.l true s d.2 seen
      acc := stepOn acc d.1.1 v.1.tr
      g := { g with ex := g.ex + v.2 }
    let ds := (List.range 16).map fun e => fMul (p (e / 4) (4 * s + e % 4)) (fSub (acc.1.getD e 0).toNat (dr.getD (e / 4) 0))
    let dsT := stageTile ds none
    g := { g with sat := g.sat || acc.2 || dsT.2 }
    -- dQ += dS K, dK += dSᵀ Q
    for q in qs.zipIdx do
      let kt ← b.tile x.l false s q.2 seen
      let r := stepOn (bankOf g.dq T q.2, false) dsT.1 kt.1
      let w := stepOn (bankOf g.dk key q.2, false) dsT.1.tr q.1
      g := { g with dq := tset g.dq (4096 * T + q.2) r.1, dk := tset g.dk (4096 * key + q.2) w.1, sat := g.sat || r.2 || w.2, ex := g.ex + kt.2 }
  pure g

/-- Banks of several slivers added by the R96 tree, in sliver order. -/
def bankSum (ts : List (Tab (List Word))) (key c : Nat) : List Nat :=
  (List.range 16).map fun e => tree fAdd 0 (ts.map fun t => ((bankOf t key c).getD e 0).toNat)

/-- ATTN_BWD (R178): the status. -/
def Kid.attnBwd (k : Kid) (x : AttnX) : K Nat := do
  let d := x.l.dim
  let mut slivers : List BwdS := []
  for c in List.range x.p.chunks do
    for s in List.range (x.p.ns + 1) do
      let blks ← k.fetchAll x c s
      let mut g : BwdS := {}
      for T in x.p.chunkTiles c do
        let q ← k.qSteps x T
        let mut ml : List (Nat × Nat) := []
        for i in List.range 4 do
          if 4 * T + i < x.p.rows then
            let bs ← k.read (x.p.ml + 8 * (4 * T + i)) 8
            ml := ml ++ [(wordAt bs 0, wordAt bs 1)]
          else ml := ml ++ [(0, 0x3F800000)]
        let mut dos : List (List Nat) := []
        let mut os : List (List Nat) := []
        for ch in List.range (d / 4) do
          let a ← k.f32Tile x.p.qScale d x.p.rows T ch
          let o ← k.f32Tile x.p.o d x.p.rows T ch
          dos := dos ++ [a]
          os := os ++ [o]
        let dr := (List.range 4).map fun i => tree fAdd 0 ((List.range d).map fun ch =>
          fMul ((dos.getD (ch / 4) []).getD (4 * i + ch % 4) 0) ((os.getD (ch / 4) []).getD (4 * i + ch % 4) 0))
        for b in blks do
          g ← k.bwdStep x T q.1 q.2 ml dos dr b g
      k.countExp (c * (x.p.ns + 1) + s) g.ex
      slivers := slivers ++ [g]
  for T in List.range x.p.tiles do
    let c := T / x.p.rtiles
    let mine := (slivers.drop (c * (x.p.ns + 1))).take (x.p.ns + 1)
    for ch in List.range (d / 4) do
      let v := (bankSum (mine.map (·.dq)) T ch).map fun w => fMul w x.p.scale
      for i in List.range 4 do
        if 4 * T + i < x.p.rows then k.write (x.p.dq + (4 * T + i) * d * 4 + 16 * ch) (wordsBytes ((v.drop (4 * i)).take 4))
  for key in List.range (cdiv x.l.len 4) do
    let b := key / 4 - x.first
    let sp := b / x.p.spl
    let mine := (List.range x.p.chunks).filterMap fun c => slivers[c * (x.p.ns + 1) + sp]?
    for ch in List.range (d / 4) do
      let kv := (bankSum (mine.map (·.dk)) key ch).map fun w => fMul w x.p.scale
      let vv := bankSum (mine.map (·.dv)) key ch
      for i in List.range 4 do
        if 4 * key + i < x.l.len then
          k.write (x.p.dk + (4 * key + i) * d * 4 + 16 * ch) (wordsBytes ((kv.drop (4 * i)).take 4))
          k.write (x.p.dv + (4 * key + i) * d * 4 + 16 * ch) (wordsBytes ((vv.drop (4 * i)).take 4))
  pure (if slivers.any (fun g => g.sat || decide (0 < g.ex)) then 0x21 else 0)

end Sys2Proof.Machine
end

