-- ==== Sys2Proof/Machine/Kernels.lean ====
section
/-! DEFINITION. Built-in kernels as task groups (R152, R154, R172): lock, reservation, slivers on cores, prefetch, run, completion; the KV rows.
Their slivers are dispatched, hold their permits and are pre-empted like any other; the kernel's work is done as one action when the last of them
ends (log entry 22). -/

namespace Sys2Proof.Machine

/-- The Kid of a task group. -/
def Sys.kidOf (y : Sys) (t : Nat) : Kid := { tg := t, ctx := (y.tg t).ctx, dom := (y.ctx (y.tg t).ctx).domain }

/-- Bytes of a kernel's parameter block (R160, R170, R173, R178). -/
def paramBytes (kernel : Nat) : Nat := if kernel ≤ 2 then 128 else 64

/-- A kernel ends with a status: its task group completes, its lock returning last (R154, R177). -/
def Sys.kernelDone (t st : Nat) (y : Sys) : Sys :=
  (y.modTg t fun g => { g with status := st, ended := g.slivers }).tgComplete t

/-- Run a kernel's work: the state with the status. -/
def Sys.runK (y : Sys) (k : K Nat) : Sys × Nat :=
  match ExceptT.run k y with
  | (.ok st, y) => (y, st)
  | (.error st, y) => (y, st)

/-- What an unpublished run leaves behind (R172, R177): nothing but the faults and errors it met. -/
def Sys.keepErrors (old new : Sys) : Sys :=
  { old with link := { old.link with xlatAddr := new.link.xlatAddr, xlatInfo := new.link.xlatInfo, events := new.link.events },
             mem := { old.mem with uncorr := new.mem.uncorr, errAddr := new.mem.errAddr, errInfo := new.mem.errInfo, events := new.mem.events },
             flt := new.flt, chance := new.chance, stalls := new.stalls }

/-- The lock a kernel takes: the list's semaphore, and whether exclusive (R154). -/
def Kid.lockOf (k : Kid) (kernel : Nat) (bs : List Byte) : K (Nat × Bool) := do
  match kernel with
  | 1 => match parseAttn false bs with
    | some p => do let l ← k.list p.list; pure (l.sem, p.score)
    | none => throw 0x10
  | 2 => match parseAttn true bs with
    | some p => do let l ← k.list p.list; pure (l.sem, false)
    | none => throw 0x10
  | 3 => match parseKApp bs with
    | some p => do let l ← k.list p.list; pure (l.sem, true)
    | none => throw 0x10
  | _ => match parseKLst bs with
    | some p => do let l ← k.list p.list; pure (l.sem, true)
    | none => throw 0x10

/-- Frames and host slots a kernel must reserve before it writes (R172, R175). -/
def Kid.reserves (k : Kid) (kernel : Nat) (bs : List Byte) : K (Nat × Nat) := do
  match kernel with
  | 3 => match parseKApp bs with
    | some a => do
      let l ← k.list a.list
      K.need (a.ok l)
      let (f, spills, _) ← k.appendPlan a l
      pure (f, spills.length)
    | none => throw 0x10
  | 4 => match parseKLst bs with
    | some q => do
      let l ← k.list q.list
      K.need l.paged
      if q.op = 3 then
        let es ← k.entries l
        let c ← k.spillables l es
        pure (0, min q.n c.length)
      else pure (0, 0)
    | none => throw 0x10
  | _ => pure (0, 0)

/-- The kernel's work with its reservation. -/
def Kid.work (k : Kid) (kernel : Nat) (bs : List Byte) (frames slots : List Nat) : K Nat := do
  match kernel with
  | 1 => do let x ← k.attnX false bs; k.attn x
  | 2 => do let x ← k.attnX true bs; k.attnBwd x
  | 3 => match parseKApp bs with
    | some a => do let l ← k.list a.list; k.append a l frames slots
    | none => throw 0x10
  | _ => match parseKLst bs with
    | some q => do let l ← k.list q.list; k.klist q l slots
    | none => throw 0x10

/-- Number of slivers of a kernel: R162 for the attention kernels; for KAPPEND and KLIST the spec gives no formula (R152, log entry 79). -/
def Kid.sliverCount (k : Kid) (kernel : Nat) (bs : List Byte) : K Nat := do
  match kernel with
  | 1 => do let x ← k.attnX false bs; pure x.p.slivers
  | 2 => do let x ← k.attnX true bs; pure x.p.slivers
  | _ => pure (max 1 (Config.kernelParts kernel bs))

/-- A kernel that holds its lock and reservation becomes READY: its slivers are dispatched like any other (R152, R154, R268). -/
def Sys.kernelReady (t : Nat) (y : Sys) : Sys :=
  let g := y.tg t
  let k := y.kidOf t
  match ExceptT.run (do let bs ← k.read g.param (paramBytes g.kernel); k.sliverCount g.kernel bs) y with
  | (.error st, y') => (y.keepErrors y').kernelDone t st
  | (.ok n, y') =>
    let (q, y) := (y.keepErrors y').seqNo
    (y.modTg t fun g => { g with st := .ready, slivers := n, seq := q }).tgBreeze t

/-- The last sliver of a kernel ends and with it the kernel: its work is done; KAPPEND and KLIST publish all their writes or none (R172, R173). -/
def Sys.kernelFinish (t c : Nat) (y : Sys) : Sys :=
  let g := y.tg t
  let k := { y.kidOf t with stall := stallOf c }
  let r := y.runK (do let bs ← k.read g.param (paramBytes g.kernel); k.work g.kernel bs g.frames g.slots)
  let y' := if publishes r.2 || decide (g.kernel ≤ 2) then r.1.modTg t fun g => { g with frames := [], slots := [] } else y.keepErrors r.1
  y'.sliverEnd c r.2 false

/-- A sliver of a kernel ends (R154): the last one with the kernel's work, unless another has failed. -/
def Sys.kernelSliver (t c : Nat) (y : Sys) : Sys :=
  let g := y.tg t
  if (y.job g.job).st = 5 then y.boundary c
  else if g.ended + 1 < g.slivers ∨ publishes g.status = false then y.sliverEnd c 0 false
  else y.kernelFinish t c

/-- A core whose kernel sliver may end: it runs, stands at no save, and waits for no prefetch (R164). -/
def Sys.kernelCore (y : Sys) (t : Nat) (k : Core) : Bool :=
  k.st == .running && !k.frozen && (match k.run with
    | some r => r.tg == t && r.kernel && !(y.kv.prefetches.any fun p => p.tg == t && p.sliver == r.sliver)
    | none => false)

/-- The kernel in progress on a queue goes on: the sliver on its lowest core ends. -/
def Sys.kernelStep (q : Nat) (y : Sys) : Sys :=
  match (y.queue q).slots with
  | p :: _ => match p.work with
    | some t => match (List.range 4096).find? fun c => y.kernelCore t (y.core c) with
      | some c => y.kernelSliver t c
      | none => y
    | none => y
  | [] => y

/-- A sliver starts on a core; one of ATTN has the first spilled pages of its walk prefetched (R94, R164). -/
def Sys.launch (t n c : Nat) (y : Sys) : Sys :=
  let y := y.startSliver t n c
  let g := y.tg t
  if g.kernel ≠ 1 then y else
  let k := y.kidOf t
  match ExceptT.run (do let bs ← k.read g.param (paramBytes g.kernel); let x ← k.attnX false bs; k.prefetches x n) y with
  | (.error st, y') => y'.failCore c st
  | (.ok ps, y') => y'.modKv fun v => { v with prefetches := v.prefetches ++ ps }

/-- The reservation is made when the pool supplies it, and the kernel is READY; else it waits for grants (R172). -/
def Sys.kernelReserve (t : Nat) (first : Bool) (y : Sys) : Sys :=
  let g := y.tg t
  let k := y.kidOf t
  match ExceptT.run (do let bs ← k.read g.param (paramBytes g.kernel); k.reserves g.kernel bs) y with
  | (.error st, y') => (y.keepErrors y').kernelDone t st
  | (.ok (f, s), y') =>
    let y := y.keepErrors y'
    let fFree := (y.pool 6 (2 * k.dom)).free
    let sFree := (y.pool 6 (2 * k.dom + 1)).free
    if f ≤ fFree ∧ s ≤ sFree then
      let a := y.kvTake k.dom f false
      let b := a.1.kvTake k.dom s true
      (b.1.modTg t fun g => { g with frames := a.2, slots := b.2 }).kernelReady t
    else
      let y := y.modTg t fun g => { g with st := .pageWait }
      if first then
        let y := if fFree < f then y.kvEvent 0 else y
        if sFree < s then y.kvEvent 1 else y
      else y

/-- A kernel that holds its lock goes on: KAPPEND and KLIST make their reservation (R172), the attention kernels are READY. -/
def Sys.kernelGo (t : Nat) (y : Sys) : Sys :=
  if (y.tg t).kernel ≤ 2 then y.kernelReady t else (y.modTg t fun g => { g with st := .running }).kernelReserve t true

/-- A kernel becomes READY: it asks for its list lock, in the order Bridle makes the requests (R154). -/
def Sys.kernelStart (t : Nat) (y : Sys) : Sys :=
  let g := y.tg t
  let k := y.kidOf t
  match ExceptT.run (do K.need (g.param % 64 == 0); let bs ← k.read g.param (paramBytes g.kernel); k.lockOf g.kernel bs) y with
  | (.error st, y) => y.kernelDone t st
  | (.ok (sem, excl), y) =>
    if 4096 ≤ sem ∨ (y.sem sem).total = 0 then y.kernelDone t 0x10
    else
      let y := (y.modTg t fun g => { g with st := .lockWait }).semRequest sem { who := .group t, all := excl }
      if (y.sem sem).waits.length = 1 then
        match y.semGrant sem with
        | (y, some _) => y.kernelGo t
        | (y, none) => y.limitZero sem
      else y.limitZero sem

/-- The kernels of a domain that wait for a reservation try again, oldest first (R172, R177). -/
def Sys.retryReservations (d : Nat) (y : Sys) : Sys :=
  let ts := (y.bridle.tgs.filter fun p => p.2.st == .pageWait && (y.job p.2.job).st == 2 && (y.ctx p.2.ctx).domain == d).map (·.1)
  (ts.mergeSort fun a b => decide ((y.tg a).seq ≤ (y.tg b).seq)).foldl (fun y t => y.kernelReserve t false) y

/-! ### Rows -/

/-- LIST_LOCK_GRANT (R154): the oldest request of a semaphore, when a kernel made it, is granted. -/
def execListLockGrant (sem : Nat) (s : State) : Res :=
  onSys (fun y =>
    match (y.sem sem).waits with
    | ⟨.group _, _⟩ :: _ => match y.semGrant sem with
      | (y, some (.group t)) => (y.kernelGo t).limitZero sem
      | (y, _) => y
    | _ => y) s

/-- A prefetch fails with a status: its sliver ends with it, at once or when it is restored (R164). -/
def Sys.prefetchFail (p : Prefetch) (st : Nat) (y : Sys) : Sys :=
  match (List.range 4096).find? fun c => match (y.core c).run with | some r => r.tg == p.tg && r.sliver == p.sliver | none => false with
  | some c => y.failCore c st
  | none => y.modSaved p.tg p.sliver fun v => { v with run := { v.run with cancel := some st } }

/-- PREFETCH_LANDED (R164): the oldest prefetch of the kernel in progress on a queue lands in its frame; late says that the walk waited for
it. A module that is DOWN fails the host read with 0x30. -/
def execPrefetchLanded (queue : Nat) (late : Bool) (s : State) : Res :=
  onSys (fun y =>
    match y.kv.prefetches.find? (fun p => (y.tg p.tg).queue == queue) with
    | none => y
    | some p =>
      let k := y.kidOf p.tg
      let y := y.modKv fun v => { v with prefetches := v.prefetches.erase p }
      let y := if late then y.modKvDom k.dom fun d => { d with pfLate := satInc d.pfLate } else y
      if (y.module (y.moduleOf k.ctx)).st = 0 then y.prefetchFail p 0x30
      else match y.vwrite none k.ctx p.frame (Cells.read y.hostCells p.slot frameBytes) (some p.tg) with
        | (y, .error st) => y.prefetchFail p st
        | (y, .ok _) => y) s

/-- KV_WAIT_EXPIRE (R172): the kernel waiting on a queue ends with 0x51; it holds no reservation (R311) and has dispatched no sliver. -/
def execKvWaitExpire (queue : Nat) (s : State) : Res :=
  onSys (fun y =>
    match y.bridle.tgs.find? (fun p => p.2.queue == queue && p.2.st == .pageWait) with
    | none => y
    | some p => (y.kvEvent 3).kernelDone p.1 0x51) s

/-- A grant of COUNT units from KV_GRANT_ADDR to the selected domain (R179). -/
def Sys.kvGrant (host : Bool) (count : Nat) (y : Sys) : Sys :=
  let d := y.kv.sel
  let n := count % 2 ^ 24
  let a := y.kv.grantAddr
  if a % frameBytes ≠ 0 ∨ (host = false ∧ y.mem.inDom d a (n * frameBytes) = false) ∨ y.bridle.doms.length ≤ d then y.reject
  else
    let y := y.modKvDom d fun k => if host then { k with slots := k.slots.grant a n } else { k with frames := k.frames.grant a n }
    (y.modPool 6 (2 * d + if host then 1 else 0) (Pool.grow n)).retryReservations d

/-- KV_GRANT_DEVICE (R179). -/
def execKvGrantDevice (count : Nat) (s : State) : Res := onSys (Sys.mirrored 0x00100C0C (count % 2 ^ 24) (Sys.kvGrant false count)) s

/-- KV_GRANT_HOST (R179). -/
def execKvGrantHost (count : Nat) (s : State) : Res := onSys (Sys.mirrored 0x00100C0C (count % 2 ^ 24 + 2 ^ 24) (Sys.kvGrant true count)) s

/-- KV_CTRL.CLR_COUNTS: the three counters of the selected domain. -/
def Sys.kvClear (same : Nat) (y : Sys) : Sys := y.modKvDom y.kv.sel fun d => { d with spills := cleared same 0, evicts := cleared same 1, pfLate := cleared same 2 }

/-- KV_CLR_COUNTS (R179). -/
def execKvClrCounts (s : State) : Res :=
  onSys (Sys.mirrored 0x00100C34 1 (Sys.kvClear 0)) s

end Sys2Proof.Machine
end

