-- ==== Sys2Proof/Machine/Withdraw.lean ====
section
/-! DEFINITION. How slivers, saves and task groups are withdrawn (R192, R280, R302, R303): what stands at a tile boundary acts at once, the rest at
its next one. -/

namespace Sys2Proof.Machine

/-! ### Slivers that stand at a boundary -/

/-- The sliver waits at a tile boundary (R83): DWAIT, SEMACQ, RWAIT; a kernel's sliver stands at one between the commands that act on it. -/
def Run.atBoundary (r : Run) : Bool :=
  r.kernel || match r.wait with
  | .ticket _ | .sem _ | .mbox _ _ _ => true
  | _ => false

/-- The work of a task group belongs to a job. -/
def Sys.ofJob (y : Sys) (t j : Nat) : Bool := (y.tg t).job == j

/-- Cores that run slivers of a job. -/
def Sys.coresOf (y : Sys) (j : Nat) : List Nat :=
  (y.cores.filter fun c => match c.2.run with | some r => y.ofJob r.tg j | none => false).map (·.1)

/-- The sliver that waits for a core takes it: it is dispatched, or its restore starts (R275, R279). -/
def Sys.takeCore (c : Nat) (w : Nat × Nat × Option Nat) (y : Sys) : Sys :=
  match w with
  | (t, n, none) => y.launch t n c
  | (_, _, some q) => y.modCore c fun k => { k with st := .restoring, next := none, resume := some q }

/-- A sliver ends while its core saves it: the save stops, and the sliver that was to take the core takes it (R280). -/
def Sys.endSaving (c st : Nat) (withheld : Bool) (y : Sys) : Sys :=
  match (y.core c).next with
  | some w => ((y.modCore c fun k => { k with next := none }).sliverEnd c st withheld).takeCore c w
  | none => y.sliverEnd c st withheld

/-- A cancel, a suspend or a hold reaches a core: a sliver at a boundary acts on it at once (R289, R303, R396). -/
def Sys.stopCore (c : Nat) (y : Sys) : Sys :=
  match (y.core c).run with
  | none => y
  | some r =>
    match (y.core c).st, y.stopStatus r.tg with
    | .running, st =>
      if (y.core c).frozen then (match st with | some k => y.sliverEnd c k false | none => y)
      else if r.atBoundary then y.boundary c
      else y
    | .saving, some k => y.endSaving c k false
    | _, _ => y

/-! ### Saves -/

/-- A save is given up: its tokens, transfers, granules and mailbox entries return (R288, R303); region says that it lies in its stall's
save region. -/
def Sys.dropSave (region : Bool) (v : Save) (y : Sys) : Sys :=
  let y := y.semReturnAll (.sliver v.run.tg v.run.sliver)
  let cs := (y.dma.xfers.filter fun x => x.tg == v.run.tg && x.sliver == v.run.sliver).map (·.core)
  let y := cs.foldl (fun y c => y.dropXfers c v.run.tg v.run.sliver) y
  let y := y.orphanMail v.run.tg v.run.sliver
  if region then y.giveGranules v.stall v.granules else y

/-- Requests to resume a save, and the restore it may be in, are withdrawn. -/
def Sys.noResume (q : Nat) (y : Sys) : Sys :=
  let y := y.modGirth fun g => { g with reqs := g.reqs.filter fun r => match r.act with | .resume k _ => k != q | _ => true }
  (y.cores.filter fun c => c.2.resume == some q).foldl (fun y c =>
    (y.dropHold (.save c.1)).modCore c.1 fun k => { k with st := .idle, resume := none }) y

/-- Every save of some task groups is freed (R192, R303 step 1). -/
def Sys.dropSaves (who : Nat → Bool) (y : Sys) : Sys :=
  let mine := fun (v : Save) => who v.run.tg
  let inRegion := (y.stalls.flatMap fun s => s.2.saves).filter mine
  let inArea := (y.bridle.areas.flatMap fun a => a.2).filter mine
  let y := inRegion.foldl (fun y v => ((y.noResume v.seq).dropHold (.sliver v.run.tg v.run.sliver)).dropSave true v) y
  let y := inArea.foldl (fun y v => ((y.noResume v.seq).dropHold (.sliver v.run.tg v.run.sliver)).dropSave false v) y
  let y := y.modStalls fun ss => tmap ss fun _ s => { s with saves := s.saves.filter fun v => !mine v }
  y.modBridle fun b => { b with areas := tmap b.areas fun _ l => l.filter fun v => !mine v }

/-! ### Task groups -/

/-- Permits asked for slivers of a task group are no longer asked for. -/
def Sys.noDispatch (t : Nat) (y : Sys) : Sys :=
  y.modGirth fun g => { g with reqs := g.reqs.filter fun r => match r.act with | .dispatch k _ _ => k != t | _ => true }

/-- A task group of a cancelled job dispatches nothing more; it completes at once when none of its slivers is in flight (R303). -/
def Sys.stopTg (t : Nat) (y : Sys) : Sys :=
  if (tfind y.bridle.tgs t).isNone then y
  else
    let y := y.noDispatch t
    let k := y.inFlight t
    let y := y.modTg t fun g => { g with next := g.slivers, redo := [], ahead := [], ended := g.slivers - k, staged := [] }
    if k = 0 then y.tgComplete t else y

/-- The task groups of a queue's pass are cut off (R192): nothing more is dispatched, running slivers end at their next tile boundary, saves are
freed; the pass ends with the last of them. -/
def Sys.cutShaders (q st : Nat) (y : Sys) : Sys :=
  let ts := y.shaders q
  let y := ts.foldl (fun y t => y.modTg t fun g => { g with cut := true, status := statusJoin g.status st }) y
  let cs := (y.cores.filter fun c => match c.2.run with | some r => ts.contains r.tg | none => false).map (·.1)
  let y := cs.foldl (fun y c => y.stopCore c) y
  let y := y.dropSaves ts.contains
  ts.foldl (fun y t => y.stopTg t) y

/-- A pass stops under steps 1 to 3 of R192 and ends with a status. active says where it stands. -/
def Sys.passStop (p : Pass) (isActive : Bool) (st : Nat) (y : Sys) : Sys :=
  let p := { p with fail := some (statusJoin (p.fail.getD 0) st), ending := true }
  let y := y.modRaster fun r => if isActive then { r with active := some p } else { r with parked := some p }
  (y.cutShaders p.queue st).passQuiet p.queue

end Sys2Proof.Machine
end

