-- ==== Sys2Proof/Machine/Raster.lean ====
section
/-! DEFINITION. The raster pipeline (R180 to R192, R198 to R201): passes, primitives, tile lists, coverage, ordering, retirement. The results
of fragment shaders come as operands (log entry 26). -/

namespace Sys2Proof.Machine

/-! ### Descriptors (R181, R182) -/

def Pass.w (p : Pass) (n : Nat) : Nat := wordAt p.desc n
def Pass.msaa (p : Pass) : Bool := bitAt (p.w 0) 0
def Pass.fmt (p : Pass) : Nat := fld (p.w 0) 1 3
def Pass.depth (p : Pass) : Bool := bitAt (p.w 0) 4
def Pass.width (p : Pass) : Nat := fld (p.w 1) 0 13
def Pass.height (p : Pass) : Nat := fld (p.w 1) 13 13
def Pass.colorAddr (p : Pass) : Nat := word64At p.desc 2
def Pass.depthAddr (p : Pass) : Nat := word64At p.desc 4
def Pass.draws (p : Pass) : Nat := fld (p.w 15) 0 24
def Pass.samples (p : Pass) : Nat := if p.msaa then 4 else 1

/-- The descriptor keeps to the table of R181. -/
def passOk (bs : List Byte) : Bool :=
  let w := wordAt bs
  decide (fld (w 0) 1 3 ≤ 4) && fld (w 0) 7 25 == 0 && decide (1 ≤ fld (w 1) 0 13 ∧ fld (w 1) 0 13 ≤ 4096) &&
  decide (1 ≤ fld (w 1) 13 13 ∧ fld (w 1) 13 13 ≤ 4096) && fld (w 1) 26 6 == 0 && word64At bs 2 % 64 == 0 && w 6 % 64 == 0 && w 7 % 64 == 0 &&
  fld (w 15) 0 24 != 0 && fld (w 15) 24 8 == 0 && allZero (bs.drop 64)

/-- A draw record (R182). -/
structure DrawR where
  strip : Bool
  indexed : Bool
  idx32 : Bool
  cullBack : Bool
  cullFront : Bool
  frontCw : Bool
  func : Nat
  depthWrite : Bool
  lateZ : Bool
  blend : Nat
  attrs : Nat
  count : Nat
  index : Nat
  vs : Nat
  fs : Nat
  vout : Nat
  tex : Nat
  deriving DecidableEq, Repr

/-- A draw record from its 64 bytes; none outside the table of R182. -/
def parseDraw (bs : List Byte) : Option DrawR :=
  let w := wordAt bs 0
  let d : DrawR := ⟨bitAt w 0, bitAt w 1, bitAt w 2, bitAt w 3, bitAt w 4, bitAt w 5, fld w 6 3, bitAt w 9, bitAt w 10, fld w 11 2, fld w 13 4,
    fld (wordAt bs 1) 0 24, word64At bs 2, word64At bs 4, word64At bs 6, word64At bs 8, word64At bs 10⟩
  if d.attrs ≤ 8 ∧ fld w 17 15 = 0 ∧ fld (wordAt bs 1) 24 8 = 0 ∧ allZero (bs.drop 48) = true then some d else none

def Pass.drawAddr (p : Pass) (n : Nat) : Nat := word64At p.desc 13 + 64 * n

/-- Draw n of a pass read. -/
def Sys.readDraw (p : Pass) (n : Nat) (y : Sys) : Sys × Except Nat DrawR :=
  match y.vread none p.ctx (p.drawAddr n) 64 with
  | (y, .error e) => (y, .error e)
  | (y, .ok bs) => match parseDraw bs with
    | some d => (y, .ok d)
    | none => (y, .error 0x10)

/-! ### Page pool (R187, R201) -/

/-- n pages taken for a pass: the pages. -/
def Sys.pagesTake (d n : Nat) (y : Sys) : Sys × List Nat :=
  let r := (tget {} y.raster.pools d).take y.chance n
  let y := (y.modRaster fun k => { k with pools := tset k.pools d r.1 }).modPool 5 d (Pool.take n)
  (y.modChance (· + n), r.2)

/-- Raster event k raises the vector of RASTER_IRQ (R191, R192). -/
def Sys.rasterEvent (k : Nat) (y : Sys) : Sys :=
  (y.modRaster fun r => { r with events := setBit r.events k }).raise 0 (y.raster.irq % 256)

/-- A waiting pass ends before it took a slot. -/
def Sys.passDrop (p : Pass) (st : Nat) (y : Sys) : Sys :=
  (y.modRaster fun r => { r with waiting := r.waiting.erase p }).packetComplete p.queue st 0

/-- A request that is granted at once when it is the one served next and can be met (R363); false when it waits. -/
def Sys.askNow (r : PermReq) (y : Sys) : Sys × Bool :=
  let y := y.request r
  match y.headReq with
  | some h => if h.act = r.act ∧ y.canGrant r = true then ((y.takeHolds r.holds).unrequest r.act, true) else (y, false)
  | none => (y, false)

/-! ### Vertices and setup (R183) -/

/-- Vertex v of a draw. -/
def Sys.readVert (p : Pass) (d : DrawR) (v : Nat) (y : Sys) : Sys × Except Nat Vert :=
  match y.vread none p.ctx (d.vout + v * (16 + 16 * d.attrs)) (16 + 16 * d.attrs) with
  | (y, .error e) => (y, .error e)
  | (y, .ok bs) => (y, .ok ((List.range (4 + 4 * d.attrs)).map (wordAt bs)))

/-- Screen position, x and y in FP32 (R183). -/
def Pass.screen (p : Pass) (v : Vert) : Nat × Nat :=
  let w := v.getD 3 0
  let half := fun (a n : Nat) => fDiv (fMul a (fCvtF n)) 0x40000000
  (half (fAdd (fDiv (v.getD 0 0) w) 0x3F800000) p.width, half (fSub 0x3F800000 (fDiv (v.getD 1 0) w)) p.height)

/-- a ≤ b as numbers; false for a NaN. -/
def fLe (a b : Nat) : Bool := !isNaN a && !isNaN b && (decide (fKey a ≤ fKey b) || (isZero a && isZero b))

/-- A vertex lies inside clip plane k (R183): w > 2^−20, then ±16,384 pixels in x and in y. -/
def Pass.inside (p : Pass) (k : Nat) (v : Vert) : Bool :=
  let s := p.screen v
  match k with
  | 0 => !isNaN (v.getD 3 0) && !fLe (v.getD 3 0) 0x35800000
  | 1 => fLe 0xC6800000 s.1
  | 2 => fLe s.1 0x46800000
  | 3 => fLe 0xC6800000 s.2
  | _ => fLe s.2 0x46800000

/-- One polygon clipped against a plane, by Sutherland–Hodgman in vertex order (R183). -/
def Pass.clip (p : Pass) (k : Nat) (vs : List Vert) : List Vert :=
  if vs.all (p.inside k) then vs else
  (vs.zip (vs.drop 1 ++ vs.take 1)).flatMap fun e =>
    let a := p.inside k e.1
    let b := p.inside k e.2
    if a && b then [e.2]
    else if a then [Config.clipPoint k e.1 e.2]
    else if b then [Config.clipPoint k e.2 e.1, e.2]
    else []

/-- The pieces of a triangle in fan order (R183). -/
def Pass.pieces (p : Pass) (tri : List Vert) : List (List Vert) :=
  let poly := (List.range 5).foldl (fun vs k => p.clip k vs) tri
  if poly = tri then [tri]
  else match poly with
    | v0 :: rest => (List.range (rest.length - 1)).map fun i => [v0, rest.getD i [], rest.getD (i + 1) []]
    | [] => []

/-- FP32 to fixed point with 8 fraction bits by RNE (R183). -/
def fixed8 (w : Nat) : Int := sx 32 (fCvtI (fMul w 0x43800000))

/-- The setup record of a piece (R186). -/
def Pass.setup (p : Pass) (seq piece draw : Nat) (verts : List Nat) (vs : List Vert) : Setup :=
  { seq := seq, piece := piece, draw := draw, verts := verts,
    xs := vs.map fun v => fixed8 (p.screen v).1, ys := vs.map fun v => fixed8 (p.screen v).2,
    zs := vs.map fun v => fDiv (v.getD 2 0) (v.getD 3 0), ws := vs.map fun v => v.getD 3 0, attrs := vs.map fun v => v.drop 4 }

/-- The edge function from vertex i to j at a point (R183). -/
def Setup.edge (s : Setup) (i j : Nat) (x y : Int) : Int :=
  (s.xs.getD j 0 - s.xs.getD i 0) * (y - s.ys.getD i 0) - (s.ys.getD j 0 - s.ys.getD i 0) * (x - s.xs.getD i 0)

/-- Twice the signed area; positive is clockwise on the screen. -/
def Setup.area (s : Setup) : Int := s.edge 0 1 (s.xs.getD 2 0) (s.ys.getD 2 0)

/-- Edge functions e_0, e_1, e_2 at a point, opposite to the vertices. -/
def Setup.es (s : Setup) (x y : Int) : List Int := [s.edge 1 2 x y, s.edge 2 0 x y, s.edge 0 1 x y]

/-- Edge i (opposite vertex i) is a top or a left edge (R183). -/
def Setup.topLeft (s : Setup) (i : Nat) : Bool :=
  let a := (i + 1) % 3
  let b := (i + 2) % 3
  let f : Int := if 0 < s.area then 1 else -1
  let dx := f * (s.xs.getD b 0 - s.xs.getD a 0)
  let dy := f * (s.ys.getD b 0 - s.ys.getD a 0)
  decide ((dy = 0 ∧ 0 < dx) ∨ dy < 0)

/-- A sample is covered (R183). -/
def Setup.covers (s : Setup) (x y : Int) : Bool :=
  let f : Int := if 0 < s.area then 1 else -1
  ((s.es x y).zipIdx).all fun e => decide (0 < f * e.1) || (e.1 == 0 && s.topLeft e.2)

/-- Barycentrics at a point (R183). -/
def Setup.bary (s : Setup) (x y : Int) : List Nat :=
  let es := s.es x y
  let sum := f32Of ⟨es.sum, 0⟩ false
  es.map fun e => fDiv (f32Of ⟨e, 0⟩ false) sum

/-- b · v summed in vertex order. -/
def dot3 (b v : List Nat) : Nat :=
  fAdd (fAdd (fMul (b.getD 0 0) (v.getD 0 0)) (fMul (b.getD 1 0) (v.getD 1 0))) (fMul (b.getD 2 0) (v.getD 2 0))

/-- Depth at a point (R183). -/
def Setup.depthAt (s : Setup) (x y : Int) : Nat := dot3 (s.bary x y) s.zs

/-- Attributes at a point, perspective-corrected (R183). -/
def Setup.attrsAt (s : Setup) (x y : Int) : List Nat :=
  let b := s.bary x y
  let q := fun i => fDiv (b.getD i 0) (s.ws.getD i 0)
  let den := fAdd (fAdd (q 0) (q 1)) (q 2)
  (List.range (s.attrs.getD 0 []).length).map fun k =>
    let t := fun i => fDiv (fMul (b.getD i 0) ((s.attrs.getD i []).getD k 0)) (s.ws.getD i 0)
    fDiv (fAdd (fAdd (t 0) (t 1)) (t 2)) den

/-- Sample points of a pixel, 8 fraction bits (R183). -/
def samplePts (msaa : Bool) : List (Int × Int) := if msaa then [(96, 32), (224, 96), (32, 160), (160, 224)] else [(128, 128)]

/-- The point of a sample of pixel (x, y). -/
def Pass.point (p : Pass) (x y s : Nat) : Int × Int :=
  let o := (samplePts p.msaa).getD s (128, 128)
  (256 * x + o.1, 256 * y + o.2)

/-- Pixels of a tile inside the target, row by row. -/
def Pass.tilePixels (p : Pass) (tx ty : Nat) : List (Nat × Nat) :=
  (List.range 1024).filterMap fun i =>
    let x := 32 * tx + i % 32
    let y := 32 * ty + i / 32
    if x < p.width ∧ y < p.height then some (x, y) else none

/-- A pixel has a covered sample. -/
def Pass.pixelCovered (p : Pass) (s : Setup) (x y : Nat) : Bool :=
  (List.range p.samples).any fun k => let q := p.point x y k; s.covers q.1 q.2

/-- Tiles a piece covers, ascending (R184). -/
def Pass.tilesOf (p : Pass) (s : Setup) : List (Nat × Nat) :=
  (List.range (cdiv p.height 32)).flatMap fun ty => (List.range (cdiv p.width 32)).filterMap fun tx =>
    if (p.tilePixels tx ty).any (fun q => p.pixelCovered s q.1 q.2) then some (tx, ty) else none

def tileKey (t : Nat × Nat) : Nat := t.2 * 128 + t.1

/-- Owner of a tile (R184). -/
def tileOwnerOf (key : Nat) : Nat := (key % 128 + 5 * (key / 128)) % 16

/-! ### Input assembly (R180, R182) -/

/-- Vertex number at a place of a draw's stream, none for a strip restart. -/
def Sys.readIndex (p : Pass) (d : DrawR) (n : Nat) (y : Sys) : Sys × Except Nat (Option Nat) :=
  if !d.indexed then (y, .ok (some n))
  else
    let k := if d.idx32 then 4 else 2
    match y.vread none p.ctx (d.index + k * n) k with
    | (y, .error e) => (y, .error e)
    | (y, .ok bs) => (y, .ok (if d.strip && leNat bs == 2 ^ (8 * k) - 1 then none else some (leNat bs)))

/-- The next triangle of a draw: the pass moved past it, and its three vertex numbers; none at the draw's end (fuel bounds the stream). -/
def Sys.assemble (d : DrawR) : Nat → Pass → Sys → Sys × Except Nat (Pass × Option (List Nat))
  | 0, p, y => (y, .ok (p, none))
  | f + 1, p, y =>
    if d.count ≤ p.prim then (y, .ok (p, none))
    else match y.readIndex p d p.prim with
      | (y, .error e) => (y, .error e)
      | (y, .ok none) => Sys.assemble d f { p with prim := p.prim + 1, strip := [], parity := false } y
      | (y, .ok (some v)) =>
        let p := { p with prim := p.prim + 1 }
        match p.strip with
        | [a, b] =>
          if d.strip then
            (y, .ok ({ p with strip := [b, v], parity := !p.parity }, some (if p.parity then [b, a, v] else [a, b, v])))
          else (y, .ok ({ p with strip := [] }, some [a, b, v]))
        | l => Sys.assemble d f { p with strip := l ++ [v] } y

/-! ### Reservation and binning (R185 to R187, R191) -/

/-- Pages a primitive needs: setup records of its pieces, and an entry in the list of each tile. -/
def Pass.pagesNeeded (p : Pass) (pieces : List (Setup × List (Nat × Nat))) : Nat :=
  let room := match p.setups.find? (fun s => decide (s.used < 31)) with | some s => 31 - s.used | none => 0
  let setupPages := cdiv (pieces.length - room) 31
  let keys := pieces.flatMap fun q => q.2.map tileKey
  let tilePages := (keys.eraseDups.map fun k =>
    let t := tget {} p.tiles k
    let n := (keys.filter (· == k)).length
    let room := if t.pages.isEmpty then 0 else 252 - t.written
    cdiv (n - room) 252).sum
  setupPages + tilePages

/-- The bytes of a tile-list page header (R185). -/
def tileHeader (next key count : Nat) : List Byte :=
  leBytes 4 (put next 0 24) ++ leBytes 4 (put (key % 128) 0 7 + put (key / 128) 7 7 + put count 14 8)

/-- The bytes of an entry (R185). -/
def TEntry.bytes (e : TEntry) : List Byte :=
  leBytes 4 e.seq ++ leBytes 4 (put e.page 0 24 + put e.slot 24 5 + put e.piece 29 3) ++ leBytes 4 (put e.draw 0 24) ++ leBytes 4 0

/-- A setup record stored, in the page being filled or in a new one from free. -/
def Sys.addSetup (s : Setup) (refs : Nat) (p : Pass) (fr : List Nat) (y : Sys) : Sys × Pass × List Nat × (Nat × Nat) :=
  let d := y.passDom p
  match p.setups.find? (fun g => decide (g.used < 31)) with
  | some g =>
    let g' := { g with used := g.used + 1, refs := g.refs + refs, records := g.records ++ [s] }
    let y := (y.devWrite (y.pageAddr d g.page) (leBytes 4 g'.refs)).devWrite (y.pageAddr d g.page + 128 + 128 * g.used) (freeBytes y.chance 128)
    (y.tick, { p with setups := p.setups.map fun k => if k.page = g.page then g' else k }, fr, (g.page, g.used))
  | none => match fr with
    | [] => (y, p, [], (0, 0))
    | n :: t =>
      let g : SetupPage := { page := n, used := 1, refs := refs, records := [s] }
      let y := (y.devWrite (y.pageAddr d n) (leBytes 4 refs)).devWrite (y.pageAddr d n + 128) (freeBytes y.chance 128)
      (y.tick, { p with setups := p.setups ++ [g] }, t, (n, 0))

/-- The oldest page of a list falls free once it is CONSUMING, so linked to the next one, and all its entries are consumed (R187). -/
def TList.settle (t : TList) : TList × List Nat :=
  match t.pages with
  | a :: b :: rest => if 252 ≤ t.consumed then ({ t with pages := b :: rest, consumed := 0 }, [a]) else (t, [])
  | _ => (t, [])

/-- An entry appended to the list of a tile, with a page from free when the newest is full or there is none. -/
def Sys.addEntry (key : Nat) (e : TEntry) (p : Pass) (fr : List Nat) (y : Sys) : Sys × Pass × List Nat :=
  let d := y.passDom p
  let t := tget {} p.tiles key
  let full := t.pages.isEmpty || decide (252 ≤ t.written)
  match full, fr with
  | true, [] => (y, p, [])
  | true, n :: rest =>
    let y := match t.pages.getLast? with
      | some old => y.devWrite (y.pageAddr d old) (leBytes 4 n)
      | none => y
    let y := (y.devWrite (y.pageAddr d n) (tileHeader 0xFFFFFF key 1)).devWrite (y.pageAddr d n + 64) e.bytes
    let t := { t with pages := t.pages ++ [n], written := 1, entries := t.entries ++ [e] }
    -- a page whose entries are all consumed becomes CONSUMING at the link and falls free
    let r := t.settle
    (y.pagesGive d r.2, { p with tiles := tset p.tiles key r.1, pages := p.pages.filter fun k => !r.2.contains k }, rest)
  | false, fr =>
    let n := (t.pages.getLast?).getD 0
    let y := (y.devWrite (y.pageAddr d n) (tileHeader 0xFFFFFF key (t.written + 1))).devWrite (y.pageAddr d n + 64 + 16 * t.written) e.bytes
    (y, { p with tiles := tset p.tiles key { t with written := t.written + 1, entries := t.entries ++ [e] } }, fr)

/-- The pieces of a primitive set up and binned with the pages reserved. -/
def Sys.bin (pieces : List (Setup × List (Nat × Nat))) (p : Pass) (fr : List Nat) (y : Sys) : Sys × Pass :=
  let r := pieces.foldl (fun st q =>
    let a := st.1.addSetup q.1 q.2.length st.2.1 st.2.2
    q.2.foldl (fun st t =>
      let b := st.1.addEntry (tileKey t) ⟨q.1.seq, a.2.2.2.1, a.2.2.2.2, q.1.piece, q.1.draw⟩ st.2.1 st.2.2
      (b.1, b.2.1, b.2.2)) (a.1, a.2.1, a.2.2.1)) (y, p, fr)
  (r.1, r.2.1)

/-! ### Draws and their vertex task groups (R180) -/

/-- A TASK packet's words as a task group of a queue, job and context (R298); the caller has checked its form. -/
def taskOf (q ctx job : Nat) (exact : Bool) (seq : Nat) (ws : List Nat) : Tg :=
  let w := fun n => ws.getD n 0
  let kr := fld (w 1) 0 8
  { queue := q, ctx := ctx, job := job, kernel := kr,
    eng := if kr = 0 then fld (w 1) 8 3 else if kr ≤ 2 then 4 else 0, vec := if kr = 0 then bitAt (w 1) 11 else decide (kr ≤ 3),
    setgs := if kr = 0 then bitAt (w 1) 12 else kr != 3,
    aff := fld (w 1) 16 16, slivers := fld (w 2) 0 24, code := fld (w 3) 0 20, stripes := fld (w 3) 20 12, group := w 4,
    param := w 5 + 2 ^ 32 * w 6, args := (List.range 9).map fun i => w (7 + i), cls := fld (w 0) 20 2, bandEnd := bitAt (w 0) 19,
    gateEn := bitAt (w 0) 22, gate := fld (w 0) 23 4, flagAddr := w 7 + 2 ^ 32 * w 8, exact := exact, seq := seq, queued := seq }

/-- The form of a TASK packet's words (R299), without the checks on JOB and REALTIME. -/
def taskForm (ws : List Nat) : Bool :=
  let w := fun n => ws.getD n 0
  let k := fld (w 1) 0 8
  let code := fld (w 3) 0 20
  fld (w 0) 28 4 == 0 && fld (w 1) 13 3 == 0 && fld (w 2) 24 8 == 0 && decide (k ≤ 4) && fld (w 0) 20 2 != 3 &&
  (k != 0 || (decide (fld (w 1) 8 3 ≤ 4) && fld (w 2) 0 24 != 0 && code % 4 == 0 && decide (0x40000 ≤ code ∧ code ≤ 0xFBFFF))) &&
  (!bitAt (w 0) 27 || (fld (w 3) 20 12 != 0 && (w 7 + 2 ^ 32 * w 8) % 64 == 0))

/-- A task group joins the table. -/
def Sys.addTg (g : Tg) (y : Sys) : Sys :=
  y.modBridle fun b => { b with tgs := tset b.tgs b.nextTg g, nextTg := b.nextTg + 1 }

/-- The task group that a draw's TASK command of shading makes for a pass (R180, R182, R197). -/
def Sys.shaderGroup (p : Pass) (addr : Nat) (y : Sys) : Sys × Except Nat Tg :=
  match y.vread none p.ctx addr 64 with
  | (y, .error e) => (y, .error e)
  | (y, .ok bs) =>
    let ws := (List.range 16).map (wordAt bs)
    if fld (ws.getD 0 0) 0 4 ≠ 1 ∨ fld (ws.getD 1 0) 0 8 ≠ 0 ∨ taskForm ws = false then (y, .error 0x10)
    else
      let (k, y) := y.seqNo
      (y, .ok { taskOf p.queue p.ctx p.job (y.job p.job).exact k ws with bandEnd := false, gateEn := false, st := .ready })

/-- The vertex task group of a draw is issued on the queue of the pass (R180, R197). -/
def Sys.issueVs (n : Nat) (p : Pass) (y : Sys) : Sys × Except Nat Pass :=
  if p.draws ≤ n ∨ p.vsIssued.contains n = true then (y, .ok p) else
  match y.readDraw p n with
  | (y, .error e) => (y, .error e)
  | (y, .ok d) => match y.shaderGroup p d.vs with
    | (y, .error e) => (y, .error e)
    | (y, .ok g) => (y.addTg { g with shader := some n }, .ok { p with vsIssued := p.vsIssued ++ [n] })

/-! ### Target samples (R181, R190) -/

/-- Address of a sample in the colour or in the depth target. -/
def Pass.colorAt (p : Pass) (x y s : Nat) : Nat := p.colorAddr + y * p.w 6 + (x * p.samples + s) * colorBytes p.fmt
def Pass.depthAt (p : Pass) (x y s : Nat) : Nat := p.depthAddr + y * p.w 7 + (x * p.samples + s) * 4

/-- The clears of a pass, before its first draw (R181). -/
def Sys.clearPass (p : Pass) (y : Sys) : Sys × Except Nat Unit :=
  let color := colorEnc p.fmt ((List.range 4).map fun i => p.w (8 + i))
  let rowC := (List.replicate (p.width * p.samples) color).flatten
  let rowD := (List.replicate (p.width * p.samples) (leBytes 4 (p.w 12))).flatten
  y.seq (List.range p.height) fun r y =>
    let a := if bitAt (p.w 0) 5 then y.vwrite none p.ctx (p.colorAt 0 r 0) rowC none else (y, .ok ())
    match a with
    | (y, .error e) => (y, .error e)
    | (y, .ok _) => if bitAt (p.w 0) 6 && p.depth then y.vwrite none p.ctx (p.depthAt 0 r 0) rowD none else (y, .ok ())

/-- The depth comparison of R182: the new value against the stored one. -/
def depthPass (func new old : Nat) : Bool :=
  let nan := isNaN new || isNaN old
  let le := fLe new old
  let ge := fLe old new
  match func with
  | 0 => false
  | 1 => !nan && !ge
  | 2 => le && ge
  | 3 => le
  | 4 => !nan && !le
  | 5 => !(le && ge)
  | 6 => ge
  | _ => true

/-- One sample tested against depth, and, when write says so, written when it passes and the draw writes depth. -/
def Sys.testSample (p : Pass) (d : DrawR) (write : Bool) (x yy s z : Nat) (y : Sys) : Sys × Except Nat Bool :=
  if !p.depth then (y, .ok true) else
  match y.vread none p.ctx (p.depthAt x yy s) 4 with
  | (y, .error e) => (y, .error e)
  | (y, .ok bs) =>
    if !depthPass d.func z (leNat bs) then (y, .ok false)
    else if write && d.depthWrite then match y.vwrite none p.ctx (p.depthAt x yy s) (leBytes 4 z) none with
      | (y, .error e) => (y, .error e)
      | (y, .ok _) => (y, .ok true)
    else (y, .ok true)

/-- The blend of R182 on one component. -/
def blendOne (mode s d a : Nat) : Nat :=
  let inv := fSub 0x3F800000 a
  match mode with
  | 0 => s
  | 1 => fAdd (fMul s a) (fMul d inv)
  | 2 => fAdd s d
  | _ => fAdd s (fMul d inv)

/-- One sample blended and written (R190). -/
def Sys.blendSample (p : Pass) (d : DrawR) (x yy s : Nat) (c : List Nat) (y : Sys) : Sys × Except Nat Unit :=
  match y.vread none p.ctx (p.colorAt x yy s) (colorBytes p.fmt) with
  | (y, .error e) => (y, .error e)
  | (y, .ok bs) =>
    let old := colorDec p.fmt bs
    let out := (List.range 4).map fun i => blendOne d.blend (c.getD i 0) (old.getD i 0) (c.getD 3 0)
    y.vwrite none p.ctx (p.colorAt x yy s) (colorEnc p.fmt out) none

/-! ### Tile owners (R187 to R190) -/

/-- The quad fragments of an entry in its tile, row by row. -/
def Pass.frags (p : Pass) (s : Setup) (key : Nat) (lateDraw : Bool) : List Frag :=
  let tx := key % 128
  let ty := key / 128
  (List.range 256).filterMap fun q =>
    let qx := 16 * tx + q % 16
    let qy := 16 * ty + q / 16
    let ss := (List.range (4 * p.samples)).filter fun k =>
      let px := 2 * qx + k / p.samples % 2
      let py := 2 * qy + k / p.samples / 2
      let pt := p.point px py (k % p.samples)
      decide (px < p.width ∧ py < p.height) && s.covers pt.1 pt.2
    if ss.isEmpty then none else
    let at_ := fun k => p.point (2 * qx + k / p.samples % 2) (2 * qy + k / p.samples / 2) (k % p.samples)
    some { seq := s.seq, piece := s.piece, draw := s.draw, tile := key, qx := qx, qy := qy, samples := ss,
           depths := ss.map fun k => s.depthAt (at_ k).1 (at_ k).2, attrs := ss.map fun k => s.attrsAt (at_ k).1 (at_ k).2, lateDraw := lateDraw }

/-- Fragments of an owner's record at a quad. -/
def Owner.record (o : Owner) (qx qy : Nat) : List Frag := o.issued.filter fun f => f.qx == qx && f.qy == qy

/-- The owner's work stands at a quad. -/
def Owner.headAt (o : Owner) (qx qy : Nat) : Bool := match o.work with | f :: _ => f.qx == qx && f.qy == qy | [] => false

/-- Samples of a fragment that pass a depth test of the draw, with new depths where they are given. -/
def Sys.testFrag (p : Pass) (d : DrawR) (write : Bool) (f : Frag) (depths : List Nat) (y : Sys) : Sys × Except Nat (List Nat) :=
  (f.samples.zipIdx).foldl (fun st k => match st with
    | (y, .error e) => (y, .error e)
    | (y, .ok l) =>
      let s := k.1
      match y.testSample p d write (2 * f.qx + s / p.samples % 2) (2 * f.qy + s / p.samples / 2) (s % p.samples) (depths.getD k.2 0) with
      | (y, .error e) => (y, .error e)
      | (y, .ok true) => (y, .ok (l ++ [s]))
      | (y, .ok false) => (y, .ok l)) (y, .ok [])

/-- The samples of a fragment that are issued: all of a late one, those that pass early depth of another (R190). -/
def Sys.issueSamples (p : Pass) (d : DrawR) (late write : Bool) (f : Frag) (y : Sys) : Sys × Except Nat (List Nat) :=
  if late then (y, .ok f.samples) else y.testFrag p d write f f.depths

/-- The fragment narrowed to some of its samples. -/
def Frag.only (f : Frag) (ss : List Nat) : Frag :=
  let keep := (f.samples.zip (f.depths.zip f.attrs)).filter fun q => ss.contains q.1
  { f with samples := ss, depths := keep.map (·.2.1), attrs := keep.map (·.2.2) }

/-- The batch an owner gathers quads for is issued: draw and count of its quads, when there is one (R180, R197). -/
def Pass.issueBatch (cur : Option (Nat × Nat)) (p : Pass) : Pass :=
  match cur with
  | some (d, _) => { p with batches := tmod 0 p.batches d (· + 1) }
  | none => p

/-- The owner issues its slice's fragments in order until one would make a fifth key of a record (R189, R190). cur is the batch it gathers: it goes
out with 16 quads, at a fragment of another draw, at the slice's end and at a stall (log entry 80). -/
def Sys.issueFrags (n : Nat) : Nat → Option (Nat × Nat) → Pass → Sys → Sys × Except Nat Pass
  | 0, cur, p, y => (y, .ok (p.issueBatch cur))
  | fuel + 1, cur, p, y =>
    let o := tget {} p.owners n
    match o.work with
    | [] => ((y.dropHold (.tileOwner n)), .ok (p.issueBatch cur))
    | f :: rest =>
      match y.readDraw p f.draw with
      | (y, .error e) => (y, .error e)
      | (y, .ok d) =>
        let rec_ := o.record f.qx f.qy
        let late := d.lateZ || rec_.any (·.lateDraw)
        let full := decide (4 ≤ rec_.length)
        match y.issueSamples p d late (!full) f with
        | (y, .error e) => (y, .error e)
        | (y, .ok []) => Sys.issueFrags n fuel cur { p with owners := tset p.owners n { o with work := rest, stalled := false } } y
        | (y, .ok ss) =>
          if full then
            let y := if o.stalled then y else y.modRaster fun r => { r with quadStalls := satInc r.quadStalls }
            (y, .ok { p.issueBatch cur with owners := tset p.owners n { o with stalled := true } })
          else
            let joins := match cur with | some (k, c) => k == f.draw && decide (c < 16) | none => false
            let p := if joins then p else p.issueBatch cur
            let cur := some (f.draw, if joins then (cur.map (·.2)).getD 0 + 1 else 1)
            let f' := { f.only ss with batch := tget 0 p.batches f.draw, late := late }
            let o' : Owner := { o with work := rest, issued := o.issued ++ [f'], stalled := false }
            Sys.issueFrags n fuel cur { p with owners := tset p.owners n o' } y

/-- The issued batches of a draw are slivers of its fragment task group, which the first of them starts on the queue of the pass (R180, R197). -/
def Sys.issueFs (p : Pass) (d n : Nat) (y : Sys) : Sys × Except Nat Unit :=
  match y.bridle.tgs.find? (fun t => t.2.shader == some d && t.2.frag && t.2.queue == p.queue) with
  | some t => (y.modTg t.1 fun g => { g with slivers := n }, .ok ())
  | none => match y.readDraw p d with
    | (y, .error e) => (y, .error e)
    | (y, .ok r) => match y.shaderGroup p r.fs with
      | (y, .error e) => (y, .error e)
      | (y, .ok g) => (y.addTg { g with shader := some d, frag := true, slivers := n }, .ok ())

/-- An owner's whole issue loop. -/
def Sys.issueAll (n : Nat) (p : Pass) (y : Sys) : Sys × Except Nat Pass :=
  match y.issueFrags n ((tget {} p.owners n).work.length + 1) none p with
  | (y, .error e) => (y, .error e)
  | (y, .ok p') =>
    match y.seq (p'.batches.filter fun b => b.2 != tget 0 p.batches b.1) (fun b y => y.issueFs p' b.1 b.2) with
    | (y, .error e) => (y, .error e)
    | (y, .ok _) => (y, .ok p')

/-- Entries consumed from the front of a tile list: pages that fall free (R187). -/
def TList.consume (t : TList) : Nat → TList × List Nat
  | 0 => (t, [])
  | n + 1 =>
    let r := t.consume n
    let s := TList.settle { r.1 with consumed := r.1.consumed + 1, entries := r.1.entries.drop 1 }
    (s.1, r.2 ++ s.2)

/-- References of a setup page consumed: REFS is lowered, in memory too, and the page falls free at 0 when it is CONSUMING (R186, R187). -/
def Sys.deref (page n : Nat) (p : Pass) (y : Sys) : Sys × Pass :=
  match p.setups.find? (fun s => s.page == page) with
  | none => (y, p)
  | some s =>
    let s := { s with refs := s.refs - n }
    let y := y.devWrite (y.pageAddr (y.passDom p) page) (leBytes 4 s.refs)
    if s.used = 31 ∧ s.refs = 0 then
      (y.pagesGive (y.passDom p) [page], { p with setups := p.setups.filter fun k => k.page != page, pages := p.pages.filter fun k => k != page })
    else (y, { p with setups := p.setups.map fun k => if k.page = page then s else k })

/-- The pass is complete: front end done, lists consumed, fragments retired. -/
def Pass.complete (p : Pass) : Bool :=
  p.frontDone && (p.tiles.all fun t => t.2.entries.isEmpty) && p.owners.all fun o => o.2.work.isEmpty && o.2.issued.isEmpty

/-- A stopping pass has come to rest (R198). -/
def Pass.atRest (p : Pass) : Bool :=
  p.stopping && (p.frontDone || p.growing || p.prim == 0) && p.owners.all fun o => o.2.work.isEmpty && o.2.issued.isEmpty

/-- The fragment task groups of a pass whose fragments have all retired complete, and the pass with them (R192, R197). -/
def Sys.passComplete (p : Pass) (y : Sys) : Sys :=
  let y := (y.shaders p.queue).foldl (fun y t => y.tgComplete t) (y.setActive p)
  match y.raster.active with
  | some p => y.passEnd p true ((p.fail).getD p.status)
  | none => y

/-- The ACTIVE pass after a change: ended, complete, parked, or going on. -/
def Sys.settlePass (p : Pass) (y : Sys) : Sys :=
  match p.fail with
  | some st => y.passStop p true st
  | none =>
    if p.complete then y.passComplete p
    else if p.atRest && y.raster.parked.isNone then
      (y.dropRaster).modRaster fun r => { r with active := none, parked := some { p with stopping := false, front := false } }
    else y.setActive (y.growOver p)

/-- The ACTIVE pass after an operation that may have failed on an address. -/
def Sys.settleRes (p : Pass) (r : Sys × Except Nat Pass) : Sys :=
  match r with
  | (y, .ok p) => y.settlePass p
  | (y, .error st) => y.passStop p true st

/-! ### Rows -/

/-- Priority of a pass: its context's (R198). -/
def Sys.passPrio (y : Sys) (p : Pass) : Nat := y.basePrio p.ctx

/-- A higher-priority pass stops the ACTIVE pass while PARKED is empty (R198). -/
def Sys.preemptPass (y : Sys) : Sys :=
  match y.raster.active with
  | none => y
  | some a =>
    if y.raster.parked.isNone && y.raster.waiting.any (fun p => decide (y.passPrio p < y.passPrio a)) && !a.stopping
    then y.settlePass { a with stopping := true } else y

/-- RASTER_PACKET (R297, R181, R198). -/
def execRasterPacket (queue : Nat) (s : State) : Res :=
  onSys (fun y =>
    match (y.queue queue).slots with
    | [] => y
    | p :: _ =>
      if p.type ≠ 2 then y else
      match y.takeIn queue with
      | (y, none) => y
      | (y, some p) =>
        let resv := fld (p.word 0) 18 14 != 0 || p.word 1 != 0 || (List.range 12).any fun i => p.word (4 + i) != 0
        if resv then y.packetComplete queue 0x10 0 else
        let ctx := (y.queue queue).ctx
        match y.vread none ctx (p.word 2 + 2 ^ 32 * p.word 3) 128 with
        | (y, .error st) => y.packetComplete queue st 0
        | (y, .ok bs) =>
          let pass : Pass := { queue := queue, ctx := ctx, job := p.job, desc := bs }
          if passOk bs = false ∨ (p.word 2 + 2 ^ 32 * p.word 3) % 64 ≠ 0 then y.packetComplete queue 0x10 0
          else match y.seq (List.range pass.draws) (fun n y => match y.readDraw pass n with | (y, .ok _) => (y, .ok ()) | (y, .error e) => (y, .error e)) with
            | (y, .error st) => y.packetComplete queue st 0
            | (y, .ok _) => ((y.startHead queue none).modRaster fun r => { r with waiting := r.waiting ++ [pass] }).preemptPass) s

/-- The pass that takes the ACTIVE slot next: the parked one, else a waiting pass of the highest priority; one whose job does not run is passed
over (R198, R302). -/
def Sys.nextPass (y : Sys) : Option (Pass × Bool) :=
  let runs := fun (p : Pass) => (y.job p.job).st == 2 && !p.ending
  match y.raster.parked.filter runs with
  | some b => some (b, true)
  | none => (minBy y.passPrio (y.raster.waiting.filter runs)).map fun a => (a, false)

/-- RASTER_PASS_START (R181, R198, R200). -/
def execRasterPassStart (s : State) : Res :=
  onSys (fun y =>
    if y.raster.active.isSome then y else
    match y.nextPass with
    | none => y
    | some (p, wasParked) =>
      if y.domainUp 10 = false then y.heldFor else
      let y := if wasParked then y.modRaster fun r => { r with parked := none }
        else (y.modRaster fun r => { r with waiting := r.waiting.erase p }).modPool 3 2 (Pool.take 1)
      let first := !p.started
      let p := { p with started := true }
      let y := y.setActive p
      let r := if first then y.clearPass p else (y, .ok ())
      match r with
      | (y, .error st) => y.passStop p true st
      | (y, .ok _) =>
        let r := y.issueVs p.draw p
        match r with
        | (y, .error st) => y.passStop p true st
        | (y, .ok p) =>
          let a := y.askNow { holds := [{ who := .rasterFront, cost := y.cost 16, ctx := p.ctx }], prio := y.passPrio p, act := .rasterFront }
          (a.1.setActive { p with front := a.2 }).preemptPass) s

/-- PRIMITIVE_PROCESS (R183 to R187, R191): the ACTIVE pass's front end takes its next primitive once the draw's vertices are shaded. -/
def execPrimitiveProcess (s : State) : Res :=
  onSys (fun y =>
    match y.raster.active with
    | none => y
    | some p =>
      match p.fail with
      | some st => y.passStop p true st
      | none =>
      if p.front = false ∨ p.frontDone = true ∨ (p.stopping = true ∧ (p.prim = 0 ∨ p.growing = true)) ∨ ((y.job p.job).st ≠ 2 ∧ (y.job p.job).st ≠ 3) then y else
      if p.shaded.contains p.draw = false then y else
      match y.readDraw p p.draw with
      | (y, .error st) => y.passStop p true st
      | (y, .ok d) =>
        match y.issueVs (p.draw + 1) p with
        | (y, .error st) => y.passStop p true st
        | (y, .ok p) =>
          match y.assemble d (d.count + 1) p with
          | (y, .error st) => y.passStop p true st
          | (y, .ok (p', none)) =>
            -- the draw has no further primitive: the next draw
            let p' := { p' with draw := p.draw + 1, prim := 0, strip := [], parity := false }
            y.settlePass { p' with frontDone := decide (p'.draws ≤ p'.draw) }
          | (y, .ok (p', some vs)) =>
            let st := vs.foldl (fun st v => match st with
              | (y, .error e) => (y, .error e)
              | (y, .ok l) => match y.readVert p d v with
                | (y, .error e) => (y, .error e)
                | (y, .ok t) => (y, .ok (l ++ [t]))) (y, (.ok [] : Except Nat (List Vert)))
            match st with
            | (y, .error st) => y.passStop p true st
            | (y, .ok tri) =>
              let recs := ((p.pieces tri).zipIdx.map fun q => p.setup p.seq q.2 p.draw vs q.1).filter fun r =>
                let front := decide (0 < r.area) == d.frontCw
                decide (r.area ≠ 0) && !(d.cullBack && !front) && !(d.cullFront && front)
              let pieces := (recs.map fun r => (r, p.tilesOf r)).filter fun q => !q.2.isEmpty
              let need := p.pagesNeeded pieces
              let dom := y.passDom p
              if (y.pool 5 dom).free < need then
                if p.growing then y.setActive { p with need := need }
                else
                  let y := (y.modRaster fun r => { r with grows := satInc r.grows }).rasterEvent 0
                  y.settlePass { p with growing := true, need := need }
              else
                let a := y.pagesTake dom need
                let p' := { p' with growing := false, seq := p.seq + 1, pages := p'.pages ++ a.2 }
                let b := a.1.bin pieces p' a.2
                b.1.settlePass b.2) s

/-- GROW_WAIT_EXPIRE (R192, R193): unless enough pages are free by now, the pass is abandoned with 0x51. -/
def execGrowWaitExpire (s : State) : Res :=
  onSys (fun y =>
    match y.raster.active with
    | none => y
    | some p =>
      if p.growing && decide (p.need ≤ (y.pool 5 (y.passDom p)).free) then y.setActive { p with growing := false }
      else if p.growing then
        ((y.modRaster fun r => { r with abandoned := satInc r.abandoned }).rasterEvent 1).passStop p true 0x51
      else y) s

/-- TILE_SLICE_CONSUME (R184, R187 to R189): an owner goes on with its slice, or takes the next one. -/
def execTileSliceConsume (owner : Nat) (s : State) : Res :=
  onSys (fun y =>
    match y.raster.active with
    | none => y
    | some p =>
      if p.fail.isSome then y.settlePass p else
      let n := owner % 16
      let o := tget {} p.owners n
      let hold := y.holds (.tileOwner n)
      let req : PermReq := { holds := [{ who := .tileOwner n, cost := y.cost 17, ctx := p.ctx }], prio := y.passPrio p, act := .tileOwner n }
      if !o.work.isEmpty then
        if hold then Sys.settleRes p (y.issueAll n p) else y
      else if p.stopping then y
      else
        let keys := ((p.tiles.filter fun t => tileOwnerOf t.1 == n && !t.2.entries.isEmpty).map (·.1))
        match (keys.find? fun k => decide (o.lastTile ≤ k)).or keys.head? with
        | none => y
        | some key =>
          let a := if hold then (y, true) else y.askNow req
          if !a.2 then a.1 else
          let y := a.1
          let t := tget {} p.tiles key
          let es := t.entries.take 64
          let recOf := fun (e : TEntry) => (p.setups.find? (fun g => g.page == e.page)).bind fun g => g.records[e.slot]?
          let fr := es.flatMap fun e => match recOf e with | some s => p.frags s key false | none => []
          let c := t.consume es.length
          let y := y.pagesGive (y.passDom p) c.2
          let p' := { p with tiles := tset p.tiles key c.1, pages := p.pages.filter fun k => !c.2.contains k }
          let r := ((es.map (·.page)).eraseDups).foldl (fun st g => st.1.deref g (es.filter fun e => e.page == g).length st.2) (y, p')
          let y := r.1
          let p' := { r.2 with owners := tset r.2.owners n { o with work := fr, lastTile := key + 1 } }
          -- mark fragments of LATE_Z draws
          let y' := fr.foldl (fun st f => match st with
            | (y, .error e) => (y, .error e)
            | (y, .ok l) => match y.readDraw p f.draw with
              | (y, .error e) => (y, .error e)
              | (y, .ok d) => (y, .ok (l ++ [{ f with lateDraw := d.lateZ }]))) (y, (.ok [] : Except Nat (List Frag)))
          match y' with
          | (y, .error st) => y.passStop p' true st
          | (y, .ok fr) =>
            let p' := { p' with owners := tset p'.owners n { o with work := fr, lastTile := key + 1 } }
            Sys.settleRes p' (y.issueAll n p')) s

/-- FRAGMENT_RETIRE (R188 to R190): the oldest fragment of an owner's quad, once its batch is shaded, retires with what its shader gave: four FP32 values per pixel, the
samples it kept, and its depths where it writes depth (empty: the interpolated ones). -/
def execFragmentRetire (owner qx qy : Nat) (colors : List Nat) (keep : Nat) (depths : List Nat) (s : State) : Res :=
  onSys (fun y =>
    match y.raster.active with
    | none => y
    | some p =>
      if p.fail.isSome then y.settlePass p else
      let n := owner % 16
      let o := tget {} p.owners n
      match o.record qx qy with
      | [] => y
      | f :: _ =>
        if p.shots.contains (f.draw, f.batch) = false then y else
        match y.readDraw p f.draw with
        | (y, .error st) => y.passStop p true st
        | (y, .ok d) =>
          let zs := if depths.isEmpty then f.depths else depths
          let kept := (f.samples.zipIdx).filter fun k => bitAt keep k.1
          let live := { f with samples := kept.map (·.1) }
          let zk := kept.map fun k => zs.getD k.2 0
          let r := if f.late then y.testFrag p d true live zk else (y, .ok live.samples)
          match r with
          | (y, .error st) => y.passStop p true st
          | (y, .ok ss) =>
            let w := y.seq ss fun k y =>
              y.blendSample p d (2 * f.qx + k / p.samples % 2) (2 * f.qy + k / p.samples / 2) (k % p.samples)
                ((List.range 4).map fun i => colors.getD (4 * (k / p.samples) + i) 0)
            match w with
            | (y, .error st) => y.passStop p true st
            | (y, .ok _) =>
              let p' := { p with owners := tset p.owners n { o with issued := o.issued.erase f, stalled := o.stalled && !o.headAt qx qy } }
              Sys.settleRes p' (y.issueAll n p')) s

/-- A write of RASTER_GRANT (R201, R179): COUNT pages from RASTER_GRANT_ADDR to the selected domain. -/
def Sys.rasterGrant (count : Nat) (y : Sys) : Sys :=
  let d := y.raster.sel
  let n := count % 2 ^ 24
  let a := y.raster.grantAddr
  if a % pageBytes ≠ 0 ∨ y.mem.inDom d a (n * pageBytes) = false ∨ y.bridle.doms.length ≤ d then y.reject
  else ((y.modRaster fun r => { r with pools := tmod {} r.pools d fun p => p.grant a n }).modPool 5 d (Pool.grow n)).growCheck

/-- RASTER_GRANT. -/
def execRasterGrant (count : Nat) (s : State) : Res := onSys (Sys.mirrored 0x00600010 (count % 2 ^ 24) (Sys.rasterGrant count)) s

/-- RASTER_CTRL.CLR_COUNTS. -/
def Sys.rasterClear (same : Nat) (y : Sys) : Sys := y.modRaster fun r => { r with grows := cleared same 0, abandoned := cleared same 1, quadStalls := cleared same 2 }

/-- RASTER_CLR_COUNTS (R201). -/
def execRasterClrCounts (s : State) : Res :=
  onSys (Sys.rasterClear 0) s

end Sys2Proof.Machine
end

