-- ==== Sys2Proof/Machine/Texture.lean ====
section
/-! DEFINITION. Texture units (R194 to R196, R200): descriptors, texel fetch, filtering, permits. -/

namespace Sys2Proof.Machine

/-- A texture descriptor (R194). -/
structure TexD where
  addr : Nat
  width : Nat
  height : Nat
  levels : Nat
  fmt : Nat
  filter : Nat
  aniso : Nat
  wrapU : Nat
  wrapV : Nat
  bias : Int
  deriving DecidableEq, Repr

/-- A descriptor from its 32 bytes; none outside the table of R194. -/
def parseTex (bs : List Byte) : Option TexD :=
  let w := wordAt bs
  let d : TexD := ⟨word64At bs 0, fld (w 2) 0 13, fld (w 2) 13 13, fld (w 2) 26 4, fld (w 3) 0 4, fld (w 3) 4 2, fld (w 3) 6 3, fld (w 3) 9 2,
    fld (w 3) 11 2, sx 8 (fld (w 3) 13 8)⟩
  if 1 ≤ d.width ∧ d.width ≤ 4096 ∧ 1 ≤ d.height ∧ d.height ≤ 4096 ∧ 1 ≤ d.levels ∧ d.levels ≤ 13 ∧ d.fmt ≤ 12 ∧ d.filter ≤ 2 ∧ d.aniso ≤ 4
    ∧ d.wrapU ≤ 2 ∧ d.wrapV ≤ 2 ∧ d.addr % 64 = 0 ∧ fld (w 2) 30 2 = 0 ∧ fld (w 3) 21 11 = 0 ∧ allZero (bs.drop 16) = true then some d else none

/-- Bytes of a texel, or of a 4 × 4 block of a BC format. -/
def TexD.unit (d : TexD) : Nat :=
  match d.fmt with
  | 0 => 1 | 1 => 2 | 4 => 2 | 6 => 8 | 9 => 8 | 10 => 8 | 11 => 16 | 12 => 16 | _ => 4

def TexD.blocked (d : TexD) : Bool := decide (9 ≤ d.fmt)
def TexD.w (d : TexD) (n : Nat) : Nat := max 1 (d.width / 2 ^ n)
def TexD.h (d : TexD) (n : Nat) : Nat := max 1 (d.height / 2 ^ n)
def TexD.rowUnits (d : TexD) (n : Nat) : Nat := if d.blocked then cdiv (d.w n) 4 else d.w n
def TexD.rows (d : TexD) (n : Nat) : Nat := if d.blocked then cdiv (d.h n) 4 else d.h n

/-- First address of level n: the levels follow each other, each 64-byte aligned, rows packed (R194). -/
def TexD.levelAddr (d : TexD) : Nat → Nat
  | 0 => d.addr
  | n + 1 => cdiv (d.levelAddr n + d.rowUnits n * d.rows n * d.unit) 64 * 64

/-- A texel decoded to four FP32 values; a channel the format does not hold is free. -/
def TexD.decode (d : TexD) (bs : List Byte) (sub : Nat) : List Nat :=
  let b := fun i => (bs.getD i 0).toNat
  let half := fun i => halfVal (b (2 * i) + 256 * b (2 * i + 1))
  let fill := fun (l : List Nat) => l ++ (List.range (4 - l.length)).map fun i => (Config.freeWord (l.length + i)).toNat
  if d.blocked then ((blockTexel d.fmt bs sub).zipIdx).map fun k => k.1.getD (Config.freeWord k.2).toNat
  else match d.fmt with
    | 0 => (List.range 4).map fun i => Config.texel0 (b 0) i % 2 ^ 32
    | 1 => fill [f32Frac (b 0) 255, f32Frac (b 1) 255]
    | 2 => colorDec 0 bs
    | 3 => colorDec 1 bs
    | 4 => fill [half 0]
    | 5 => fill [half 0, half 1]
    | 6 => colorDec 2 bs
    | 7 => fill [leNat (bs.take 4)]
    | _ => fill ((colorDec 3 bs).take 3)

/-- A coordinate brought into a level (R194 WRAP). -/
def wrapTo (mode : Nat) (n : Nat) (i : Int) : Nat :=
  match mode with
  | 0 => (i % (n : Int)).toNat
  | 1 => min i.toNat (n - 1)
  | _ => let j := (i % (2 * n : Int)).toNat; if j < n then j else 2 * n - 1 - j

/-- Texel (x, y) of level n fetched (R194). -/
def Sys.texel (c : Nat) (d : TexD) (n : Nat) (x y' : Int) (y : Sys) : Sys × Except Nat (List Nat) :=
  let i := wrapTo d.wrapU (d.w n) x
  let j := wrapTo d.wrapV (d.h n) y'
  let a := d.levelAddr n + (if d.blocked then (j / 4 * d.rowUnits n + i / 4) else j * d.rowUnits n + i) * d.unit
  match y.vread none c a d.unit with
  | (y, .error e) => (y, .error e)
  | (y, .ok bs) => (y, .ok (d.decode bs (j % 4 * 4 + i % 4)))

/-- a × (256 − w) + b × w, each operation rounded (R195). -/
def lerp256 (a b w : Nat) : Nat := fAdd (fMul a (fCvtF (256 - w))) (fMul b (fCvtF w))

/-- A coordinate in texels with 8 fraction bits by RNE (R195). -/
def texCoord (u n : Nat) : Int := fixed8 (fMul u (fCvtF n))

/-- A sample of level n at coordinates u, v: the nearest texel, or a bilinear sample (R195). -/
def Sys.sampleLevel (c : Nat) (d : TexD) (n u v : Nat) (y : Sys) : Sys × Except Nat (List Nat) :=
  let tu := texCoord u (d.w n)
  let tv := texCoord v (d.h n)
  if d.filter = 0 then y.texel c d n (tu / 256) (tv / 256)
  else
    let x := (tu - 128) / 256
    let z := (tv - 128) / 256
    let wu := ((tu - 128) % 256).toNat
    let wv := ((tv - 128) % 256).toNat
    match y.texel c d n x z with
    | (y, .error e) => (y, .error e)
    | (y, .ok t00) => match y.texel c d n (x + 1) z with
      | (y, .error e) => (y, .error e)
      | (y, .ok t10) => match y.texel c d n x (z + 1) with
        | (y, .error e) => (y, .error e)
        | (y, .ok t01) => match y.texel c d n (x + 1) (z + 1) with
          | (y, .error e) => (y, .error e)
          | (y, .ok t11) => (y, .ok ((List.range 4).map fun i =>
              let g := fun (l : List Nat) => l.getD i 0
              fMul (lerp256 (lerp256 (g t00) (g t10) wu) (lerp256 (g t01) (g t11) wu) wv) 0x37800000))

/-- One probe: one level, or two levels blended (R195). -/
def Sys.probe (c : Nat) (d : TexD) (lam u v : Nat) (y : Sys) : Sys × Except Nat (List Nat) :=
  let n := lam / 256
  if d.filter = 2 then
    match y.sampleLevel c d n u v with
    | (y, .error e) => (y, .error e)
    | (y, .ok a) => match y.sampleLevel c d (min (n + 1) (d.levels - 1)) u v with
      | (y, .error e) => (y, .error e)
      | (y, .ok b) => (y, .ok ((List.range 4).map fun i => fMul (lerp256 (a.getD i 0) (b.getD i 0) (lam % 256)) 0x3B800000))
  else
    -- which of the two levels a fraction of a level selects is open
    let k := if lam % 256 = 0 then n else min (d.levels - 1) (n + Config.freeNat lam % 2)
    y.sampleLevel c d k u v

/-- ρ² and ρ_min² as FP32, and the differences along the two axes (R195). -/
structure Foot where
  rho2 : Nat
  min2 : Nat
  du : Nat
  dv : Nat

/-- The footprint of a quad: pixel 1 lies right of pixel 0, pixel 2 below it. -/
def TexD.foot (d : TexD) (uv : List Nat) : Foot :=
  let g := fun i => uv.getD i 0
  let dux := fSub (g 2) (g 0)
  let dvx := fSub (g 3) (g 1)
  let duy := fSub (g 4) (g 0)
  let dvy := fSub (g 5) (g 1)
  let sq := fun du dv => let a := fMul du (fCvtF d.width); let b := fMul dv (fCvtF d.height); fAdd (fMul a a) (fMul b b)
  let x := sq dux dvx
  let z := sq duy dvy
  if fKey z ≤ fKey x then ⟨x, z, dux, dvx⟩ else ⟨z, x, duy, dvy⟩

/-- The probe count's exponent: the smallest k up to the cap with 4^k × ρ_min² ≥ ρ² (R195). -/
def TexD.probes (d : TexD) (f : Foot) : Nat :=
  ((List.range d.aniso).find? fun k => (f32Val f.rho2).le ((f32Val f.min2).mul ⟨4 ^ k, 0⟩)).getD d.aniso

/-- λ in 1/256 level (R195). -/
def TexD.lambda (d : TexD) (rho2 : Nat) : Nat :=
  let l : Int := ((rho2 : Int) - 0x3F800000) / 65536 + 16 * d.bias
  min l.toNat (256 * (d.levels - 1))

/-- A pixel's sample: the probes summed in order by the tree and multiplied by 1/N (R195). -/
def Sys.samplePixel (c : Nat) (d : TexD) (f : Foot) (u v : Nat) (y : Sys) : Sys × Except Nat (List Nat) :=
  let k := d.probes f
  let n := 2 ^ k
  let lam := d.lambda (if isInf f.rho2 || isNaN f.rho2 then f.rho2 else f32Of ((f32Val f.rho2).mul ⟨1, -2 * (k : Int)⟩) false)
  let r := (List.range n).foldl (fun st i => match st with
    | (y, .error e) => (y, .error e)
    | (y, .ok l) =>
      let s := fAdd (Config.probeStart n % 2 ^ 32) (fMul (fCvtF i) (Config.probeStep n % 2 ^ 32))
      let at_ := fun a da => if n = 1 then a else fAdd a (fMul s da)
      match y.probe c d lam (at_ u f.du) (at_ v f.dv) with
      | (y, .error e) => (y, .error e)
      | (y, .ok t) => (y, .ok (l ++ [t]))) (y, (.ok [] : Except Nat (List (List Nat))))
  match r with
  | (y, .error e) => (y, .error e)
  | (y, .ok l) => (y, .ok ((List.range 4).map fun i => fMul (tree fAdd 0 (l.map (·.getD i 0))) (f32Frac 1 n)))

/-- The results of a quad's request: sixteen FP32 values; free where a coordinate is not finite or the descriptor does not keep to R194. -/
def Sys.sampleQuad (c : Nat) (d : Option TexD) (uv : List Nat) (y : Sys) : Sys × Except Nat (List Nat) :=
  match d with
  | none => (y.tick, .ok ((List.range 16).map fun i => (Config.freeWord (y.chance + i)).toNat))
  | some d =>
    if (uv.take 8).any (fun w => isNaN w || isInf w) then (y.tick, .ok ((List.range 16).map fun i => (Config.freeWord (y.chance + i)).toNat))
    else
      let f := d.foot uv
      (List.range 4).foldl (fun st i => match st with
        | (y, .error e) => (y, .error e)
        | (y, .ok l) => match y.samplePixel c d f (uv.getD (2 * i) 0) (uv.getD (2 * i + 1) 0) with
          | (y, .error e) => (y, .error e)
          | (y, .ok t) => (y, .ok (l ++ t))) (y, (.ok [] : Except Nat (List Nat)))

/-- A unit that holds its permits serves a request of the ACTIVE pass's shading: draw, descriptor index, the u and v of the quad's four pixels. -/
def Sys.textureServe (n draw idx : Nat) (uv : List Nat) (y : Sys) : Sys :=
  match y.raster.active with
  | none => y
  | some p =>
    match y.readDraw p draw with
    | (y, .error st) => y.passStop p true st
    | (y, .ok d) => match y.vread none p.ctx (d.tex + 32 * (idx % 64)) 32 with
      | (y, .error st) => y.passStop p true st
      | (y, .ok bs) => match y.sampleQuad p.ctx (parseTex bs) (uv.map (· % 2 ^ 32)) with
        | (y, .error st) => y.passStop p true st
        | (y, .ok out) => y.modRaster fun r => { r with texOut := tset r.texOut n out }

/-- A unit gets its permits: the requests it held are served in order (R200). -/
def Sys.textureRun (n : Nat) (y : Sys) : Sys :=
  let mine := y.raster.texHeld.filter fun q => q.1 == n
  let y := y.modRaster fun r => { r with texHeld := r.texHeld.filter fun q => q.1 != n }
  mine.foldl (fun y q => y.textureServe n q.2.1 q.2.2.1 q.2.2.2) y

/-- TEXTURE_SAMPLE (R194 to R196, R200): a unit serves a request, or keeps it until its permits are granted. -/
def execTextureSample (unit draw idx : Nat) (uv : List Nat) (s : State) : Res :=
  onSys (fun y =>
    match y.raster.active with
    | none => y
    | some p =>
      let n := unit % 32
      if y.domainUp 10 = false then y.heldFor
      else if p.fail.isSome then y.settlePass p
      else if y.holds (.texture n) then y.textureServe n draw idx uv
      else
        let a := y.askNow { holds := [{ who := .texture n, cost := y.cost 18, ctx := p.ctx }], prio := y.passPrio p, act := .texture n }
        if a.2 then a.1.textureServe n draw idx uv
        else a.1.modRaster fun r => { r with texHeld := r.texHeld ++ [(n, draw, idx, uv)] }) s

/-- TEXTURE_UNIT_IDLE (R200): the unit returns its permits, unless requests still wait for it. -/
def execTextureUnitIdle (unit : Nat) (s : State) : Res :=
  onSys (fun y => if y.raster.texHeld.any (fun q => q.1 == unit % 32) then y else (y.dropHold (.texture (unit % 32))).unrequest (.texture (unit % 32))) s

end Sys2Proof.Machine
end

