-- ==== Sys2Proof/Machine/Vision.lean ====
section
/-! DEFINITION. Vision engines (R202 to R222): pyramid, block matching, refine and check, corner features, flag lines, the block queue. -/

namespace Sys2Proof.Machine

/-! ### The descriptor (R203) -/

def VCmd.w (c : VCmd) (n : Nat) : Nat := wordAt c.desc n
def VCmd.kind (c : VCmd) : Nat := fld (c.w 0) 0 2
def VCmd.y16 (c : VCmd) : Bool := bitAt (c.w 0) 2
/-- Pyramid levels of a FLOW or STEREO command; level of a FEATURE command. -/
def VCmd.levels (c : VCmd) : Nat := fld (c.w 0) 3 3
def VCmd.featLevel (c : VCmd) : Nat := fld (c.w 0) 6 3
def VCmd.lr (c : VCmd) : Bool := bitAt (c.w 0) 9
def VCmd.refine (c : VCmd) : Bool := bitAt (c.w 0) 10
def VCmd.width (c : VCmd) : Nat := fld (c.w 1) 0 13
def VCmd.height (c : VCmd) : Nat := fld (c.w 1) 13 13
def VCmd.confK (c : VCmd) : Nat := fld (c.w 3) 0 16
def VCmd.maxFeat (c : VCmd) : Nat := fld (c.w 3) 16 14
def VCmd.srows (c : VCmd) : Nat := fld (c.w 5) 0 16
def VCmd.src (c : VCmd) (n : Nat) : Nat := word64At c.desc (6 + 2 * n)
def VCmd.pitch (c : VCmd) (n : Nat) : Nat := c.w (10 + n)
def VCmd.scr (c : VCmd) : Nat := word64At c.desc 12
def VCmd.out (c : VCmd) : Nat := word64At c.desc 14
def VCmd.flag (c : VCmd) : Nat := word64At c.desc 16

/-- A size halved n times, rounding up (R204). -/
def levelSize : Nat → Nat → Nat
  | w, 0 => w
  | w, n + 1 => (levelSize w n + 1) / 2

/-- Size rounded up to a multiple of 64 (R205). -/
def pad64 (n : Nat) : Nat := cdiv n 64 * 64

/-- Bytes of the scratch region (R205). -/
def VCmd.scratch (c : VCmd) : Nat :=
  let p := fun l => pad64 (levelSize c.width l) * levelSize c.height l
  if c.kind = 2 then ((List.range c.featLevel).map fun l => p (l + 1)).sum + 131072
  else ((List.range (c.levels - 1)).map fun l => 2 * p (l + 1)).sum +
    (if c.lr then 2 else 1) * ((List.range c.levels).map fun l => 8 * (cdiv (levelSize c.width l) 4 * cdiv (levelSize c.height l) 4)).sum

/-- Bytes of the output region (R211, R214). -/
def VCmd.outBytes (c : VCmd) : Nat :=
  if c.kind = 2 then 64 + 48 * c.maxFeat else 8 * (cdiv c.width 4 * cdiv c.height 4)

/-- The descriptor keeps to R203, its regions apart. -/
def VCmd.formOk (c : VCmd) : Bool :=
  let coarse := if c.kind = 2 then c.featLevel else c.levels - 1
  c.kind != 3 && fld (c.w 0) 11 21 == 0 && decide (16 ≤ c.width ∧ c.width ≤ 4096 ∧ 16 ≤ c.height ∧ c.height ≤ 4096) && fld (c.w 1) 26 6 == 0 &&
  c.confK != 0 && fld (c.w 3) 30 2 == 0 && fld (c.w 5) 16 16 == 0 &&
  (if c.kind = 2 then decide (c.featLevel ≤ 5 ∧ 1 ≤ c.maxFeat ∧ c.maxFeat ≤ 8192)
   else decide (1 ≤ c.levels ∧ c.levels ≤ 6 ∧ 1 ≤ c.srows ∧ c.srows ≤ 1024)) &&
  decide (8 ≤ levelSize c.width coarse ∧ 8 ≤ levelSize c.height coarse) &&
  c.pitch 0 % 64 == 0 && c.pitch 1 % 64 == 0 && [c.src 0, c.src 1, c.scr, c.out, c.flag].all (fun a => a % 64 == 0) && allZero (c.desc.drop 72)

/-- A range lies in the memory of the context's domain: every page of it maps to device memory. -/
def Sys.regionOk (ctx a n : Nat) (wr : Bool) (y : Sys) : Sys × Bool :=
  (piecesOf a n).foldl (fun st p => match st with
    | (y, false) => (y, false)
    | (y, true) => match y.translate none ctx p.1 p.2 wr with
      | (y, .error _) => (y, false)
      | (y, .ok x) => (y, !x.host)) (y, true)

/-- Bytes an image takes. -/
def VCmd.srcBytes (c : VCmd) (n : Nat) : Nat := (c.height - 1) * c.pitch n + (if c.y16 then 2 else 1) * c.width

/-- Every region of a command lies in the domain's memory (R203). -/
def Sys.regionsOk (c : VCmd) (y : Sys) : Sys × Bool :=
  let rs := [(c.src 0, c.srcBytes 0, false)] ++ (if c.kind = 2 then [] else [(c.src 1, c.srcBytes 1, false)]) ++
    [(c.scr, c.scratch, true), (c.out, c.outBytes, true), (c.flag, 64, true)]
  rs.foldl (fun st r => match st with
    | (y, false) => (y, false)
    | (y, true) => y.regionOk c.ctx r.1 r.2.1 r.2.2) (y, true)

/-! ### Images and the pyramid (R204) -/

/-- A level's image, rows of samples. -/
structure Img where
  w : Nat
  h : Nat
  px : Array (Array Nat)

/-- A sample; outside the image the nearest one inside. -/
def Img.at_ (m : Img) (x y : Int) : Nat := (m.px.getD (min y.toNat (m.h - 1)) #[]).getD (min x.toNat (m.w - 1)) 0

/-- The next level. -/
def Img.half (m : Img) : Img :=
  let w := (m.w + 1) / 2
  let h := (m.h + 1) / 2
  { w := w, h := h,
    px := (Array.range h).map fun (j : Nat) => (Array.range w).map fun (i : Nat) =>
      let x : Int := 2 * i
      let y : Int := 2 * j
      (m.at_ x y + m.at_ (x + 1) y + m.at_ x (y + 1) + m.at_ (x + 1) (y + 1) + 2) / 4 }

/-- Level n. -/
def Img.level (m : Img) : Nat → Img
  | 0 => m
  | n + 1 => (m.level n).half

/-- A source image read (R203). -/
def Sys.readImg (c : VCmd) (n : Nat) (y : Sys) : Sys × Except Nat Img :=
  let k := if c.y16 then 2 else 1
  let r := (List.range c.height).foldl (fun st j => match st with
    | (y, .error e) => (y, .error e)
    | (y, .ok rows) => match y.vread none c.ctx (c.src n + j * c.pitch n) (k * c.width) with
      | (y, .error e) => (y, .error e)
      | (y, .ok bs) =>
        let a := bs.toArray
        (y, .ok (rows.push ((Array.range c.width).map fun i => (a.getD (k * i + (k - 1)) 0).toNat)))) (y, (.ok #[] : Except Nat (Array (Array Nat))))
  match r with
  | (y, .error e) => (y, .error e)
  | (y, .ok rows) => (y, .ok { w := c.width, h := c.height, px := rows })

/-! ### Block matching (R206 to R208) -/

/-- A cell of a vector field. -/
structure Cell where
  c : Int × Int := (0, 0)
  d : Int × Int := (0, 0)
  vx : Int := 0
  vy : Int := 0
  conf : Nat := 0
  cost : Nat := 0
  notex : Bool := false
  occl : Bool := false
  refined : Bool := false

/-- The 64 positions of a cell's block. -/
def blockPts (gx gy : Nat) : List (Int × Int) :=
  (List.range 64).map fun k => (4 * (gx : Int) - 2 + (k % 8 : Nat), 4 * (gy : Int) - 2 + (k / 8 : Nat))

def absDiff (a b : Nat) : Nat := if a ≤ b then b - a else a - b

/-- Cost of a candidate. -/
def costOf (i0 i1 : Img) (pts : List (Int × Int)) (e : Int × Int) : Nat :=
  (pts.map fun p => absDiff (i0.at_ p.1 p.2) (i1.at_ (p.1 + e.1) (p.2 + e.2))).sum

/-- Texture of a block. -/
def textureOf (i0 : Img) (pts : List (Int × Int)) : Nat :=
  (pts.map fun p => absDiff (i0.at_ (p.1 + 1) p.2) (i0.at_ p.1 p.2) + absDiff (i0.at_ p.1 (p.2 + 1)) (i0.at_ p.1 p.2)).sum

/-- The candidates around a centre with their costs. -/
def candidates (stereo : Bool) (i0 i1 : Img) (pts : List (Int × Int)) (c : Int × Int) : List ((Int × Int) × Nat) :=
  let ks : List Int := (List.range 9).map fun (k : Nat) => (k : Int) - 4
  (if stereo then [0] else ks).flatMap fun dy => ks.map fun dx =>
    let e := (c.1 + dx, if stereo then 0 else c.2 + dy)
    (e, costOf i0 i1 pts e)

/-- The order of R206: cost, then distance from the centre, then ey, then ex. -/
def candKey (c : Int × Int) (q : (Int × Int) × Nat) : Nat :=
  let dx := q.1.1 - c.1
  let dy := q.1.2 - c.2
  q.2 * 65536 + (dx.natAbs + dy.natAbs) * 256 + (dy + 4).toNat * 16 + (dx + 4).toNat

/-- Sub-pixel offset on one axis (R207): whether d stands at the window's edge, and the three costs. -/
def subPel (edge : Bool) (c0 cm cp : Nat) : Int :=
  if edge then 0
  else
    let num : Int := (cm : Int) - cp
    let den := cm + cp - 2 * c0
    if den = 0 then 0 else num.sign * (((8 * num.natAbs + den) / (2 * den) : Nat) : Int)

/-- A searched cell around a centre: integer vector at any level; vector and confidence as level 0 has them (R206 to R208). -/
def searchCell (stereo : Bool) (confK : Nat) (i0 i1 : Img) (gx gy : Nat) (c : Int × Int) : Cell :=
  let pts := blockPts gx gy
  let cs := candidates stereo i0 i1 pts c
  match minBy (candKey c) cs with
  | none => {}
  | some b =>
    let d := b.1
    let cost := costOf i0 i1 pts
    let fx := subPel ((d.1 - c.1).natAbs == 4) b.2 (cost (d.1 - 1, d.2)) (cost (d.1 + 1, d.2))
    let fy := if stereo then 0 else subPel ((d.2 - c.2).natAbs == 4) b.2 (cost (d.1, d.2 - 1)) (cost (d.1, d.2 + 1))
    let far := cs.filter fun q => decide (1 < (q.1.1 - d.1).natAbs) || (!stereo && decide (1 < (q.1.2 - d.2).natAbs))
    let c2 := ((minBy (·.2) far).map (·.2)).getD b.2
    { c := c, d := d, vx := 8 * d.1 + fx, vy := 8 * d.2 + fy, cost := b.2, conf := min 255 (256 * (c2 - b.2) / (b.2 + confK)) }

/-- A field: its grid and cells, row-major. -/
structure Field where
  gw : Nat
  gh : Nat
  cells : Array Cell

def Field.at_ (f : Field) (gx gy : Nat) : Cell := f.cells.getD (gy * f.gw + gx) {}

/-- One level of a direction's search, its centres carried down from the level above (R206). -/
def matchLevel (stereo : Bool) (confK thresh : Nat) (i0 i1 : Img) (up : Option Field) : Field :=
  let gw := cdiv i0.w 4
  let gh := cdiv i0.h 4
  { gw := gw, gh := gh,
    cells := (Array.range (gw * gh)).map fun k =>
      let gx := k % gw
      let gy := k / gw
      let p := match up with | some f => (f.at_ (min (gx / 2) (f.gw - 1)) (min (gy / 2) (f.gh - 1))).d | none => (0, 0)
      let c : Int × Int := (2 * p.1, if stereo then 0 else 2 * p.2)
      if textureOf i0 (blockPts gx gy) < thresh then { c := c, d := c, vx := 8 * c.1, vy := 8 * c.2, notex := true }
      else searchCell stereo confK i0 i1 gx gy c }

/-- A direction searched from the coarsest level to level 0: n levels above l remain done in up. -/
def matchDown (stereo : Bool) (confK thresh : Nat) (a b : Img) : Nat → Option Field → Field
  | 0, up => matchLevel stereo confK thresh (a.level 0) (b.level 0) up
  | l + 1, up => matchDown stereo confK thresh a b l (some (matchLevel stereo confK thresh (a.level (l + 1)) (b.level (l + 1)) up))

/-- Lower median (R209). -/
def lowerMedian (l : List Int) : Int := (l.mergeSort (fun a b => decide (a ≤ b))).getD ((l.length - 1) / 2) 0

/-- The refine pass over a level-0 field (R209). -/
def refineField (stereo : Bool) (confK limit : Nat) (i0 i1 : Img) (f : Field) : Field :=
  { f with cells := (Array.range (f.gw * f.gh)).map fun k =>
      let gx := k % f.gw
      let gy := k / f.gw
      let o := f.at_ gx gy
      if o.notex || decide (limit ≤ o.conf) then o else
      let near := (List.range 9).filterMap fun (j : Nat) =>
        let x : Int := (gx : Int) + (j % 3 : Nat) - 1
        let y : Int := (gy : Int) + (j / 3 : Nat) - 1
        if j = 4 ∨ x < 0 ∨ y < 0 ∨ (f.gw : Int) ≤ x ∨ (f.gh : Int) ≤ y then none else some (f.at_ x.toNat y.toNat)
      let don := near.filter fun n => !n.notex && decide (limit ≤ n.conf)
      if don.isEmpty then o else
      let m : Int × Int := (lowerMedian (don.map (·.d.1)), if stereo then 0 else lowerMedian (don.map (·.d.2)))
      let n := searchCell stereo confK i0 i1 gx gy m
      if n.cost < o.cost then { n with c := o.c, refined := true } else o }

/-- The left-right check of the forward field against the backward field (R210). -/
def checkField (tol : Nat) (f b : Field) : Field :=
  { f with cells := (Array.range (f.gw * f.gh)).map fun k =>
      let gx := k % f.gw
      let gy := k / f.gw
      let o := f.at_ gx gy
      if o.notex then o else
      let bx := (32 * (gx : Int) + 12 + o.vx + 4) / 32
      let bz := (32 * (gy : Int) + 12 + o.vy + 4) / 32
      let w := b.at_ bx.toNat bz.toNat
      let out := decide (bx < 0 ∨ bz < 0 ∨ (b.gw : Int) ≤ bx ∨ (b.gh : Int) ≤ bz)
      if out || decide (tol < (o.vx + w.vx).natAbs) || decide (tol < (o.vy + w.vy).natAbs) then
        { o with occl := true, conf := 0, vx := 8 * o.c.1, vy := 8 * o.c.2 }
      else o }

/-- The forward field of a FLOW or STEREO command (R206 to R210). -/
def VCmd.flow (c : VCmd) (a b : Img) : Field :=
  let st := c.kind == 1
  let thresh := fld (c.w 2) 0 16
  let limit := fld (c.w 2) 16 8
  let run := fun (p q : Img) =>
    let f := matchDown st c.confK thresh p q (c.levels - 1) none
    if c.refine then refineField st c.confK limit p q f else f
  if c.lr then checkField (fld (c.w 2) 24 8) (run a b) (run b a) else run a b

/-- An output entry (R211). -/
def Cell.bytes (o : Cell) (stereo : Bool) (w h gx gy : Nat) : List Byte :=
  let tc := fun (v : Int) => (v % 65536).toNat
  let edge := decide (gx = 0 ∨ gy = 0 ∨ w ≤ 4 * gx + 5 ∨ h ≤ 4 * gy + 5)
  wordsBytes [tc o.vx + 2 ^ 16 * (if stereo then 0 else tc o.vy),
    put o.conf 0 8 + putb o.notex 8 + putb o.occl 9 + putb edge 10 + putb o.refined 11 + put (if o.notex then 0 else min 16383 o.cost) 16 14]

/-! ### Corner features (R212 to R214) -/

/-- A candidate corner. -/
structure Corner where
  x : Nat
  y : Nat
  score : Int

/-- Corner score of a sample (R212). -/
def cornerScore (m : Img) (x y : Int) : Int :=
  let ps : List (Int × Int) := (List.range 25).map fun k => (x + (k % 5 : Nat) - 2, y + (k / 5 : Nat) - 2)
  let gs := ps.map fun p => ((m.at_ (p.1 + 1) p.2 : Int) - m.at_ (p.1 - 1) p.2, (m.at_ p.1 (p.2 + 1) : Int) - m.at_ p.1 (p.2 - 1))
  let sxx := (gs.map fun g => g.1 * g.1).sum
  let syy := (gs.map fun g => g.2 * g.2).sum
  let sxy := (gs.map fun g => g.1 * g.2).sum
  sxx * syy - sxy * sxy - (sxx + syy) ^ 2 / 16

/-- The candidates in row order (R212). -/
def corners (m : Img) (thresh : Int) : List Corner :=
  let sc : Array (Array Int) := (Array.range m.h).map fun (j : Nat) => (Array.range m.w).map fun (i : Nat) => cornerScore m i j
  let g := fun (x y : Nat) => (sc.getD y #[]).getD x 0
  (List.range (m.h - 26)).flatMap fun j => (List.range (m.w - 26)).filterMap fun i =>
    let x := i + 13
    let y := j + 13
    let s := g x y
    let earlier := [g (x - 1) (y - 1), g x (y - 1), g (x + 1) (y - 1), g (x - 1) y]
    let later := [g (x + 1) y, g (x - 1) (y + 1), g x (y + 1), g (x + 1) (y + 1)]
    if thresh < s / 1024 ∧ earlier.all (fun e => decide (e < s)) = true ∧ later.all (fun e => decide (e ≤ s)) = true then some ⟨x, y, s⟩ else none

/-- Sum of the 3 × 3 samples around a point. -/
def box3 (m : Img) (x y : Int) : Nat := ((List.range 9).map fun k => m.at_ (x + (k % 3 : Nat) - 1) (y + (k / 3 : Nat) - 1)).sum

/-- The B256 descriptor (R213). -/
def b256 (m : Img) (x y : Nat) : List Byte :=
  let bit := fun i =>
    let h := tanner 0x36353242 0 i
    let p : Int × Int := ((fld h 0 8 % 25 : Nat) - 12, (fld h 8 8 % 25 : Nat) - 12)
    let q : Int × Int := ((fld h 16 8 % 25 : Nat) - 12, (fld h 24 8 % 25 : Nat) - 12)
    let q := if q = p then (-q.1, -q.2) else q
    let q := if q = p then (1, 0) else q
    decide (box3 m (x + p.1) (y + p.2) < box3 m (x + q.1) (y + q.2))
  (List.range 32).map fun k => BitVec.ofNat 8 ((List.range 8).map fun b => putb (bit (8 * k + b)) b).sum

/-- The kept features and the count of candidates (R212). -/
def VCmd.features (c : VCmd) (m : Img) : List Corner × Nat :=
  let cs := corners m (sx 32 (c.w 4))
  ((cs.mergeSort fun a b => decide (b.score ≤ a.score)).take c.maxFeat, cs.length)

/-- The output of a FEATURE command (R214). -/
def VCmd.featBytes (c : VCmd) (m : Img) : List Byte :=
  let r := c.features m
  padTo 64 (wordsBytes [r.1.length, r.2]) ++ r.1.flatMap fun k =>
    let s := max (-(2 ^ 31 : Int)) (min (2 ^ 31 - 1) (k.score / 1024))
    wordsBytes [k.x + 2 ^ 13 * k.y + 2 ^ 26 * c.featLevel, (s % 2 ^ 32).toNat, 0, 0] ++ b256 m k.x k.y

/-! ### Commands: start, end, flag lines (R215 to R219) -/

def Sys.visionEvent (k : Nat) (y : Sys) : Sys :=
  (y.modVision fun v => { v with events := setBit v.events k }).raiseIf y.vision.irq k

def Sys.modVCmd (id : Nat) (f : VCmd → VCmd) (y : Sys) : Sys :=
  y.modVision fun v => { v with cmds := v.cmds.map fun c => if c.id = id then f c else c }

/-- Engines of a kind. -/
def kindEngines (kind : Nat) : List Nat := if kind = 2 then [4, 5] else [0, 1, 2, 3]

/-- The command on an engine: running, stopping or waiting for permits. -/
def Sys.onEngine (y : Sys) (n : Nat) : Option VCmd := y.vision.cmds.find? fun c => c.st != 0 && c.engine == n

/-- The flag line's word 0 with the stripes; FAILED in bit 31 (R215). -/
def Sys.writeFlag (c : VCmd) (failed : Bool) (y : Sys) : Sys :=
  (y.vwrite none c.ctx c.flag (wordsBytes [put c.stripes 0 16 + putb failed 31]) none).1

/-- A task group whose waits are over: a kernel asks for its lock, another becomes READY (R154, R268). -/
def Sys.tgGo (t : Nat) (y : Sys) : Sys :=
  if (y.tg t).kernel ≠ 0 then y.kernelStart t else (y.modTg t fun g => { g with st := .ready }).tgBreeze t

/-- A task group is released by its flag line: it goes on, or completes without running with the status of a failed command (R216). -/
def Sys.flagGo (t : Nat) (failed : Option Nat) (y : Sys) : Sys :=
  match failed with
  | some st => (y.modTg t fun g => { g with status := st, ended := g.slivers }).tgComplete t
  | none => y.tgGo t

/-- A task group waits on the flag line of a command; it may wait for a beam fire as well (R216, R298). -/
def Tg.awaitsFlag (g : Tg) (c : VCmd) : Bool :=
  (g.st == .flagWait || g.st == .beamWait) && g.stripes != 0 && g.flagEnd.isNone && g.ctx == c.ctx && g.flagAddr == c.flag

/-- Task groups that wait on a command's flag line are released, in queue order: FAILED was set, or STRIPES has reached their count for a command that
started after they were queued, or in the cycle in which the newest was queued (same; R216, R217). One that still waits for its fire remembers it. -/
def Sys.flagRelease (c : VCmd) (failed : Option Nat) (same : Bool) (y : Sys) : Sys :=
  let ws := y.bridle.tgs.filter fun t => t.2.awaitsFlag c
  let newest := (minBy (fun t => 2 ^ 64 - t.2.queued) ws).map (·.1)
  let ts := (ws.filter fun t => failed.isSome || ((decide (t.2.queued < c.startSeq) || (same && newest == some t.1)) && decide (t.2.stripes ≤ c.stripes))).map (·.1)
  (ts.mergeSort fun a b => decide ((y.tg a).queued ≤ (y.tg b).queued)).foldl (fun y t =>
    if (y.tg t).st = .flagWait then y.flagGo t failed else y.modTg t fun g => { g with flagEnd := some failed }) y

/-- The engine of a command lets it go. -/
def Sys.freeEngine (c : VCmd) (y : Sys) : Sys := if c.st = 0 then y else (y.dropHold (.vision c.engine)).unrequest (.vision c.engine c.id)

/-- A command leaves the block queue and its packet completes; the scratch region's bytes have no meaning then (R205). -/
def Sys.visionEnd (c : VCmd) (st : Nat) (y : Sys) : Sys :=
  let y := y.freeEngine c
  let y := if c.started then ((y.vwrite none c.ctx c.scr (freeBytes y.chance c.scratch) none).1).modChance (· + c.scratch) else y
  let y := (y.modVision fun v => { v with cmds := v.cmds.filter fun k => k.id != c.id }).modPool 3 1 (Pool.give 1)
  y.packetComplete c.queue st 0

/-- A command ends without publishing: FAILED is set, its waiters complete with its status (R216, R217). -/
def Sys.visionFail (c : VCmd) (st : Nat) (y : Sys) : Sys :=
  (((y.writeFlag c true).visionEvent 1).visionEnd c st).flagRelease c (some st) false

/-- An error on a vision buffer or engine: the command restarts, at most twice (R217, R400). -/
def Sys.visionRestart (c : VCmd) (y : Sys) : Sys :=
  if 2 ≤ c.restarts then y.visionFail c 0x30
  else (y.freeEngine c).modVCmd c.id fun k => { k with st := 0, restarts := k.restarts + 1, row := 0, level := 0, dir := false, final := false }

/-- Priority order of R218: context priority, then age. -/
def Sys.visionRank (y : Sys) (c : VCmd) : Nat := y.basePrio c.ctx * 2 ^ 40 + c.id

/-- A waiting command may run: its job does, and nothing holds dispatch (R302, R396). -/
def Sys.visionReady (y : Sys) (c : VCmd) : Bool :=
  c.st == 0 && (y.job c.job).st == 2 && !(y.ctx c.ctx).calm && !y.duo.hold && !y.flt.dieCalm

/-- The command of a kind that goes next. -/
def Sys.visionNext (y : Sys) (kind : Nat) : Option VCmd :=
  minBy y.visionRank (y.vision.cmds.filter fun c => y.visionReady c && (c.kind == 2) == (kind == 2))

/-- A higher-priority command waits and no engine of its kind is free: the running command of lowest priority, the youngest among equals,
is to stop (R218). -/
def Sys.visionPreempt (kind : Nat) (y : Sys) : Sys :=
  match y.visionNext kind with
  | none => y
  | some w =>
    let busy := (kindEngines kind).filterMap y.onEngine
    if busy.length < (kindEngines kind).length ∨ busy.any (fun c => c.st == 2) = true then y
    else match minBy (fun c => 2 ^ 50 - y.visionRank c) (busy.filter fun c => c.st == 1 && decide (y.basePrio w.ctx < y.basePrio c.ctx)) with
      | some v => y.modVCmd v.id fun c => { c with st := 2 }
      | none => y

/-- A command runs on its engine: at its first start the flag line is cleared (R215). -/
def Sys.visionRun (id : Nat) (y : Sys) : Sys :=
  match y.vision.cmds.find? (fun c => c.id == id) with
  | none => y
  | some c =>
    if c.started then y.modVCmd id fun c => { c with st := 1 }
    else
      let (k, y) := y.seqNo
      let y := y.modVCmd id fun c => { c with st := 1, started := true, startSeq := k }
      (y.vwrite none c.ctx c.flag (List.replicate 64 0) none).1

/-- A command stops and goes back to wait, its progress in word 1 of the flag line; the list of kept candidates of a FEATURE command goes to scratch, where
its layout is the engine's own (R205, R219). -/
def Sys.visionHalt (c : VCmd) (row level : Nat) (dir final : Bool) (y : Sys) : Sys :=
  let y := (y.freeEngine c).modVCmd c.id fun k =>
    { k with st := 0, row := row % 2 ^ 13, level := level % 8, dir := dir, final := final }
  let y := y.modVision fun v => { v with stops := satInc v.stops }
  let y := if c.kind = 2 then ((y.vwrite none c.ctx c.scr (freeBytes y.chance c.scratch) none).1).modChance (· + c.scratch) else y
  (y.vwrite none c.ctx (c.flag + 4) (wordsBytes [put row 0 13 + put level 13 3 + putb dir 16 + putb final 17]) none).1

/-- A command to the block queue (R203, R218, R297): the packet at a queue's head, when its descriptor is of the wanted kind. -/
def Sys.visionPacket (want : Nat → Bool) (queue : Nat) (y : Sys) : Sys :=
  match (y.queue queue).slots with
  | [] => y
  | p :: _ =>
    if p.type ≠ 3 then y else
    let ctx := (y.queue queue).ctx
    let r := y.vread none ctx (p.word 2 + 2 ^ 32 * p.word 3) 128
    let kind := match r.2 with | .ok bs => fld (wordAt bs 0) 0 2 | .error _ => 3
    if want kind = false then y else
    match y.takeIn queue with
    | (y, none) => y
    | (y, some p) =>
      if fld (p.word 0) 18 14 != 0 || p.word 1 != 0 || ((List.range 12).any fun i => p.word (4 + i) != 0) then y.packetComplete queue 0x10 0
      else match y.vread none ctx (p.word 2 + 2 ^ 32 * p.word 3) 128 with
        | (y, .error st) => y.packetComplete queue st 0
        | (y, .ok bs) =>
          let c : VCmd := { id := y.vision.next, queue := queue, ctx := ctx, job := p.job, desc := bs }
          if c.formOk = false ∨ (p.word 2 + 2 ^ 32 * p.word 3) % 64 ≠ 0 then y.packetComplete queue 0x10 0
          else match y.regionsOk c with
            | (y, false) => y.packetComplete queue 0x10 0
            | (y, true) =>
              if (y.pool 3 1).free = 0 then y
              else
                let y := (y.modPool 3 1 (Pool.take 1)).modVision fun v => { v with cmds := v.cmds ++ [c], next := v.next + 1 }
                (y.startHead queue (some c.id)).visionPreempt c.kind

/-- VISION_FLOW (R206): KIND FLOW, and descriptors that name no kind or cannot be read. -/
def execVisionFlow (queue : Nat) (s : State) : Res := onSys (Sys.visionPacket (fun k => k == 0 || k == 3) queue) s

/-- VISION_STEREO (R206). -/
def execVisionStereo (queue : Nat) (s : State) : Res := onSys (Sys.visionPacket (· == 1) queue) s

/-- VISION_FEATURE (R212). -/
def execVisionFeature (queue : Nat) (s : State) : Res := onSys (Sys.visionPacket (· == 2) queue) s

/-- VISION_COMMAND_START (R218, R221): the next command of an engine's kind starts or resumes on it when it is free and its permits are
granted; with no engine free, a lower-priority command is told to stop. -/
def execVisionCommandStart (engine : Nat) (s : State) : Res :=
  onSys (fun y =>
    let n := engine % 6
    let kind := if n < 4 then 0 else 2
    if y.domainUp 11 = false then (if (y.visionNext kind).isSome then y.heldFor else y)
    else if (y.onEngine n).isSome then y.visionPreempt kind
    else match y.visionNext kind with
      | none => y
      | some c =>
        let y := y.modVCmd c.id fun k => { k with st := 3, engine := n }
        let a := y.askNow { holds := [{ who := .vision n, cost := y.cost (if kind = 2 then 25 else 24), ctx := c.ctx }],
                            prio := y.basePrio c.ctx, act := .vision n c.id }
        if a.2 then a.1.visionRun c.id else a.1) s

/-- The stripes a command has in all (R215). -/
def VCmd.stripeCount (c : VCmd) : Nat := if c.kind = 2 then 1 else cdiv (cdiv c.height 4) c.srows

/-- The rows of a flow output's stripes from a to b written (R211, R215). -/
def Sys.writeStripes (c : VCmd) (f : Field) (a b : Nat) (y : Sys) : Sys × Except Nat Unit :=
  let rows := (List.range (min (b * c.srows) f.gh - a * c.srows)).map (a * c.srows + ·)
  y.seq rows fun gy y =>
    y.vwrite none c.ctx (c.out + 8 * (gy * f.gw)) ((List.range f.gw).flatMap fun gx => (f.at_ gx gy).bytes (c.kind == 1) c.width c.height gx gy) none

/-- The counters of the published run (R222). -/
def Sys.countFlow (f : Field) (y : Sys) : Sys :=
  let n := fun (p : Cell → Bool) => (f.cells.toList.filter p).length
  y.modVision fun v => { v with notex := satAdd v.notex (n (·.notex)), occl := satAdd v.occl (n (·.occl)), refined := satAdd v.refined (n (·.refined)) }

/-- An access of a running command failed: an uncorrectable read restarts it, anything else ends it. -/
def Sys.visionError (c : VCmd) (st : Nat) (y : Sys) : Sys := if st = 0x30 then y.visionRestart c else y.visionFail c st

/-- FLAG_STRIPE_ADVANCE (R204 to R216): the next stripe's output is written, STRIPES advances, waiters are released, with engine.same the newest
of them in the cycle in which it was queued; the last stripe completes the command. -/
def execFlagStripeAdvance (engine : StripeEnd) (s : State) : Res :=
  onSys (fun y =>
    match y.onEngine (engine.engine % 6) with
    | none => y
    | some c =>
      if c.st ≠ 1 ∨ (y.job c.job).st ≠ 2 then y else
      match y.readImg c 0 with
      | (y, .error st) => y.visionError c st
      | (y, .ok a) =>
        let from_ := if 0 < c.restarts then 0 else c.stripes
        let done := fun (y : Sys) =>
          let c' := { c with stripes := c.stripes + 1, row := 0, level := 0 }
          let y := (y.modVCmd c.id fun _ => c').writeFlag c' false
          let y := y.flagRelease c' none engine.same
          if c'.stripeCount ≤ c'.stripes then y.visionEnd c' 0x00 else y
        if c.kind = 2 then
          let m := a.level c.featLevel
          match y.vwrite none c.ctx c.out (c.featBytes m) none with
          | (y, .error st) => y.visionError c st
          | (y, .ok _) =>
            let r := c.features m
            let y := y.modVision fun v => { v with features := satAdd v.features r.1.length }
            let y := if c.maxFeat < r.2 then y.visionEvent 0 else y
            done y
        else match y.readImg c 1 with
          | (y, .error st) => y.visionError c st
          | (y, .ok b) =>
            let f := c.flow a b
            match y.writeStripes c f from_ (c.stripes + 1) with
            | (y, .error st) => y.visionError c st
            | (y, .ok _) => done (if c.stripeCount ≤ c.stripes + 1 then y.countFlow f else y)) s

/-- VISION_STOP (R217, R219): a command told to stop, or one whose job is suspended or held, stops at the end of its row with its progress; one
whose job is cancelled ends FAILED. -/
def execVisionStop (engine row level : Nat) (dir final : Bool) (s : State) : Res :=
  onSys (fun y =>
    match y.onEngine (engine % 6) with
    | none => y
    | some c =>
      let j := y.job c.job
      if j.st = 5 then y.visionFail c j.cancelWith
      else if c.st = 2 ∨ (c.st = 1 ∧ (j.st = 3 ∨ y.duo.hold = true)) then y.visionHalt c row level dir final
      else y) s

/-- VISION_CTRL.CLR_COUNTS. -/
def Sys.visionClear (same : Nat) (y : Sys) : Sys := y.modVision fun v => { v with notex := cleared same 0, occl := cleared same 1, refined := cleared same 2, features := cleared same 3, stops := cleared same 4 }

/-- VISION_CLR_COUNTS (R222). -/
def execVisionClrCounts (s : State) : Res :=
  onSys (Sys.visionClear 0) s

end Sys2Proof.Machine
end

