-- ==== Sys2Proof/Machine/Packets.lean ====
section
/-! DEFINITION. Doorbells, fetch and packets (R268, R295 to R299, R307, R334): what each packet type does at the head of its queue; grants of
semaphores (R306). -/

namespace Sys2Proof.Machine

/-! ### Doorbells (R334) -/

/-- Stall of a queue (R34: queue q lies on core q / 64). -/
def stallOfQueue (q : Nat) : Nat := q / 4096

/-- A doorbell takes effect. -/
def Sys.doorbell (q word : Nat) (y : Sys) : Sys :=
  let w := word % 2 ^ 16
  let k := y.queue q
  let drop := (y.modLink fun l => { l with dbDropped := satInc l.dbDropped }).linkEvent 6
  if y.glob.ready = false then drop
  else if k.isOpen = false ∨ y.enabled (stallOfQueue q) = false ∨ y.domOfStall (stallOfQueue q) = none then drop
  else if 2 ^ k.ringLog2 < (w + 2 ^ 16 - k.read) % 2 ^ 16 then (y.modLink fun l => { l with dbRange := satInc l.dbRange }).linkEvent 7
  else
    let y := if w = k.write then y else y.modQueue q fun k => { k with write := w, blocked := false }
    if y.glob.config = 1 ∧ y.duo.role = 1 ∧ w ≠ k.write then y.hsend (.harness "SCHED" [0, q, w] []) else y

/-- DOORBELL (R334): a host write of a queue's doorbell word. -/
def execDoorbell (queue word : Nat) (s : State) : Res :=
  onSys (fun y =>
    let q := queue % 2 ^ 18
    let y := y.stillWake
    y.mirrored (0x02000000 + 8 * q) word (Sys.doorbell q word)) s

/-! ### Fetch (R295, R332, R417) -/

/-- The share of a fetched packet in its job's packet sum (R417). -/
def Sys.countPacket (q : Nat) (p : Pkt) (bs : List Byte) (y : Sys) : Sys :=
  let b := y.job p.job
  if b.alive && b.ctx == (y.queue q).ctx then
    y.modBrand p.job fun r =>
      let n := tget 0 r.counts q
      { r with sum := (r.sum + leNat (Shake.shake256 32 (leBytes 4 q ++ leBytes 4 n ++ bs))) % 2 ^ 256, counts := tset r.counts q (n + 1) }
  else y

/-- A queue may fetch (R43, R48, R295, R315, R403). -/
def Sys.mayFetch (y : Sys) (q : Nat) : Bool :=
  let k := y.queue q
  y.glob.ready && k.isOpen && k.read != k.write && decide (k.slots.length < 2) && !k.blocked && decide (0 < (y.pool 3 0).free) &&
  !(y.ctx k.ctx).calm && !y.flt.dieCalm && !bitAt y.glob.heldDomains (y.ctx k.ctx).domain

/-- PACKET_FETCH (R295). -/
def execPacketFetch (queue : Nat) (s : State) : Res :=
  onSys (fun y =>
    if y.mayFetch queue then
      let k := y.queue queue
      match y.vread none k.ctx (k.ringBase + 64 * (k.read % 2 ^ k.ringLog2)) 64 with
      | (y, .error _) => y.modQueue queue fun k => { k with blocked := true }
      | (y, .ok bs) =>
        let p : Pkt := { words := (List.range 16).map (wordAt bs) }
        ((y.modPool 3 0 (Pool.take 1)).modQueue queue fun k => { k with slots := k.slots ++ [p], read := (k.read + 1) % 2 ^ 16 }).countPacket queue p bs
    else y) s

/-! ### Packets at the head of a queue (R296, R297) -/

/-- The head packet is of a type. -/
def Sys.headIs (y : Sys) (q : Nat) (want : Nat → Bool) : Bool :=
  match (y.queue q).slots with
  | p :: _ => want p.type
  | [] => false

/-- The reserved bits of a packet that is no TASK packet are 0; ws lists the words its type uses (R297). -/
def Pkt.reservedOk (p : Pkt) (ws : List Nat) : Bool :=
  fld (p.word 0) 18 14 == 0 && (List.range 15).all fun i => ws.contains (i + 1) || p.word (i + 1) == 0

/-- A packet of a wanted type at the head of a queue that may run. -/
def Sys.atHead (q : Nat) (want : Nat → Bool) (f : Pkt → Sys → Sys) (y : Sys) : Sys :=
  if y.headIs q want then
    match y.takeIn q with
    | (y, some p) => f p y
    | (y, none) => y
  else y

/-- NOP_PACKET (R296). -/
def execNopPacket (queue : Nat) (s : State) : Res :=
  onSys (Sys.atHead queue (· == 0) fun p y => y.packetComplete queue (if p.reservedOk [] then 0x00 else 0x10) 0) s

/-- RESERVED_PACKET (R296). -/
def execReservedPacket (queue : Nat) (s : State) : Res :=
  onSys (Sys.atHead queue (fun t => decide (7 ≤ t)) fun _ y => y.packetComplete queue 0x10 0) s

/-- The address a WRITE packet names. -/
def Pkt.addr (p : Pkt) : Nat := p.word 2 + 2 ^ 32 * p.word 3

/-- The value of a WRITE packet of a context still waits to leave for host memory or the other die: a packet with its bytes and its place in a page
does (R296, log entry 82). -/
def Sys.writeWaits (y : Sys) (ctx : Nat) (p : Pkt) : Bool :=
  let same := fun (c a : Nat) (bs : List Byte) => c == ctx && a % 4096 == p.addr % 4096 && bs == leBytes 4 (p.word 4)
  (y.link.m0.txq ++ y.link.m1.txq ++ y.duo.hm.txq).any fun o => match o with
    | .mwr _ c a bs => same c a bs
    | .harness "MWR" [c, a] bs => same c a bs
    | _ => false

/-- The started WRITE packet of a queue completes once its value is visible (R296). -/
def Sys.writeDone (queue : Nat) (y : Sys) : Sys :=
  match (y.queue queue).slots with
  | p :: _ => if p.type = 6 ∧ p.started = true ∧ y.writeWaits (y.queue queue).ctx p = false then y.packetComplete queue 0x00 0 else y
  | [] => y

/-- Packets have left a transmit queue: reads that waited behind them go, and WRITE packets whose values left complete. -/
def Sys.linkFlows (y : Sys) : Sys :=
  let y := y.pumpAll
  (y.bridle.queues.map (·.1)).foldl (fun y q => y.writeDone q) y

/-- WRITE_PACKET (R296, R297). -/
def execWritePacket (queue : Nat) (s : State) : Res :=
  onSys (Sys.atHead queue (· == 6) fun p y =>
    if p.reservedOk [2, 3, 4] = false ∨ p.addr % 4 ≠ 0 then y.packetComplete queue 0x10 0
    else match y.vwrite none (y.queue queue).ctx p.addr (leBytes 4 (p.word 4)) none with
      | (y, .error st) => y.packetComplete queue st 0
      | (y, .ok _) => (y.startHead queue none).writeDone queue) s

/-! ### TASK packets (R268, R298, R299) -/

/-- EXACT of a task group: its job's bit, forced in TANDEM and on the band queues (R225, R391, R413). -/
def Sys.exactFor (y : Sys) (q j : Nat) : Bool :=
  (y.job j).exact || y.glob.config == 2 || (y.fg.en && (q == y.fg.genQ || q == y.fg.warpQ))

/-- A task group on a band queue that goes on a chain begun by a beam fire belongs to it (R225). -/
def Sys.chainOf (y : Sys) (g : Tg) : Option (Nat × Nat) :=
  if g.st = .beamWait then none else y.fg.openOn g.queue

/-- The chain a task group ends takes no further one (R225). -/
def Sys.closeChain (g : Tg) (y : Sys) : Sys :=
  match g.chain with
  | some (_, k) => if g.bandEnd then y.modFg (Fg.close k) else y
  | none => y

/-- The chain's cancel goes on with the job of its next task group (R226, R230). -/
def Sys.cancelNext (g : Tg) (y : Sys) : Sys :=
  match g.chain with
  | some (b, k) => y.modBand b fun n => if k = 0 then { n with gen := .cancelling, genJob := g.job } else { n with warp := .cancelling, warpJob := g.job }
  | none => y

/-- A chain's later task groups may name another job: a cancel goes to the one that runs (R230). -/
def Sys.chainJob (g : Tg) (y : Sys) : Sys :=
  match g.chain with
  | some (b, k) => y.modBand b fun n => if k = 0 then { n with genJob := g.job } else { n with warpJob := g.job }
  | none => y

/-- A task group comes to a chain that the board has cancelled: it is cancelled as well (R230). -/
def Sys.cutHere (g : Tg) (y : Sys) : Bool :=
  match g.chain with
  | some (_, k) => if k = 0 then y.fg.cutGen else y.fg.cutWarp
  | none => false

/-- The task group of an admitted TASK packet becomes READY, or waits for a beam fire or a flag line (R216, R268, R298, R299). -/
def Sys.startTask (q : Nat) (p : Pkt) (y : Sys) : Sys :=
  let ctx := (y.queue q).ctx
  let beamWait := bitAt (p.word 0) 18
  if taskForm p.words = false ∨ (beamWait = true ∧ (y.ctx ctx).realtime = false) then y.packetComplete q 0x10 (p.word 4)
  else
    let (k, y) := y.seqNo
    let g := taskOf q ctx p.job (y.exactFor q p.job) k p.words
    let flagWait := bitAt (p.word 0) 27
    let g := { g with st := if beamWait then .beamWait else if flagWait then .flagWait else .ready, stripes := if flagWait then g.stripes else 0,
                      slivers := if g.kernel = 0 then g.slivers else 1 }
    let g := { g with chain := y.chainOf g }
    if y.cutHere g then (y.cancelNext g).beginCancel g.job 0x01 else
    let t := y.bridle.nextTg
    let y := (((y.chainJob g).closeChain g).addTg g).startHead q (some t)
    if g.st ≠ .ready then y else if g.kernel ≠ 0 then y.kernelStart t else y.tgBreeze t

/-- The kernel number a TASK packet at the head of a queue names, and the OP of its parameter block for KLIST; 7 for an OP the table does not
name or a block that cannot be read. -/
def Sys.headKernel (y : Sys) (q : Nat) : Option (Nat × Nat) :=
  match (y.queue q).slots with
  | p :: _ =>
    if p.type ≠ 1 then none
    else
      let k := fld (p.word 1) 0 8
      let op := if k ≠ 4 then 0 else match (y.vread none (y.queue q).ctx (p.word 5 + 2 ^ 32 * p.word 6) 4).2 with
        | .ok bs => if fld (wordAt bs 0) 0 3 ≤ 4 then fld (wordAt bs 0) 0 3 else 7
        | .error _ => 7
      some (k, op)
  | [] => none

/-- A TASK packet whose kernel and OP are wanted starts; when a built-in kernel it started is in progress, one of its slivers ends. -/
def Sys.taskPacket (q : Nat) (want : Nat × Nat → Bool) (y : Sys) : Sys :=
  match y.headKernel q with
  | none => y
  | some k => if !want k then y
    else if ((y.queue q).slots.head?.map (·.started)).getD false then y.kernelStep q
    else y.atHead q (· == 1) (Sys.startTask q)

/-- TASK_PACKET (R298, R299): KERNEL=0, and the numbers that name no kernel. -/
def execTaskPacket (queue : Nat) (s : State) : Res := onSys (Sys.taskPacket queue fun k => k.1 == 0 || decide (5 ≤ k.1)) s
/-- ATTN (R160). -/
def execAttn (queue : Nat) (s : State) : Res := onSys (Sys.taskPacket queue fun k => k.1 == 1) s
/-- ATTN_BWD (R178). -/
def execAttnBwd (queue : Nat) (s : State) : Res := onSys (Sys.taskPacket queue fun k => k.1 == 2) s
/-- KAPPEND (R171). -/
def execKappend (queue : Nat) (s : State) : Res := onSys (Sys.taskPacket queue fun k => k.1 == 3) s
/-- KLIST_EVICT (R174), and parameter blocks whose OP cannot be told. -/
def execKlistEvict (queue : Nat) (s : State) : Res := onSys (Sys.taskPacket queue fun k => k.1 == 4 && (k.2 == 0 || k.2 == 7)) s
/-- KLIST_PIN (R173). -/
def execKlistPin (queue : Nat) (s : State) : Res := onSys (Sys.taskPacket queue fun k => k.1 == 4 && k.2 == 1) s
/-- KLIST_UNPIN (R173). -/
def execKlistUnpin (queue : Nat) (s : State) : Res := onSys (Sys.taskPacket queue fun k => k.1 == 4 && k.2 == 2) s
/-- KLIST_SPILL (R175). -/
def execKlistSpill (queue : Nat) (s : State) : Res := onSys (Sys.taskPacket queue fun k => k.1 == 4 && k.2 == 3) s
/-- KLIST_COMMIT (R176). -/
def execKlistCommit (queue : Nat) (s : State) : Res := onSys (Sys.taskPacket queue fun k => k.1 == 4 && k.2 == 4) s

/-! ### Sources (R233) -/

/-- A slot latched by a frame in flight (R233). -/
def Sys.slotInUse (y : Sys) (k : Nat) : Bool := y.fg.latches.any fun l => l.src == k || l.prev == some k

/-- SOURCE_PACKET (R233, R297): the command waits to register. -/
def execSourcePacket (queue : Nat) (s : State) : Res :=
  onSys (Sys.atHead queue (· == 4) fun p y =>
    if p.reservedOk [1, 2, 3] = false ∨ fld (p.word 1) 2 30 ≠ 0 then y.packetComplete queue 0x10 0
    else y.startHead queue none) s

/-- SOURCE_REGISTER (R233): the waiting SOURCE command of a queue makes its slot READY once no frame in flight uses it. -/
def execSourceRegister (queue : Nat) (s : State) : Res :=
  onSys (fun y =>
    match (y.queue queue).slots with
    | [] => y
    | p :: _ =>
      let k := fld (p.word 1) 0 2
      if p.type ≠ 4 ∨ p.started = false ∨ y.slotInUse k = true then y
      else match y.vread none (y.queue queue).ctx (p.word 2 + 2 ^ 32 * p.word 3) 8 with
        | (y, .error st) => y.packetComplete queue st 0
        | (y, .ok bs) =>
          let y := y.modFg fun f =>
            { f with slots := tset f.slots k { ready := true, reg := f.nextReg, desc := p.word 2 + 2 ^ 32 * p.word 3, app := wordAt bs 1 },
                     nextReg := f.nextReg + 1 }
          y.packetComplete queue 0x00 0) s

/-! ### Semaphore packets and grants (R306, R307) -/

/-- The queue whose SEM packet a granted request of a job belongs to: the earliest started. -/
def Sys.semPacketOf (y : Sys) (n j : Nat) : Option Nat :=
  let qs := y.bridle.queues.filterMap fun q => match q.2.slots with
    | p :: _ => if p.type = 5 ∧ p.started = true ∧ p.job = j ∧ fld (p.word 1) 0 12 = n ∧ bitAt (p.word 1) 13 = false then some (q.1, p.work.getD 0) else none
    | [] => none
  (minBy (·.2) qs).map (·.1)

/-- A saved sliver's wait for a semaphore is over: it goes on past its SEMACQ when it is restored (R283). -/
def Save.granted (v : Save) (t n : Nat) : Save :=
  if v.run.tg = t ∧ v.run.sliver = n then
    match v.run.wait with
    | .sem _ => { v with run := { v.run with wait := .none, pc := (v.run.pc + 4) % 2 ^ 32 } }
    | _ => v
  else v

/-- A sliver got its tokens: its core goes on, or its save becomes READY (R283, R306). -/
def Sys.semWake (t n : Nat) (y : Sys) : Sys :=
  match y.cores.find? (fun c => match c.2.run with | some r => r.tg == t && r.sliver == n | none => false) with
  | some c => (y.resumeWait c.1 id).boundary c.1
  | none =>
    let y := y.modStalls fun ss => tmap ss fun _ s => { s with saves := s.saves.map fun v => v.granted t n }
    y.modBridle fun b => { b with areas := tmap b.areas fun _ l => l.map fun v => v.granted t n }

/-- SEM_GRANT (R306): the oldest request of a semaphore is granted, when a sliver or a job made it and enough tokens are free. -/
def execSemGrant (sem : Nat) (s : State) : Res :=
  onSys (fun y =>
    match (y.sem sem).waits with
    | ⟨.group _, _⟩ :: _ => y
    | _ => match y.semGrant sem with
      | (y, some (.sliver t n)) => (y.semWake t n).limitZero sem
      | (y, some (.job j)) => match y.semPacketOf sem j with
        | some q => (y.packetComplete q 0x00 0).limitZero sem
        | none => y
      | (y, _) => y) s

/-- SEM_ACQUIRE_PACKET (R306, R307). -/
def execSemAcquirePacket (queue : Nat) (s : State) : Res :=
  onSys (fun y =>
    if (match (y.queue queue).slots with | p :: _ => bitAt (p.word 1) 13 | [] => true) then y else
    y.atHead queue (· == 5) fun p y =>
      let n := fld (p.word 1) 0 12
      if p.reservedOk [1] = false ∨ fld (p.word 1) 14 18 ≠ 0 ∨ (y.sem n).total = 0 then y.packetComplete queue 0x10 0
      else
        let (k, y) := y.seqNo
        let y := (y.startHead queue (some k)).semRequest n { who := .job p.job, all := bitAt (p.word 1) 12 }
        if (y.sem n).waits.length = 1 then
          match y.semGrant n with
          | (y, some _) => y.packetComplete queue 0x00 0
          | (y, none) => y.limitZero n
        else y.limitZero n) s

/-- SEM_RELEASE_PACKET (R307). -/
def execSemReleasePacket (queue : Nat) (s : State) : Res :=
  onSys (fun y =>
    if (match (y.queue queue).slots with | p :: _ => !bitAt (p.word 1) 13 | [] => true) then y else
    y.atHead queue (· == 5) fun p y =>
      if p.reservedOk [1] = false ∨ fld (p.word 1) 14 18 ≠ 0 then y.packetComplete queue 0x10 0
      else match y.semRelease (fld (p.word 1) 0 12) (.job p.job) with
        | (y, true) => y.packetComplete queue 0x00 0
        | (y, false) => y.packetComplete queue 0x10 0) s

end Sys2Proof.Machine
end

