-- ==== Sys2Proof/Machine/Timing.lean ====
section
/-! DEFINITION. Display pipes as the beam sees them: the DISPLAY fields (R244, R245), Calm (R258 to R261), frame starts (R247, R254, R255),
the beam's source (R55, R57). -/

namespace Sys2Proof.Machine

def Sys.pipe (y : Sys) (n : Nat) : Pipe := if n = 0 then y.pipe0 else y.pipe1
def Sys.modPipe (n : Nat) (f : Pipe → Pipe) (y : Sys) : Sys := if n = 0 then y.modPipe0 f else y.modPipe1 f

/-! ### DISPLAY fields (R244) -/

def Pipe.w (p : Pipe) (n : Nat) : Nat := p.words.getD n 0
def Pipe.present (p : Pipe) : Bool := bitAt (p.w 0) 0
def Pipe.bpc (p : Pipe) : Nat := 6 + 2 * fld (p.w 0) 7 2
def Pipe.fmt (p : Pipe) : Nat := fld (p.w 0) 9 2
def Pipe.dsc (p : Pipe) : Bool := bitAt (p.w 0) 11
def Pipe.vrr (p : Pipe) : Bool := bitAt (p.w 0) 12
def Pipe.pr (p : Pipe) : Bool := bitAt (p.w 0) 13
def Pipe.calmSrc (p : Pipe) : Nat := fld (p.w 0) 14 2
def Pipe.rateCode (p : Pipe) : Nat := fld (p.w 0) 3 4
def Pipe.hactive (p : Pipe) : Nat := fld (p.w 1) 0 13
def Pipe.htotal (p : Pipe) : Nat := fld (p.w 1) 16 13
def Pipe.vactive (p : Pipe) : Nat := fld (p.w 3) 0 13
def Pipe.vtotal (p : Pipe) : Nat := fld (p.w 3) 16 13
def Pipe.slices (p : Pipe) : Nat := 4 * 2 ^ fld (p.w 6) 10 2
/-- FETCH_AHEAD. -/
def Pipe.ahead (p : Pipe) : Nat := fld (p.w 7) 0 8
/-- Forward error correction: DSC over the 8b/10b rates of pipe 1 (R242). -/
def Pipe.fec (p : Pipe) (n : Nat) : Bool := p.dsc && n == 1 && decide (p.rateCode ≤ 7)
def Pipe.sliceH (p : Pipe) : Nat := fld (p.w 6) 12 13
def Pipe.holdAddr (p : Pipe) : Nat := p.w 8 + 2 ^ 32 * p.w 9
/-- Bytes of a source pixel (R249). -/
def Pipe.pxBytes (p : Pipe) : Nat := if p.fmt = 2 then 8 else 4
/-- LB: bytes of a line, a multiple of 64 (R246). -/
def Pipe.lb (p : Pipe) : Nat := cdiv (p.hactive * p.pxBytes) 64 * 64

/-- Pipe event k (R265). -/
def Sys.pipeEvent (n k : Nat) (y : Sys) : Sys :=
  (y.modPipe n fun p => { p with events := setBit p.events k }).raiseIf (y.pipe n).irq k

/-- Its timing generator runs (R55). -/
def Pipe.runs (p : Pipe) : Bool := p.st == .active || (p.st == .still && p.suRun.isSome)

/-! ### What goes out with a frame (R242, R251, R253, R254, R259, R265) -/

/-- The settings of the slice encoders (R251): BPC, bits per pixel in 1/16, slice width and height, block prediction enabled, line buffer depth
BPC + 1; the rate control set is the one DSC 1.2a recommends for the first two. -/
def Pipe.dscSettings (p : Pipe) : List Nat := [p.bpc, fld (p.w 6) 0 10, p.hactive / p.slices, p.sliceH, 1, p.bpc + 1]

/-- The PPS SDP: before the first compressed frame and after every training of the link (R251). -/
def Sys.sendPps (n : Nat) (y : Sys) : Sys := if (y.pipe n).dsc then y.emit (.sdp n .pps (Config.dscPps (y.pipe n).dscSettings)) else y

/-- What a frame sends beside its pixels: the VSC SDP, HDR metadata when latched, with VRR=1 the Adaptive-Sync SDP and the timing-ignore bit. -/
def Sys.frameSdps (n : Nat) (y : Sys) : Sys :=
  let p := y.pipe n
  let y := y.emit (.msa n p.vrr (bitAt (p.w 0) 17) (bitAt (p.w 0) 18) [p.w 1, p.w 2, p.w 3, p.w 4])
  let y := y.emit (.sdp n .vsc [fld (p.w 0) 16 1])
  let y := if p.hdrNow then y.emit (.sdp n .hdr p.hdr) else y
  if p.vrr then y.emit (.sdp n .adaptiveSync []) else y

/-- Panel Replay is to be active: in Still, and in Calm under CALM_SRC=PANEL until black frames are sent. -/
def Pipe.replays (p : Pipe) : Bool := p.st == .still || (p.st == .active && p.calm && p.calmSrc == 0 && !p.black)

/-- The pipe signals Panel Replay when it becomes active or is left. -/
def Sys.signalReplay (n : Nat) (y : Sys) : Sys :=
  let r := (y.pipe n).replays
  if (y.pipe n).replay = r then y else (y.modPipe n fun p => { p with replay := r }).emit (.panelReplay n r)

/-! ### Calm (R258, R259, R261) -/

/-- A cause is recorded; the first one takes the pipe into Calm: the timer starts, the hold frame being written is discarded. -/
def Sys.calmCause (n k : Nat) (y : Sys) : Sys :=
  if (y.pipe n).calm then y.modPipe n fun p => { p with cause := setBit p.cause k }
  else ((y.modPipe n fun p =>
    { p with cause := setBit p.cause k, calm := true, timer := true, expired := false, black := false, holdLines := 0 }).pipeEvent n 1).signalReplay n

/-- A cause clears; the pipe leaves Calm at its next frame start once none is left (R261). -/
def Sys.calmClear (n k : Nat) (y : Sys) : Sys := y.modPipe n fun p => { p with cause := clrBit p.cause k }

/-- The pipe is fed by a domain: the master pipe by the band board, or its plain frame lies in the domain (R258). -/
def Sys.fedBy (y : Sys) (n d : Nat) : Bool := y.beam.master == n || y.mem.inDom d (y.pipe n).fbAddr 1

/-! ### The beam's source (R55, R57) -/

/-- The beam moves to a source; SOURCE_CHANGE (R57, R69). -/
def Sys.setSource (n : Nat) (y : Sys) : Sys :=
  if y.beam.source = n then y else (y.modBeam fun b => { b with source := n }).beamEvent 0

/-- A pipe's timing has stopped: the ghost beam goes on from its position (R57). -/
def Sys.timingStopped (n : Nat) (y : Sys) : Sys :=
  let y := if y.beam.moveTo = some n then y.modBeam fun b => { b with moveTo := none } else y
  if y.beam.source = n then y.setSource 2 else y

/-! ### Frame starts of a pipe (R247, R254, R255, R259, R261) -/

/-- The pipe is no longer in Calm: the timer clears, write-back restarts with HOLD_VALID=0 (R261). -/
def Pipe.leaveCalm (p : Pipe) : Pipe := { p with calm := false, timer := false, expired := false, black := false, holdValid := false, holdLines := 0 }

/-- A pipe in Still has no frame starts of its own: with no cause left it leaves Calm at the beam's (R261). -/
def Sys.stillCalm (n : Nat) (y : Sys) : Sys :=
  let p := y.pipe n
  if p.st == .still && p.suRun.isNone && p.calm && p.cause == 0 then y.modPipe n Pipe.leaveCalm else y

/-- The frame's latches: the address and pitch when no line of it has been fetched yet, or when its first lines came from bands that a write of EN=0 has
stopped since (R241); HDR, and leaving or counting Calm. -/
def Pipe.startFrame (bandNow : Bool) (p : Pipe) : Pipe :=
  let p := if p.line0 && (!p.bandMode || bandNow) then p else { p with fbNow := p.fbAddr, pitchNow := p.fbPitch, bandMode := bandNow }
  let p := { p with lastPx := if p.line0 then p.lastPx else none, dscRows := if p.line0 then p.dscRows else [] }
  let p := { p with line0 := false, hdrNow := p.hdrSend }
  if p.calm && p.cause == 0 then p.leaveCalm
  else if p.calm then { p with calmFrames := satInc p.calmFrames, black := p.black || p.expired }
  else p

/-- The band board feeds a pipe's next frame (R241, R247). -/
def Sys.bandNow (y : Sys) (n : Nat) : Bool := y.beam.master == n && y.fg.en && !y.fg.stopping

/-- The hold frame of a frame none of whose lines has been fetched: BEAM_FRAME mod 2 (R260). -/
def Sys.holdTurn (n : Nat) (y : Sys) : Sys :=
  y.modPipe n fun p => if p.line0 then p else { p with holdNow := y.beam.frame % 2 }

/-- A pipe's frame starts while its timing runs: it enters Still when that was asked for, or ends a selective update (R254, R255). -/
def Sys.frameOf (n : Nat) (y : Sys) : Sys :=
  let p := y.pipe n
  let b := y.bandNow n
  if p.st = .still then (y.modPipe n fun p => { p with suRun := none }).timingStopped n
  else if p.stillReq && !p.calm then
    ((y.modPipe n fun p => { p with st := .still, stillReq := false, line0 := false, waiting := [] }).signalReplay n).timingStopped n
  else (((y.holdTurn n).modPipe n fun p => { p.startFrame b with stillReq := false }).signalReplay n).frameSdps n

/-- A stopped pipe's timing starts with its first frame: after training, on STILL_EXIT, or for a selective update (R254 to R256). -/
def Sys.firstFrame (n : Nat) (y : Sys) : Sys :=
  let p := y.pipe n
  let b := y.bandNow n
  let y := y.holdTurn n
  if p.st = .training && p.trained then
    (((y.sendPps n).modPipe n fun p => { p.startFrame b with st := .active }).signalReplay n).frameSdps n
  else if p.st = .still && p.exitReq then
    ((y.modPipe n fun p => { p.startFrame b with st := .active, exitReq := false, su := none }).signalReplay n).frameSdps n
  else if p.st = .still then match p.su with
    | some r =>
      (y.modPipe n fun p =>
        { p with su := none, suRun := some r, fbNow := p.fbAddr, pitchNow := p.fbPitch, bandMode := false, hdrNow := p.hdrSend, lastPx := none, dscRows := [],
                 line0 := false }).frameSdps n
    | none => y
  else y

/-- A pipe waits to start its timing. -/
def Pipe.waits (p : Pipe) : Bool :=
  (p.st == .training && p.trained) || (p.st == .still && p.suRun.isNone && (p.exitReq || (p.su.isSome && !p.calm)))

end Sys2Proof.Machine
end

