-- ==== Sys2Proof/Machine/FrameGen.lean ====
section
/-! DEFINITION. The band board (R223 to R241): bands and commit points, sources, tickets, GEN and WARP fires, commits, enable and disable. -/

namespace Sys2Proof.Machine

/-! ### Geometry (R223) -/

/-- VACTIVE and VTOTAL of the beam in force. -/
def Sys.vact (y : Sys) : Nat := if y.beam.source = 2 then y.beam.ghostVactive else (y.pipe y.beam.source).vactive
def Sys.vtot (y : Sys) : Nat := if y.beam.source = 2 then y.beam.ghostVtotal else (y.pipe y.beam.source).vtotal

/-- VACTIVE for the bands: the master pipe's, GHOST_VACTIVE on the ghost beam. -/
def Sys.bandCount (y : Sys) : Nat := cdiv y.vact y.beam.band

/-- The line of band b's commit point, and whether it lies in the frame before. -/
def Sys.commitLine (y : Sys) (b : Nat) : Nat × Bool :=
  let l := b * y.beam.band
  if y.beam.lead ≤ l then (l - y.beam.lead, false) else (y.vtot + l - y.beam.lead, true)

/-- The frame whose commit point for band b is the earliest not yet passed (R226); frames count modulo 2^32 (R69). -/
def Sys.nextCommit (y : Sys) (b : Nat) : Nat :=
  let c := y.commitLine b
  (y.beam.frame + (if c.2 then 1 else 0) + (if c.1 ≤ y.beam.line then 1 else 0)) % 2 ^ 32

/-- Latched sources are kept until the commit point of band NB - 1 of their frame has passed, whether or not the board runs (R233). -/
def Sys.dropLatches (y : Sys) : Sys :=
  if y.fg.latches.isEmpty then y else
  let n := y.nextCommit (y.bandCount - 1)
  y.modFg fun g => { g with latches := g.latches.filter fun l => decide ((l.frame + 2 ^ 32 - n) % 2 ^ 32 < 2 ^ 31) }

/-! ### Cancels by the board (R226, R230, R303) -/

/-- The board cancels the chain of a band: the job of the task group it has come to is cancelled, and while the chain is still open those of its
further task groups as they come (R230, R303). -/
def Sys.cancelChain (b k : Nat) (y : Sys) : Sys :=
  let j := if k = 0 then (y.band b).genJob else (y.band b).warpJob
  let st : ChSt := if (y.job j).alive then .cancelling else .idle
  let y := y.modBand b fun n => if k = 0 then { n with gen := st } else { n with warp := st }
  let y := y.modFg fun g =>
    if k = 0 then { g with cutGen := g.cutGen || g.openGen == some b } else { g with cutWarp := g.cutWarp || g.openWarp == some b }
  y.beginCancel j 0x01

/-- The running chains of a band are cancelled. -/
def Sys.cancelBand (y : Sys) (b : Nat) : Sys :=
  let y := if (y.band b).gen = .running then y.cancelChain b 0 else y
  if (y.band b).warp = .running then y.cancelChain b 1 else y

/-- Every running chain is cancelled. -/
def Sys.cancelBands (y : Sys) : Sys := (y.fg.bands.map (·.1)).foldl Sys.cancelBand y

/-- A chain that is being cancelled stays so; any other state of an earlier frame is over. -/
def ChSt.after (c : ChSt) : ChSt := if c = .cancelling then .cancelling else .idle

/-- Every band never shown, its states at the next commit; chains still running are cancelled, and a cancel goes on (R224, R230, R241). -/
def Sys.bandsReset (y : Sys) : Sys :=
  let y := y.cancelBands
  let fresh : Tab Band := (List.range (min 256 y.bandCount)).map fun b =>
    let o := y.band b
    (b, ({ frame := y.nextCommit b, gen := o.gen.after, warp := o.warp.after, genJob := o.genJob, warpJob := o.warpJob } : Band))
  y.modFg fun g => { g with bands := fresh, held := [], cur1 := 0, cur2 := 0, cur3 := 0 }

/-- Band board event k (R241). -/
def Sys.fgEvent (k : Nat) (y : Sys) : Sys :=
  let y' := y.modFg fun g => { g with events := setBit g.events k }
  if bitAt y.fg.mask k then y'.raise 0 y.fg.vector else y'

/-- The board stops: its running chains are cancelled, held fires are gone, and the master pipe fetches plain lines from here (R224, R241, R247). -/
def Sys.fgStop (y : Sys) : Sys :=
  let y := y.cancelBands.modFg fun g => { g with en := false, stopping := false, held := [] }
  (y.modPipe 0 fun p => { p with bandMode := false }).modPipe 1 fun p => { p with bandMode := false }

/-- EN clears under R224; the chains that run are cancelled at once (log entry 68). -/
def Sys.fgDisable (y : Sys) : Sys := y.fgStop.fgEvent 4

/-! ### Conditions of R224 -/

/-- The conditions on configuration: NB, the compositor context, its queues. -/
def Sys.fgConfigOk (y : Sys) : Bool :=
  match y.compositor with
  | none => false
  | some c =>
    let k := y.ctx c
    let mine := fun q => (y.queue q).isOpen && (y.queue q).ctx == c
    decide (y.bandCount ≤ 256) && k.realtime && k.prio == 0 && (y.dom k.domain).topPrio == 0 &&
    y.fg.genQ != y.fg.warpQ && mine y.fg.genQ && mine y.fg.warpQ

/-- Every page of the board's regions translates to memory of the domain. -/
def Sys.fgRegionsOk (c : Nat) (y : Sys) : Sys × Bool :=
  let nb := y.bandCount
  [(y.fg.ticket, 128 * nb), (y.fg.outAddr, 2 * nb * y.fg.slotBytes), (y.fg.inter, 2 * nb * y.fg.interBytes), (y.fg.pose, 1024)].foldl
    (fun st r => match st with
      | (y, false) => (y, false)
      | (y, true) => y.regionOk c r.1 r.2 true) (y, true)

/-- The board is idle (R241). -/
def Sys.fgIdle (y : Sys) : Bool :=
  !y.fg.en && y.fg.bands.all fun b => b.2.gen != .running && b.2.gen != .cancelling && b.2.warp != .running && b.2.warp != .cancelling

/-- After an accepted amendment: the board stops when it breaks a condition on configuration or on a region (R224). -/
def Sys.fgRecheck (y : Sys) : Sys :=
  if y.fg.en = false then y
  else if y.fgConfigOk = false then y.fgDisable
  else match y.fgRegionsOk (y.compositor.getD 0) with
    | (y, true) => y
    | (y, false) => y.fgDisable

/-! ### Sources (R233) -/

/-- READY slots, newest registration first. -/
def Sys.readySlots (y : Sys) : List Nat :=
  let l := y.fg.slots.filter fun s => s.2.ready
  (l.mergeSort fun a b => decide (b.2.reg ≤ a.2.reg)).map (·.1)

/-- The latch of a frame. -/
def Sys.latchOf (y : Sys) (n : Nat) : Option Latched := y.fg.latches.find? fun l => l.frame == n

/-- The sources of frame n latched at its first fire. -/
def Sys.latchSources (n : Nat) (y : Sys) : Sys :=
  if (y.latchOf n).isSome then y else
  match y.readySlots with
  | [] => y
  | s :: rest =>
    let slot := tget {} y.fg.slots s
    let first := slot.first.getD n
    let l : Latched := { frame := n, src := s, prev := rest.head?, age := min 255 ((n + 2 ^ 32 - first) % 2 ^ 32) }
    y.modFg fun g => { g with latches := g.latches ++ [l], slots := tset g.slots s { slot with first := some first } }

/-! ### Tickets (R236, R237) -/

def Sys.slotAddr2 (y : Sys) (b s : Nat) : Nat := y.fg.outAddr + (2 * b + s) * y.fg.slotBytes
def Sys.interAddr (y : Sys) (b p : Nat) : Nat := y.fg.inter + (2 * b + p) * y.fg.interBytes

/-- The phase of frame n as the schedule stands (R62). -/
def Sys.phaseOf (y : Sys) (n : Nat) : Nat :=
  let k := (n + 2 ^ 32 - y.beam.frame) % 2 ^ 32
  let k := if 0 < k ∧ y.beam.slip = true then k - 1 else k
  (y.beam.phase + k) % max 1 y.beam.period

/-- Words 0 to 15 as a GEN fire writes them; what a WARP fire still has to fill, and the PREV fields without PREV, are free. -/
def Sys.ticketGen (y : Sys) (b n : Nat) (l : Latched) : List Nat :=
  let nb := y.band b
  let p := n % 2
  let tag := if p = 0 then nb.tag1 else nb.tag0
  let hist := tag == some ((n + 2 ^ 32 - 1) % 2 ^ 32)
  let src := tget {} y.fg.slots l.src
  let prev := l.prev.map fun k => (k, tget {} y.fg.slots k)
  let free := fun (i : Nat) => (Config.freeWord (y.chance + i)).toNat
  let pd := match prev with | some q => q.2.desc | none => free 0 + 2 ^ 32 * free 1
  let line0 := b * y.beam.band
  let lines := min y.beam.band (y.vact - line0)
  let inter := y.interAddr b p
  let history := y.interAddr b (1 - p)
  [put b 0 8 + put (y.phaseOf n) 8 3 + putb hist 12 + putb prev.isSome 13 + put (free 2) 15 1 + put p 16 1 + put l.age 17 8,
   n % 2 ^ 32, put l.src 0 2 + put (match prev with | some q => q.1 | none => free 3) 2 2, src.app, put line0 0 13 + put lines 13 13, free 4,
   src.desc % 2 ^ 32, src.desc / 2 ^ 32, pd % 2 ^ 32, pd / 2 ^ 32 % 2 ^ 32, free 5, free 6, inter % 2 ^ 32, inter / 2 ^ 32, history % 2 ^ 32, history / 2 ^ 32]

/-- Bytes written to a device page go to the worker's memory as well, as a forwarded DEVMEM write (R240, R391). -/
def Sys.mirrorBytes (c a : Nat) (bs : List Byte) (y : Sys) : Sys :=
  match (y.translate none c a bs.length true).2 with
  | .ok x => if x.host then y else y.hpost (.harness "MIRROR" [x.pa + (a - x.va), 2 ^ bs.length - 1] bs)
  | .error _ => y

/-- A ticket's bytes written at a word of band b's ticket; in TANDEM the other die gets the same bytes (R240). A fault disables the board (R224). -/
def Sys.writeTicket (b word : Nat) (ws : List Nat) (y : Sys) : Sys × Bool :=
  let a := y.fg.ticket + 128 * b + 4 * word
  match y.vwrite none (y.compositor.getD 0) a (wordsBytes ws) none with
  | (y, .error _) => (y.fgDisable, false)
  | (y, .ok _) => (if y.glob.config = 2 ∧ y.duo.alone = false then y.mirrorBytes (y.compositor.getD 0) a (wordsBytes ws) else y, true)

/-! ### Pose (R235) -/

/-- Sample a is newer than sample b. -/
def seqNewer (a b : Nat) : Bool := decide (1 ≤ (a + 2 ^ 32 - b) % 2 ^ 32 ∧ (a + 2 ^ 32 - b) % 2 ^ 32 < 2 ^ 31)

/-- The sixteen packets of the ring. -/
def Sys.readPoses (y : Sys) : Sys × Except Nat (List (List Byte)) :=
  (List.range 16).foldl (fun st i => match st with
    | (y, .error e) => (y, .error e)
    | (y, .ok l) => match y.vread none (y.compositor.getD 0) (y.fg.pose + 64 * i) 64 with
      | (y, .error e) => (y, .error e)
      | (y, .ok bs) => (y, .ok (l ++ [bs]))) (y, .ok [])

/-- The packet the board latches: valid and newer than every other valid packet; among packets no one of which is newest, a free choice. -/
def newestPose (seed : Nat) (ps : List (List Byte)) : Option (List Byte) :=
  let v := ps.filter fun p => wordAt p 0 == wordAt p 15 && wordAt p 0 != 0
  match v.find? fun p => v.all fun q => wordAt q 0 == wordAt p 0 || seqNewer (wordAt p 0) (wordAt q 0) with
  | some p => some p
  | none => if v.isEmpty then none else v[Config.freeNat seed % v.length]?

/-! ### Releases and cancels (R64, R225, R226, R230) -/

/-- The task group of a queue that waits for a beam fire, oldest first. -/
def Sys.beamWaiter (y : Sys) (q : Nat) : Option Nat :=
  (minBy (fun t => t.2.seq) (y.bridle.tgs.filter fun t => t.2.queue == q && t.2.st == .beamWait)).map (·.1)

/-- A fire releases a task group with its argument (R64), which makes it READY now (R272); it may still wait on a flag line (R216). -/
def Sys.beamRelease (t arg : Nat) (chain : Option (Nat × Nat)) (y : Sys) : Sys :=
  let (k, y) := y.seqNo
  let y := y.modTg t fun g => { g with arg := arg, chain := chain, seq := k, st := .flagWait }
  match (y.tg t).flagEnd with
  | some failed => y.flagGo t failed
  | none => if (y.tg t).stripes = 0 then y.tgGo t else y

/-- A fire that releases nothing pending (R64). -/
def Sys.fireMiss (y : Sys) : Sys := (y.modBeam fun b => { b with misses := satInc b.misses }).beamEvent 2

/-- The manager of a formed Duo; while the Harness retrains, what it sends waits (R384). -/
def Sys.beamLeads (y : Sys) : Bool := y.glob.config != 0 && y.duo.role == 2 && !y.duo.alone && (y.duo.st == 3 || y.duo.st == 4)

/-- A chain is released on a task group, which runs with EXACT=1 (R225); in TANDEM the worker runs it as well, on the ticket it has been sent (R240, R390). -/
def Sys.releaseChain (t b k : Nat) (y : Sys) : Sys :=
  let j := (y.tg t).job
  let last := (y.tg t).bandEnd
  let y := y.modBand b fun n =>
    let n := { n with digest := 0 }
    if k = 0 then { n with gen := .running, genJob := j } else { n with warp := .running, warpJob := j }
  let y := y.modFg fun g =>
    let o := if last then none else some b
    if k = 0 then { g with openGen := o, cutGen := false } else { g with openWarp := o, cutWarp := false }
  let y := y.modTg t fun g => { g with exact := true }
  let q := (y.tg t).queue
  let y := if y.beamLeads && y.glob.config == 2 then y.hsend (.harness "SCHED" [1, q, b, (y.tg t).ctx] []) else y
  y.beamRelease t b (some (b, k))

/-! ### Fires (R227, R228) -/

/-- A GEN fire for band b of frame n with its waiting task group. -/
def Sys.genFire (t b n : Nat) (y : Sys) : Sys :=
  let y := y.latchSources n
  match y.latchOf n with
  | none => (y.modFg fun g => { g with noSource := satInc g.noSource }).fgEvent 2
  | some l =>
    let ws := y.ticketGen b n l
    let y := y.modBand b fun k => if n % 2 = 0 then { k with tag0 := none } else { k with tag1 := none }
    match (y.modChance (· + 7)).writeTicket b 0 ws with
    | (y, false) => y
    | (y, true) => y.releaseChain t b 0

/-- A WARP fire for band b of frame n with its waiting task group. -/
def Sys.warpFire (t b n : Nat) (y : Sys) : Sys :=
  let y := y.latchSources n
  let g := (y.band b).gen
  let y := if g = .running then (y.cancelChain b 0).modFg fun f => { f with genLate := satInc f.genLate } else y
  let reproj := decide (g ≠ .done)
  if reproj = true ∧ (y.latchOf n).isNone then y
  else match y.readPoses with
    | (y, .error _) => y.fgDisable
    | (y, .ok ps) =>
      let pose := newestPose y.chance ps
      let y := if pose.isNone then y.fgEvent 3 else y
      let out := match (y.band b).shown with | none => 0 | some s => 1 - s
      match y.vread none (y.compositor.getD 0) (y.fg.ticket + 128 * b) 4 with
      | (y, .error _) => y.fgDisable
      | (y, .ok w) =>
        let w0 := andNot (leNat w) (2 ^ 11 + 2 ^ 14 + 2 ^ 15) + putb reproj 11 + putb pose.isSome 14 + put out 15 1
        let oa := y.slotAddr2 b out
        match y.writeTicket b 0 [w0] with
        | (y, false) => y
        | (y, true) => match y.writeTicket b 5 [put y.beam.line 0 13 + put y.beam.tick 13 4] with
          | (y, false) => y
          | (y, true) => match y.writeTicket b 10 [oa % 2 ^ 32, oa / 2 ^ 32] with
            | (y, false) => y
            | (y, true) => match y.writeTicket b 16 ((List.range 16).map (wordAt (pose.getD (List.replicate 64 0)))) with
              | (y, false) => y
              | (y, true) => (y.modBand b fun k => { k with reproj := reproj, out := out }).releaseChain t b 1

/-- The states of band b stand for frame n, the earliest commit point not yet passed; when a change of the beam's source has passed over a commit point,
what still runs for the frame it cut off is cancelled (R226, log entry 68). -/
def Sys.bandTo (b n : Nat) (y : Sys) : Sys :=
  if (y.band b).frame = n then y
  else (y.cancelBand b).modBand b fun k => { k with frame := n, gen := k.gen.after, warp := k.warp.after, reproj := false }

/-- A fire on the GEN (0) or WARP (1) queue with ARG b (R226): held behind a cancel, a miss, or the fire itself. -/
def Sys.boardFire (k b : Nat) (y : Sys) : Sys :=
  let q := if k = 0 then y.fg.genQ else y.fg.warpQ
  if y.fg.stopping ∨ y.bandCount ≤ b then y.fireMiss
  else
    let n := y.nextCommit b
    let y := y.bandTo b n
    let st := if k = 0 then (y.band b).gen else (y.band b).warp
    if st = .cancelling then y.modFg fun g => { g with held := g.held ++ [{ kind := k, band := b, frame := n }] }
    else match y.beamWaiter q with
      | none => y.fireMiss
      | some t => if k = 0 then y.genFire t b n else y.warpFire t b n

/-- HELD_FIRE_RELEASE (R226): the oldest held fire whose band's cancel is complete acts; one whose commit point has passed is a miss. -/
def execHeldFireRelease (s : State) : Res :=
  onSys (fun y =>
    let ready := fun (h : HeldFire) => (if h.kind = 0 then (y.band h.band).gen else (y.band h.band).warp) != .cancelling
    match y.fg.held.find? ready with
    | none => y
    | some h =>
      let y := y.modFg fun g => { g with held := g.held.erase h }
      if y.nextCommit h.band ≠ h.frame then y.fireMiss
      else match y.beamWaiter (if h.kind = 0 then y.fg.genQ else y.fg.warpQ) with
        | none => y.fireMiss
        | some t => if h.kind = 0 then y.genFire t h.band h.frame else y.warpFire t h.band h.frame) s

/-! ### Commits (R229, R231) -/

/-- The commit point of band b of frame n. -/
def Sys.commitBand (b n : Nat) (y : Sys) : Sys :=
  let k := y.band b
  let lvl := if k.warp = .done then (if k.reproj then 2 else 1) else 3
  let y := if lvl < 3 then y.modBand b fun k => { k with shown := some k.out }
    else
      let y := if k.warp = .running then (y.cancelChain b 1).modFg fun f => { f with warpLate := satInc f.warpLate } else y
      if k.gen = .running then (y.cancelChain b 0).modFg fun f => { f with genLate := satInc f.genLate } else y
  let y := y.modFg fun f =>
    { f with level1 := if lvl = 1 then satInc f.level1 else f.level1, level2 := if lvl = 2 then satInc f.level2 else f.level2,
             level3 := if lvl = 3 then satInc f.level3 else f.level3, cur1 := if lvl = 1 then f.cur1 + 1 else f.cur1,
             cur2 := if lvl = 2 then f.cur2 + 1 else f.cur2, cur3 := if lvl = 3 then f.cur3 + 1 else f.cur3,
             minSlack := if lvl < 3 then min f.minSlack (min 0xFFFF (f.ticks - k.doneAt)) else f.minSlack }
  let y := if lvl = 2 then y.fgEvent 0 else if lvl = 3 then y.fgEvent 1 else y
  let y := if lvl = 3 ∧ y.fg.irqEn = true then y.raise 0 y.fg.vector else y
  let y := y.modBand b fun k =>
    { k with handed := k.shown, committed := some n, frame := (n + 1) % 2 ^ 32, gen := k.gen.after, warp := k.warp.after, reproj := false }
  if b + 1 = y.bandCount then
    y.modFg fun f => { f with last := put f.cur1 0 9 + put f.cur2 9 9 + put f.cur3 18 9, cur1 := 0, cur2 := 0, cur3 := 0 }
  else y

/-- The commit points at the beam's position (tick 0 of a line reached for the first time), and the sources they release. -/
def Sys.commitsHere (y : Sys) : Sys :=
  if y.beam.tick ≠ 0 ∨ y.beam.heldNow = true then y
  else if y.fg.en = false then y.dropLatches
  else ((List.range (min 256 y.bandCount)).foldl (fun y b =>
    let c := y.commitLine b
    if c.1 = y.beam.line then
      let n := (y.beam.frame + if c.2 then 1 else 0) % 2 ^ 32
      (y.bandTo b n).commitBand b n
    else y) y).dropLatches

/-- The board stops at a frame start of the master pipe after EN=0 (R241). -/
def Sys.fgStopNow (y : Sys) : Sys := if y.fg.en && y.fg.stopping then y.fgStop else y

/-! ### Rows -/

/-- The plain fields of BEAM_FG_CTRL. -/
def Sys.fgFields (word : Nat) (y : Sys) : Sys :=
  y.modFg fun g => { g with irqEn := bitAt word 1, vector := fld word 2 8, mask := fld word 10 5 }

/-- A write of BEAM_FG_CTRL with EN=1 (R224, R241). -/
def Sys.fgEnable (word : Nat) (y : Sys) : Sys :=
  let y := y.fgFields word
  if y.fgIdle && y.fgConfigOk then
    match y.fgRegionsOk (y.compositor.getD 0) with
    | (y, false) => y.reject
    | (y, true) => (y.modFg fun g => { g with en := true, stopping := false, openGen := none, openWarp := none, cutGen := false, cutWarp := false }).bandsReset
  else y.reject

/-- A write of BEAM_FG_CTRL with EN=0 (R241). -/
def Sys.fgDisableWrite (word : Nat) (y : Sys) : Sys :=
  (y.fgFields word).modFg fun g => { g with stopping := g.en }

/-- FG_ENABLE (R224): the word written has EN=1. -/
def execFgEnable (word : Nat) (s : State) : Res :=
  onSys (Sys.mirrored 0x00300100 (setBit (word % 2 ^ 32) 0) (Sys.fgEnable (setBit (word % 2 ^ 32) 0))) s

/-- FG_DISABLE (R241): the word written has EN=0. -/
def execFgDisable (word : Nat) (s : State) : Res :=
  onSys (Sys.mirrored 0x00300100 (clrBit (word % 2 ^ 32) 0) (Sys.fgDisableWrite (clrBit (word % 2 ^ 32) 0))) s

/-- The band counters cleared (R241). -/
def Sys.fgClear (same : Nat) (y : Sys) : Sys :=
  y.modFg fun g => { g with level1 := cleared same 0, level2 := cleared same 1, level3 := cleared same 2, genLate := cleared same 3, warpLate := cleared same 4, noSource := cleared same 5, minSlack := 0xFFFF }

/-- FG_CLR_COUNTS (R241). -/
def execFgClrCounts (s : State) : Res := onSys (Sys.mirrored 0x0030015C 1 (Sys.fgClear 0)) s

end Sys2Proof.Machine
end

