-- ==== Sys2Proof/Machine/Scan.lean ====
section
/-! DEFINITION. Scanout (R247 to R252, R259, R260): what a pipe fetches for a line, the pixels it sends, fetches that wait for a commit point. -/

namespace Sys2Proof.Machine

/-- An n-bit component as m bits (R249). -/
def component (n m v : Nat) : Nat :=
  if n < m then v * 2 ^ (m - n) + v / 2 ^ (2 * n - m)
  else if m < n then (2 * v * (2 ^ m - 1) + 2 ^ n - 1) / (2 * (2 ^ n - 1))
  else v

/-- The three components of a source pixel at BPC bits (R249), packed 16 bits apart. -/
def Pipe.pixel (p : Pipe) (w : Nat) : Nat :=
  let m := p.bpc
  let c := fun i => match p.fmt with
    | 0 => component 8 m (fld w (8 * i) 8)
    | 1 => component 10 m (fld w (10 * i) 10)
    | _ => unormOf m (halfVal (fld w (16 * i) 16)) 0
  c 0 + 2 ^ 16 * c 1 + 2 ^ 32 * c 2

/-- The source pixels of a line's bytes. -/
def Pipe.pixelsOf (p : Pipe) (bs : List Byte) : List Nat :=
  (List.range p.hactive).map fun i => leNat ((bs.drop (p.pxBytes * i)).take p.pxBytes)

/-- Pixels whose data has not arrived take the last pixel delivered (R250): the line as sent, and the last pixel. -/
def repeatLate (late : Nat) : Nat → Nat → List Nat → List Nat × Nat
  | _, last, [] => ([], last)
  | i, last, v :: t =>
    let x := if bitAt late i then last else v
    let r := repeatLate late (i + 1) x t
    (x :: r.1, r.2)

/-- A range of device memory a pipe reads by physical address; none when it is not mapped or fails. -/
def Sys.scan (a n : Nat) (y : Sys) : Sys × Option (List Byte) :=
  if y.mem.memEnd < a + n then (y, none)
  else match y.mem.fails .scan a n with
    | some b => (y.uncorrectable b, none)
    | none => let r := y.mem.load .scan a n; ({ y with mem := r.1 }, some r.2)

/-- What a pipe fetches for a line. -/
inductive Feed where
  | pixels (bs : List Byte)
  /-- Every component 0. -/
  | black
  /-- No data arrives. -/
  | lost
  /-- Panel Replay: no pixels are sent. -/
  | silent
  /-- The band's commit point has not passed: the fetch waits (R248). -/
  | waits

/-- The source of line l of a pipe (R247, R248, R259); once the Calm timer has expired the lines of the next frame are black. -/
def Sys.feed (n l : Nat) (y : Sys) : Sys × Feed :=
  let p := y.pipe n
  let plain := fun (a : Nat) => match y.scan a (p.hactive * p.pxBytes) with
    | (y, some bs) => (y, Feed.pixels bs)
    | (y, none) => (y, .lost)
  if p.calm then
    if p.black || (p.expired && p.line0) then (y, .black)
    else match p.calmSrc with
      | 0 => (y, .silent)
      | 1 => if p.holdValid then plain (p.holdAddr + (p.holdFrame * p.vactive + l) * p.lb) else (y, .black)
      | _ => (y, .black)
  else if p.bandMode then
    let b := l / y.beam.band
    let k := y.band b
    let frame := y.beam.frame + if p.line0 then 1 else 0
    if (match k.committed with | some f => decide (f < frame) | none => true) then (y, .waits)
    else match k.handed with
      | none => (y, .black)
      | some s => match y.vread none (y.compositor.getD 0) (y.slotAddr2 b s + (l - b * y.beam.band) * p.lb) (p.hactive * p.pxBytes) with
        | (y, .error _) => (y.fgDisable, .lost)
        | (y, .ok bs) => (y, .pixels bs)
  else plain (p.fbNow + l * p.pitchNow)

/-- The hold frame takes a line as sent (R260). -/
def Sys.holdWrite (n l : Nat) (px : List Nat) (y : Sys) : Sys :=
  let p := y.pipe n
  if p.calm ∨ p.calmSrc ≠ 1 then y
  else
    let f := p.holdNow
    let a := p.holdAddr + (f * p.vactive + l) * p.lb
    let bs := px.flatMap (leBytes p.pxBytes)
    let y := if y.mem.memEnd < a + bs.length then y else { y with mem := y.mem.store .noalloc a bs }
    if l + 1 = p.vactive then y.modPipe n fun p => { p with holdValid := true, holdFrame := f, holdLines := 0 }
    else y.modPipe n fun p => { p with holdLines := l + 1 }

/-- The pixels of a line go out, or with DSC=1 the bits its 4 or 8 slice encoders make of them (R251, R252). -/
def Sys.sendPixels (n l : Nat) (px : List Nat) (y : Sys) : Sys :=
  let p := y.pipe n
  if p.dsc = false then y.emit (.line n l px) else
  let rows := (if l % max 1 p.sliceH = 0 then [] else p.dscRows) ++ [px]
  let w := p.hactive / p.slices
  let bits := (List.range p.slices).map fun i => Config.dscBits p.dscSettings (rows.map fun r => (r.drop (w * i)).take w)
  (y.modPipe n fun p => { p with dscRows := rows }).emit (.dsc n l bits)

/-- A line goes to the panel: late pixels replaced and counted, the hold frame written, the pixels sent (R249, R250). -/
def Sys.sendLine (n l late : Nat) (px : List Nat) (y : Sys) : Sys :=
  let p := y.pipe n
  let r := repeatLate late 0 (match p.lastPx with | some (v :: _) => v | _ => 0) px
  let k := (px.zipIdx.filter fun q => bitAt late q.2).length
  let y := y.modPipe n fun p => { p with lastPx := some [r.2] }
  let y := if k = 0 then y
    else (y.modPipe n fun p => { p with underPx := satAdd p.underPx k, underLines := satInc p.underLines }).pipeEvent n 0
  (y.holdWrite n l r.1).sendPixels n l (r.1.map p.pixel)

/-- The lines a selective update sends (R255). -/
def Pipe.inUpdate (p : Pipe) (l : Nat) : Bool :=
  match p.suRun with
  | none => true
  | some r =>
    let g := if p.dsc then max 1 p.sliceH else 4
    decide (r.1 / g * g ≤ l ∧ l < (r.2 / g + 1) * g)

/-- The fetch of a line goes as far as it can; it waits while the commit point of its band has not passed (R248). -/
def Sys.fetchLine (n line late : Nat) (y : Sys) : Sys :=
  match y.feed n line with
  | (y, .pixels bs) => y.sendLine n line late ((y.pipe n).pixelsOf bs)
  | (y, .black) => y.sendLine n line 0 (List.replicate (y.pipe n).hactive 0)
  | (y, .lost) => y.sendLine n line (2 ^ (y.pipe n).hactive - 1) (List.replicate (y.pipe n).hactive 0)
  | (y, .silent) => y
  | (y, .waits) => y.modPipe n fun p => { p with waiting := p.waiting ++ [(line, late)] }

/-- Waiting fetches of a pipe are tried again, in order. -/
def Sys.retryFetch (n : Nat) (y : Sys) : Sys :=
  let l := (y.pipe n).waiting
  if l.isEmpty then y else l.foldl (fun y q => y.fetchLine n q.1 q.2) (y.modPipe n fun p => { p with waiting := [] })

end Sys2Proof.Machine
end

