-- ==== Sys2Proof/Machine/Beam.lean ====
section
/-! DEFINITION. The Beam unit (R53 to R70): position, Line Schedule Table, holds, gates, amendments of the table; the reference clock and the
ghost beam (R56). -/

namespace Sys2Proof.Machine

/-- The worker of a Duo: its Beam unit issues nothing and shows the manager's position (R58). -/
def Sys.beamFollows (y : Sys) : Bool := y.glob.config != 0 && y.duo.role == 1 && !y.duo.alone

/-! ### Entries (R60, R63 to R65) -/

def BEntry.kindFire (e : BEntry) : Bool := e.kind == 1
/-- The entry acts in frames of a phase. -/
def BEntry.acts (e : BEntry) (phase : Nat) : Bool := bitAt e.phases phase
/-- Owner of a FIRE's queue. -/
def BEntry.ctx (e : BEntry) : Nat := fld e.w1 26 6

/-- A FIRE (R64): the beam doorbell of a queue with its argument. In TEAM that of a context of the worker goes there (R58, R389); on a context that has
been closed it is a miss (R61). -/
def Sys.fire (q arg ctx : Nat) (y : Sys) : Sys :=
  let y := y.stillWake
  let mine := (y.queue q).isOpen && (y.queue q).ctx == ctx
  let board := mine && y.fg.en && (q == y.fg.genQ || q == y.fg.warpQ)
  let away := y.beamLeads && y.glob.config == 1 && !mine && bitAt y.duo.peerCtxs ctx
  let y := if (y.beamLeads && y.glob.config == 2 || away) && !board then y.hsend (.harness "SCHED" [1, q, arg, ctx] []) else y
  if away then y
  else if !mine then y.fireMiss
  else if y.fg.en && q == y.fg.genQ then y.boardFire 0 arg
  else if y.fg.en && q == y.fg.warpQ then y.boardFire 1 arg
  else match y.beamWaiter q with
    | some t => y.beamRelease t arg none
    | none => y.fireMiss

/-- The entry at the pointer acts; a FIRE that an amendment holds back is skipped and counted as a miss (R49, R65). -/
def Sys.issueEntry (i : Nat) (e : BEntry) (y : Sys) : Sys :=
  match e.kind with
  | 1 =>
    if bitAt y.beam.heldBack e.ctx then (y.modBeam fun b => { b with skips := satInc b.skips }).fireMiss
    else y.fire (fld e.w1 0 18) (fld e.w1 18 8) e.ctx
  | 3 =>
    let b := y.beam
    (y.modBeam fun k => { k with mark := put i 0 12 + put b.phase 12 3 + put b.line 15 13 + put b.tick 28 4, markFrame := b.frame }).raise 0
      (fld e.w1 0 8)
  | _ => y

/-- Entries up to the beam's position, in table order (R63); one passed without having been reached is skipped (R65). -/
def Sys.runTable : Nat → Sys → Sys
  | 0, y => y
  | n + 1, y =>
    match y.beam.table[y.beam.next]? with
    | none => y
    | some e =>
      let here := decide (e.line = y.beam.line ∧ e.tick = y.beam.tick)
      let past := decide (e.line < y.beam.line ∨ (e.line = y.beam.line ∧ e.tick < y.beam.tick))
      if !(here || past) then y
      else
        let i := y.beam.next
        let acts := e.acts y.beam.phase
        let y := y.modBeam fun b => { b with next := b.next + 1 }
        let y := if !acts then y else if here then y.issueEntry i e else y.modBeam fun b => { b with skips := satInc b.skips }
        Sys.runTable n y

/-- What happens at a position the beam first reaches: commit points with the fetches that waited for them, then table entries (R231, R248). -/
def Sys.atPosition (y : Sys) : Sys :=
  let y := ((y.commitsHere).retryFetch 0).retryFetch 1
  y.runTable (y.beam.table.length - y.beam.next)

/-! ### Frame starts (R49, R57, R62) -/

/-- The entries of the frame that were not reached are skipped (R65). -/
def Sys.skipRest (y : Sys) : Sys :=
  let n := ((y.beam.table.drop y.beam.next).filter fun e => e.acts y.beam.phase).length
  y.modBeam fun b => { b with skips := satAdd b.skips n, next := 0 }

/-- The amended BEAM section applies (R49) and the beam's source moves; a change of BAND, LEAD or master resets the bands, and the board's conditions are
checked on the new source (R224). -/
def Sys.applyBeam (move : Sys → Sys) (y : Sys) : Sys :=
  match y.beam.newMaster with
  | none => move y
  | some m =>
    let b := y.beam
    let changed := b.master != m || b.band != b.newBand || b.lead != b.newLead
    let y := y.modBeam fun b =>
      { b with master := m, period := b.newPeriod, band := b.newBand, lead := b.newLead, ghostTick := b.newGhost.1, ghostVtotal := b.newGhost.2.1,
               ghostVactive := b.newGhost.2.2, table := b.newTable, newMaster := none, newTable := [], heldBack := 0,
               phase := b.phase % max 1 b.newPeriod }
    let y := move y
    (if changed then y.bandsReset else y).fgRecheck

/-- The frame counter and phase move on to line 0, tick 0 (R57, R62, R69). -/
def Sys.nextFrame (y : Sys) : Sys :=
  y.modBeam fun b =>
    { b with frame := (b.frame + 1) % 2 ^ 32, line := 0, tick := 0, heldNow := false, held := 0, next := 0, slip := false,
             phase := if b.slip then b.phase else (b.phase + 1) % max 1 b.period }

/-- The pending section applies at a frame start of the source in force: not while it waits for another running pipe (R49, R57). -/
def Sys.amendHere (y : Sys) : Bool :=
  match y.beam.newMaster with
  | none => false
  | some m => decide (m = y.beam.source) || decide (2 ≤ m) || !(y.pipe m).runs

/-- The source follows the master after an amendment: a stopped master or NONE leaves the ghost beam (R55, R57). -/
def Sys.resource (y : Sys) : Sys :=
  if y.beam.source = 2 ∨ y.beam.master = y.beam.source then y else y.setSource 2

/-- A frame starts on the source in force. -/
def Sys.beamFrame (y : Sys) : Sys :=
  let y := y.skipRest
  let y := if y.amendHere then y.applyBeam Sys.resource else y
  let y := y.nextFrame
  let y := y.fgStopNow
  let y := if y.beam.source < 2 then y.frameOf y.beam.source else y
  let y := (y.stillCalm 0).stillCalm 1
  y.atPosition

/-! ### Ticks and holds (R54, R66) -/

/-- The HOLD entry that acts at the end of the beam's line. -/
def Sys.holdHere (y : Sys) : Option BEntry :=
  y.beam.table.find? fun e => e.kind == 2 && e.line == y.beam.line && e.acts y.beam.phase

/-- The hold decision of R66: whether the line is repeated. -/
def Sys.holdDecision (e : BEntry) (y : Sys) : Sys × Bool :=
  let g := fld e.w1 0 4
  if y.beam.master < 2 ∧ (y.pipe y.beam.master).vrr = false then (y, false)
  else if bitAt y.beam.gates g then (y.modBeam fun b => { b with gates := clrBit b.gates g }, false)
  else if fld e.w1 4 13 ≤ y.beam.held then ((y.modBeam fun b => { b with holdTimeouts := satInc b.holdTimeouts }).beamEvent 1, false)
  else (y.modBeam fun b => { b with held := b.held + 1, heldNow := true, tick := 0 }, true)

/-- A hold is over: LAST takes the count. -/
def Sys.holdEnds (y : Sys) : Sys := y.modBeam fun b => { b with last := b.held, held := 0, heldNow := false }

/-- The next line, or the next frame. -/
def Sys.nextLine (y : Sys) : Sys :=
  if y.vtot ≤ y.beam.line + 1 then y.beamFrame
  else (y.modBeam fun b => { b with line := b.line + 1, tick := 0 }).atPosition

/-- The beam advances one tick (R54, R56, R57, R66); the manager tells the worker (R389). -/
def Sys.beamAdvance (y : Sys) : Sys :=
  let y := y.modFg fun g => { g with ticks := g.ticks + 1 }
  let y :=
    if y.beam.source = 2 ∧ y.beam.ghostVtotal ≤ y.beam.line then y.beamFrame
    else if y.beam.tick < 15 then
      let y := y.modBeam fun b => { b with tick := b.tick + 1 }
      if y.beam.heldNow then y else y.atPosition
    else match y.holdHere with
      | none => y.nextLine
      | some e => match y.holdDecision e with
        | (y, true) => y
        | (y, false) => y.holdEnds.nextLine
  if y.beamLeads then
    let b := y.beam
    y.hsend (.harness "BEAMPOS" [b.line, b.tick, putb b.heldNow 0, b.source, b.phase, b.frame] [])
  else y

/-! ### The reference clock (R56, R366, R375) -/

/-- n reference cycles pass: the time of the log, the reason counters' microseconds (5/192 of one per cycle), the mean of HELD. -/
def Sys.refCycles (n : Nat) (y : Sys) : Sys :=
  let us := (y.girth.reasonAcc + 5 * n) / 192
  let held := y.girth.heldAt y.girth.op
  let rs := y.reasonsNow
  (y.modGlob fun g => { g with refCycles := g.refCycles + n }).modGirth fun g =>
    { g with reasonAcc := (g.reasonAcc + 5 * n) % 192, heldSum := g.heldSum + n * held, heldCycles := g.heldCycles + n,
             reasonUs := (maskList 8 rs).foldl (fun t r => if us = 0 then t else tmod 0 t r (fun c => satAdd c us)) g.reasonUs }

/-- The ghost accumulator after n cycles, and a ghost tick when it has reached GHOST_TICK (R56). -/
def Sys.ghostCycles (n : Nat) (y : Sys) : Sys :=
  let y := y.refCycles n
  let a := y.beam.acc + 256 * n
  if y.beam.ghostTick = 0 then y
  else if a < y.beam.ghostTick then y.modBeam fun b => { b with acc := a }
  else
    let y := y.modBeam fun b => { b with acc := a - b.ghostTick }
    if y.beam.source == 2 && !y.beamFollows then y.beamAdvance else y

/-! ### Rows -/

/-- BEAM_TICK (R54): the master pipe's timing moves the beam one tick. -/
def execBeamTick (s : State) : Res :=
  onSys (fun y => if y.beam.on && decide (y.beam.source < 2) && (y.pipe y.beam.source).runs && !y.beamFollows then y.beamAdvance else y) s

/-- GHOST_TICK (R56): reference cycles pass until the accumulator reaches GHOST_TICK. -/
def execGhostTick (s : State) : Res :=
  if s.boot.power = false then .next s
  else onSys (fun y => if y.beam.ghostTick = 0 then y else y.ghostCycles (max 1 (cdiv (y.beam.ghostTick - y.beam.acc) 256))) s

/-- The word BEAM_LINE reads as (R69). -/
def Beam.lineWord (b : Beam) : Nat := put b.line 0 13 + put b.tick 13 4 + putb b.heldNow 17 + put b.source 18 2 + put b.phase 20 3

/-- BEAM_LINE_READ (R69): the read latches BEAM_FRAME and BEAM_HOLD. -/
def execBeamLineRead (s : State) : Res :=
  onSys (fun y =>
    let b := y.beam
    (y.modBeam fun k => { k with latchFrame := some b.frame, latchHold := some (put b.held 0 13 + put b.last 16 13) }).readVal b.lineWord) s

/-- BEAM_GATE_OPEN (R67): the gates of a mask open. -/
def execBeamGateOpen (mask : Nat) (s : State) : Res :=
  onSys (Sys.mirrored 0x0030001C (mask % 2 ^ 16) fun y => y.modBeam fun b => { b with gates := b.gates ||| mask % 2 ^ 16 }) s

/-- BEAM_PHASE_SLIP (R62). -/
def execBeamPhaseSlip (s : State) : Res :=
  onSys (Sys.mirrored 0x0030001C (2 ^ 16) fun y => y.modBeam fun b => { b with slip := true }) s

/-- The three Beam counters cleared (R69). -/
def Sys.beamClear (same : Nat) (y : Sys) : Sys :=
  y.modBeam fun b => { b with misses := cleared same 0, skips := cleared same 1, holdTimeouts := cleared same 2 }

/-- BEAM_CLR_COUNTS (R69). -/
def execBeamClrCounts (s : State) : Res := onSys (Sys.mirrored 0x0030001C (2 ^ 17) (Sys.beamClear 0)) s

end Sys2Proof.Machine
end

