-- ==== Sys2Proof/Machine/Pattern.lean ====
section
/-! DEFINITION. Signed images: the die record (R40, R455), the firmware image (R425), the Pattern and its amendments (R29 to R37, R59 to R61,
R244 to R246, R446 to R448, R451 to R454, R459). -/

namespace Sys2Proof.Machine

/-! ### Words and signatures (R424) -/

/-- The 32-bit words of a byte string (R3). -/
def wordsOf : List Byte → List Nat
  | a :: b :: c :: d :: t => leNat [a, b, c, d] :: wordsOf t
  | _ => []

/-- Bytes of an SLH-DSA-SHAKE-192s signature (R31, R40, R424). -/
def sigBytes : Nat := 16224

/-- The signature of an image under the root key (R424). -/
def signed (key msg sig : List Byte) : Bool := Config.slhVerify "SLH-DSA-SHAKE-192s" key msg sig

/-- A word has no bit outside a mask: its reserved bits are 0 (R9, R37). -/
def within (mask w : Nat) : Bool := andNot w mask == 0

/-- Each word lies within its mask. -/
def allWithin (masks ws : List Nat) : Bool := (masks.zip ws).all fun p => within p.1 p.2

/-- A 32-bit word without reserved bits. -/
def full : Nat := 2 ^ 32 - 1

/-- No two masks share a bit. -/
def disjoint : Nat → List Nat → Bool
  | _, [] => true
  | seen, m :: t => Nat.land seen m == 0 && disjoint (Nat.lor seen m) t

/-! ### The die record (R40, R455) -/

/-- The record before its signature, and the signature, as MAGIC and LENGTH locate them. -/
def recordParts (bs : List Byte) : Option (List Byte × List Byte) :=
  let n := wordAt bs 2
  if wordAt bs 0 = 0x44435244 ∧ 20132 ≤ n ∧ n ≤ 32768 ∧ n % 4 = 0 ∧ n ≤ bs.length then
    some (bs.take (n - sigBytes), (bs.drop (n - sigBytes)).take sigBytes)
  else none

/-- DIS of stall s. -/
def recordDis (ws : List Nat) (s : Nat) : Bool := bitAt (ws.getD (16 + 15 * s) 0) 0

/-- Stalls enabled by STALL_EN and the unit map (R40). -/
def recordStalls (ws : List Nat) : Nat :=
  maskOf ((maskList 64 (ws.getD 14 0 + 2 ^ 32 * ws.getD 15 0)).filter fun s => !recordDis ws s)

/-- SLOT_MAP of stall s. -/
def recordSlots (ws : List Nat) (s : Nat) : List Nat :=
  let v := ((List.range 14).map fun i => ws.getD (17 + 15 * s + i) 0 * 2 ^ (32 * i)).sum
  (List.range 64).map fun c => fld v (7 * c) 7

/-- All members of a list differ. -/
def allDiffer : List Nat → Bool
  | [] => true
  | a :: t => !t.contains a && allDiffer t

/-- The rest of the layout of R40 (R455 step 3). -/
def recordLayout (msg : List Byte) : Bool :=
  let ws := wordsOf msg
  ws.getD 1 0 == 1 && within 0xFFFFFF (ws.getD 3 0) && ws.getD 976 0 + 3908 == msg.length &&
  (List.range 64).all (fun s => within 1 (ws.getD (16 + 15 * s) 0)) &&
  (maskList 64 (recordStalls ws)).all fun s =>
    let m := recordSlots ws s
    allDiffer m && m.all fun p => decide (p ≤ 65)

/-- The checks of R41 in the order of R455, the key block of R423 among them; 0 when the record is accepted. -/
def recordError (keyOk : Bool) (key bs idDigest : List Byte) : Nat :=
  match recordParts bs with
  | none => 0x02
  | some (msg, sig) =>
    if !keyOk || !signed key msg sig then 0x03
    else if !recordLayout msg then 0x02
    else if (msg.drop 24).take 32 != idDigest then 0x04
    else 0

/-- The root public key of a key block, when it is accepted (R423). -/
def rootKeyOf (block : List Byte) : Option (List Byte) :=
  let key := (block.drop 4).take 48
  if wordAt block 0 = 0x59454B52 ∧ allZero ((block.drop 52).take 12) = true ∧ key.length = 48 ∧ Shake.shake256 32 key = Config.rootKeyHash then some key
  else none

/-! ### The firmware image (R425) -/

/-- The firmware's check: its VERSION, or the error code. -/
def firmwareCheck (key : List Byte) (part step : Nat) (img : List Byte) : Except Nat Nat :=
  let n := wordAt img 2
  if wordAt img 0 ≠ 0x4D524642 ∨ n < 64 + sigBytes ∨ 2 ^ 20 < n ∨ n % 4 ≠ 0 ∨ img.length < n then .error 0x11
  else if !signed key (img.take (n - sigBytes)) ((img.drop (n - sigBytes)).take sigBytes) then .error 0x10
  else
    let w := fun (i : Nat) => wordAt img i
    if w 1 ≠ 1 ∨ allWithin ([0xFFFFFF] ++ List.replicate 11 0) ((List.range 12).map fun i => w (4 + i)) = false ∨
        (fld (w 4) 0 16 ≠ 0 ∧ fld (w 4) 0 16 ≠ part) ∨ step < fld (w 4) 16 8 then .error 0x11
    else .ok (w 3)

/-! ### Header and directory (R29 to R31, R451, R454) -/

/-- Stage 1 of R454: MAGIC and LENGTH locate SIGNATURE; the bytes before it, and it. -/
def patParts (img : List Byte) : Option (List Byte × List Byte) :=
  let n := wordAt img 2
  if wordAt img 0 = 0x4E525450 ∧ 192 + sigBytes ≤ n ∧ n ≤ 2 ^ 20 ∧ (n - sigBytes) % 64 = 0 ∧ n ≤ img.length then
    some (img.take (n - sigBytes), (img.drop (n - sigBytes)).take sigBytes)
  else none

def secOff (msg : List Byte) (i : Nat) : Nat := wordAt msg (8 + 2 * i)
def secLen (msg : List Byte) (i : Nat) : Nat := wordAt msg (9 + 2 * i)

/-- The words of section i. -/
def section_ (msg : List Byte) (i : Nat) : List Nat := wordsOf ((msg.drop (secOff msg i)).take (secLen msg i))

/-- KIND of a header (R30). -/
def patKind (msg : List Byte) : Nat := fld (wordAt msg 3) 8 8

/-- The length a section's own contents fix, for a section of n bytes (R451). -/
def fixedLen (i n : Nat) (ws : List Nat) : Bool :=
  match i with
  | 1 | 8 | 9 => n == 12
  | 2 => decide (4 ≤ n) && n == 4 + 32 * fld (ws.getD 0 0) 0 4
  | 3 => decide (260 ≤ n) && n == 260 + 8 * fld (ws.getD 64 0) 0 13
  | 4 => decide (12 ≤ n) && n == 12 + 4 * fld (ws.getD 2 0) 0 7
  | 5 => decide (32 ≤ n) && n == 32 + 8 * fld (ws.getD 3 0) 0 13
  | 6 => n == 128
  | _ => n == 40

/-- Mask of word 1 of a Line Schedule Table entry by its KIND (R60). -/
def entryMask (w0 : Nat) : Nat :=
  match fld w0 17 2 with
  | 0 => 0
  | 1 => full
  | 2 => 0x1FFFF
  | _ => 0xFF

/-- Masks of the pairs of words of the table. -/
def entriesWithin : List Nat → Bool
  | a :: b :: t => within 0x07FFFFFF a && within (entryMask a) b && entriesWithin t
  | _ => true

/-- The masks of a list of words that repeats a pattern. -/
def cycleWithin (masks : List Nat) (ws : List Nat) : Bool :=
  ws.zipIdx.all fun p => within (masks.getD (p.2 % masks.length) 0) p.1

/-- A context word: with VALID=0 the rest of it is ignored (R453). -/
def ctxWithin (w : Nat) : Bool := !bitAt w 0 || within 0x1FF w

/-- Reserved fields of section i are 0 (R37 0x21). -/
def secReserved (i : Nat) (ws : List Nat) : Bool :=
  match i with
  | 1 => allWithin [0xFF, full, full] ws
  | 2 => within 0xF (ws.getD 0 0) && cycleWithin [0x3FF, full, full, full, full, full, 0x7, 0] (ws.drop 1)
  | 3 => (ws.take 64).all ctxWithin && within 0x1FFF (ws.getD 64 0) && cycleWithin [0x3FFFF, 0x3F03FFFF] (ws.drop 65)
  | 4 => allWithin [0x3FFFF, 0x3FFFF, 0x7F] ws && cycleWithin [0xFFFF] (ws.drop 3)
  | 5 => allWithin [0x01FFFF3F, 0xFFFFFF, 0x1FFF1FFF, 0x1FFF, 0, 0, 0, 0] ws && entriesWithin (ws.drop 8)
  | 6 => cycleWithin ([0xFFFFF, 0x1FFF1FFF, 0x1FFF1FFF, 0x1FFF1FFF, 0x1FFF1FFF, 0x7FFFFF, 0x01FFFFFF, 0xFF, full, full] ++ List.replicate 6 0) ws
  | 7 => cycleWithin [0x7F] (ws.take 8) && cycleWithin [0x3FFFFFFF] (ws.drop 8)
  | 8 => allWithin [0x77F, 0xFFFF, 0x3FFFF] ws
  | _ => allWithin [3, 0x3F, full] ws

/-- Sections other than HEADER and SIGNATURE that an image carries. -/
def present (msg : List Byte) : List Nat := ((List.range 10).drop 1).filter fun i => secLen msg i != 0

/-- The stretches of the carried sections, HEADER first. -/
def spans (msg : List Byte) : List (Nat × Nat) := (0, 192) :: (present msg).map fun i => (secOff msg i, secOff msg i + secLen msg i)

/-- No two stretches overlap. -/
def apart : List (Nat × Nat) → Bool
  | [] => true
  | r :: t => t.all (fun s => decide (r.2 ≤ s.1 ∨ s.2 ≤ r.1)) && apart t

/-- HEADER, directory and reserved fields are well formed (R29, R30, R31, R37 0x21, R451). Two conditions of R30 that R37's list does not name, SECTIONS=11
and BASE_DIGEST=0 in a full Pattern, count as the form of HEADER (DESIGN CHOICE, log entry 64). -/
def wellFormedImage (msg : List Byte) : Bool :=
  let w := fun (i : Nat) => wordAt msg i
  let k := patKind msg
  let ss := spans msg
  w 1 == 1 && fld (w 3) 0 8 == 11 && within 0xFFFF (w 3) && decide (k ≤ 1) && within 0xFFFFFF (w 4) &&
  [6, 7, 30, 31, 40, 41, 42, 43, 44, 45, 46, 47].all (fun i => w i == 0) &&
  (k == 1 || (List.range 8).all fun i => w (32 + i) == 0) &&
  secOff msg 0 == 0 && secLen msg 0 == 192 && secOff msg 10 == msg.length && secLen msg 10 == sigBytes &&
  ((List.range 10).drop 1).all (fun i =>
    if secLen msg i = 0 then k == 1 && secOff msg i == 0
    else secOff msg i % 64 == 0 && decide (secOff msg i + secLen msg i ≤ msg.length) && fixedLen i (secLen msg i) (section_ msg i) &&
      secReserved i (section_ msg i)) &&
  apart ss && msg.zipIdx.all (fun p => p.1 == 0 || ss.any fun s => decide (s.1 ≤ p.2 ∧ p.2 < s.2))

/-! ### UNITMAP_REF, DOMAINS (R32, R33, R452) -/

/-- Word k of domain d in DOMAINS. -/
def domWord (ws : List Nat) (d k : Nat) : Nat := ws.getD (1 + 8 * d + k) 0

def domCount (ws : List Nat) : Nat := fld (ws.getD 0 0) 0 4

/-- The 64-bit field in words k, k + 1 of a domain. -/
def domWide (ws : List Nat) (d k : Nat) : Nat := domWord ws d k + 2 ^ 32 * domWord ws d (k + 1)

/-- PLACE=0: the counts taken in order from the enabled stalls (R32). -/
def takeStalls : List Nat → List Nat → List Nat
  | [], _ => []
  | n :: t, en => maskOf (en.take n) :: takeStalls t (en.drop n)

/-- The stalls of each domain (R32, R452). -/
def domStalls (um dm : List Nat) (en : Nat) : List Nat :=
  if bitAt (um.getD 0 0) 0 then (List.range (domCount dm)).map fun d => Nat.land (domWide dm d 1) en
  else takeStalls ((List.range (domCount dm)).map fun d => fld (domWord dm d 0) 3 7) (maskList 64 en)

/-- The domains of a Pattern. -/
def patDoms (um dm : List Nat) (en : Nat) : List Dom :=
  ((domStalls um dm en).zipIdx).map fun p => { stalls := p.1, contexts := domWide dm p.2 4, topPrio := fld (domWord dm p.2 6) 0 3 }

/-- Field of every domain. -/
def domFields (dm : List Nat) (f : Nat → Nat) : List Nat := (List.range (domCount dm)).map f

/-- The die is one that the Pattern accepts (R37 0x22). -/
def dieOk (msg : List Byte) (um dm : List Nat) (part step en : Nat) : Bool :=
  let p := fld (wordAt msg 4) 0 16
  (p == 0 || p == part) && decide (fld (wordAt msg 4) 16 8 ≤ step) && decide (fld (um.getD 0 0) 1 7 ≤ popcount 64 en) &&
  andNot (um.getD 1 0 + 2 ^ 32 * um.getD 2 0) en == 0 &&
  (if bitAt (um.getD 0 0) 0 then (domStalls um dm en).all (· != 0)
   else decide ((domFields dm fun d => fld (domWord dm d 0) 3 7).sum ≤ popcount 64 en))

/-- Domains share nothing (R33, R37 0x23). -/
def domsApart (um dm : List Nat) : Bool :=
  (!bitAt (um.getD 0 0) 0 || disjoint 0 (domFields dm fun d => domWide dm d 1)) &&
  disjoint 0 (domFields dm fun d => fld (domWord dm d 3) 0 16) && disjoint 0 (domFields dm fun d => fld (domWord dm d 3) 16 16) &&
  disjoint 0 (domFields dm fun d => domWide dm d 4)

/-- Forms and ranges of UNITMAP_REF and DOMAINS (R32, R33, R452, 0x25). -/
def domForms (um dm : List Nat) : Bool :=
  let place := bitAt (um.getD 0 0) 0
  let n := fld (um.getD 0 0) 1 7
  decide (1 ≤ n ∧ n ≤ 64) && (place || (um.getD 1 0 == 0 && um.getD 2 0 == 0)) && decide (1 ≤ domCount dm ∧ domCount dm ≤ 8) &&
  (List.range (domCount dm)).all fun d =>
    let k := fld (domWord dm d 0) 3 7
    fld (domWord dm d 0) 0 3 == d && fld (domWord dm d 3) 0 16 != 0 &&
    (if place then k == 0 && domWide dm d 1 != 0 else decide (1 ≤ k ∧ k ≤ 64) && domWide dm d 1 == 0)

/-! ### QUEUES (R34, R453) -/

/-- The context of a context word (R34, R266). -/
def ctxOfWord (w : Nat) : Ctx :=
  { valid := bitAt w 0, domain := fld w 1 3, prio := fld w 4 3, compositor := bitAt w 7, realtime := bitAt w 8 }

/-- The context registers under a changed context word; MIX, the save address and the Calm bit keep their values (R6, R34, R49, R266). -/
def Ctx.underWord (w : Nat) (k : Ctx) : Ctx :=
  let n := ctxOfWord w
  { k with valid := n.valid, domain := n.domain, prio := n.prio, compositor := n.compositor, realtime := n.realtime }

/-- Queue ranges: first, count, context. -/
def rangesOf : List Nat → List (Nat × Nat × Nat)
  | a :: b :: t => (fld a 0 18, fld b 0 18, fld b 24 6) :: rangesOf t
  | _ => []

def queueRanges (qu : List Nat) : List (Nat × Nat × Nat) := rangesOf (qu.drop 65)

/-- Context of a queue; none in no range (R34). -/
def rangeCtx (rs : List (Nat × Nat × Nat)) (q : Nat) : Option Nat := (rs.find? fun r => decide (r.1 ≤ q ∧ q < r.1 + r.2.1)).map (·.2.2)

/-- Valid contexts. -/
def validWords (qu : List Nat) : List (Nat × Nat) := (((qu.take 64).zipIdx).map fun p => (p.2, p.1)).filter fun p => bitAt p.2 0

/-- A range keeps to R34. A range whose owning context has VALID=0 belongs to no context of the image: it fails too (DESIGN CHOICE, log entry 63). -/
def rangeOk (doms : List Dom) (qu : List Nat) (r : Nat × Nat × Nat) : Bool :=
  let w := qu.getD r.2.2 0
  decide (1 ≤ r.2.1 ∧ r.1 + r.2.1 ≤ 2 ^ 18) && bitAt w 0 &&
  (match doms[fld w 1 3]? with
   | some d => (List.range ((r.1 + r.2.1 - 1) / 4096 + 1 - r.1 / 4096)).all fun i => bitAt d.stalls (r.1 / 4096 + i)
   | none => false)

/-- Context words and ranges keep to R34, R453 and TOP_PRIO (0x23, REASON 0x4). -/
def queuesOk (doms : List Dom) (qu : List Nat) : Bool :=
  let vs := validWords qu
  vs.all (fun p => match doms[fld p.2 1 3]? with
    | some d => bitAt d.contexts p.1 && decide (d.topPrio ≤ fld p.2 4 3)
    | none => false) &&
  decide ((vs.filter fun p => bitAt p.2 7).length ≤ 1) &&
  (queueRanges qu).all (rangeOk doms qu) && apart ((queueRanges qu).map fun r => (r.1, r.1 + r.2.1))

/-- The range count is in its range (R34). -/
def queueCountOk (qu : List Nat) : Bool := decide (fld (qu.getD 64 0) 0 13 ≤ 4096)

/-! ### PERMITS (R35, R101) -/

/-- Default costs of the activity classes (R101, R200, R221). -/
def defaultCosts : List Nat := [1, 3, 3, 1, 1, 3, 16, 160] ++ List.replicate 8 0 ++ [800, 75, 120] ++ List.replicate 5 0 ++ [320, 490] ++ List.replicate 38 0

/-- Classes no chapter defines (R35). -/
def reservedClass (k : Nat) : Bool := decide ((8 ≤ k ∧ k ≤ 15) ∨ (19 ≤ k ∧ k ≤ 23) ∨ (26 ≤ k))

/-- The 64 costs: COST[k] in place of the default where PERMITS gives it. -/
def costsOf (pe : List Nat) : List Nat :=
  let n := fld (pe.getD 2 0) 0 7
  (List.range 64).map fun k => if k < n then fld (pe.getD (3 + k) 0) 0 16 else defaultCosts.getD k 0

/-- Ranges of PERMITS (R35). -/
def permitsOk (pe : List Nat) : Bool :=
  let pool := fld (pe.getD 0 0) 0 18
  let n := fld (pe.getD 2 0) 0 7
  decide (1 ≤ pool ∧ pool ≤ 160000) && decide (fld (pe.getD 1 0) 0 18 ≤ pool) && decide (1 ≤ n ∧ n ≤ 64) &&
  (List.range n).all fun k => !reservedClass k || fld (pe.getD (3 + k) 0) 0 16 == 0

/-! ### BEAM (R59 to R61) -/

/-- The entries of the Line Schedule Table. -/
def entriesOf : List Nat → List BEntry
  | a :: b :: t => { line := fld a 0 13, tick := fld a 13 4, kind := fld a 17 2, phases := fld a 19 8, w1 := b } :: entriesOf t
  | _ => []

def beamTable (be : List Nat) : List BEntry := entriesOf (be.drop 8)

/-- MASTER, PERIOD, BAND, LEAD. -/
def beamMaster (be : List Nat) : Nat := fld (be.getD 0 0) 0 2
def beamPeriod (be : List Nat) : Nat := fld (be.getD 0 0) 2 4
def beamBand (be : List Nat) : Nat := fld (be.getD 0 0) 8 9
def beamLead (be : List Nat) : Nat := fld (be.getD 0 0) 17 8
/-- GHOST_TICK, GHOST_VTOTAL, GHOST_VACTIVE. -/
def beamGhost (be : List Nat) : Nat × Nat × Nat := (fld (be.getD 1 0) 0 24, fld (be.getD 2 0) 0 13, fld (be.getD 2 0) 16 13)

/-- Entries ascend by (LINE, TICK) (R61). -/
def entriesAscend : List BEntry → Bool
  | a :: b :: t => decide (a.line < b.line ∨ (a.line = b.line ∧ a.tick ≤ b.tick)) && entriesAscend (b :: t)
  | _ => true

/-- Word k of a pipe's DISPLAY entry. -/
def dispWord (di : List Nat) (n k : Nat) : Nat := di.getD (16 * n + k) 0

/-- An entry keeps to R60 and R61: lo and hi bound a HOLD's line. In TEAM a FIRE may name a queue of the other die (R58), whose QUEUES this die does
not hold: a context and a queue that this die's QUEUES leave out are taken as that die's (DESIGN CHOICE, log entry 65). -/
def tableEntryOk (team : Bool) (qu : List Nat) (period lo hi : Nat) (e : BEntry) : Bool :=
  decide (e.phases < 2 ^ period) && (e.kind == 0 || e.phases != 0) &&
  (match e.kind with
   | 1 =>
     let c := fld e.w1 26 6
     let w := qu.getD c 0
     let owner := rangeCtx (queueRanges qu) (fld e.w1 0 18)
     (owner == some c && bitAt w 0 && bitAt w 8) || (team && !bitAt w 0 && owner == none)
   | 2 => e.tick == 0 && decide (lo ≤ e.line ∧ e.line < hi)
   | _ => true)

/-- BEAM keeps to R59 and R61, against QUEUES and DISPLAY. -/
def beamOk (team : Bool) (be qu di : List Nat) : Bool :=
  let m := beamMaster be
  let g := beamGhost be
  let t := beamTable be
  let lo := if m = 2 then g.2.2 else fld (dispWord di m 3) 0 13
  let hi := if m = 2 then g.2.1 else fld (dispWord di m 4) 0 13
  m != 3 && decide (1 ≤ beamPeriod be ∧ beamPeriod be ≤ 8) && decide (16 ≤ beamBand be ∧ beamBand be ≤ 256) && decide (1 ≤ beamLead be) &&
  decide (256 ≤ g.1) && decide (2 ≤ g.2.1) && decide (1 ≤ g.2.2 ∧ g.2.2 < g.2.1) && decide (fld (be.getD 3 0) 0 13 ≤ 4096) &&
  (m == 2 || bitAt (dispWord di m 0) 0) && entriesAscend t && t.all (tableEntryOk team qu (beamPeriod be) lo hi) &&
  disjoint 0 ((t.filter fun e => e.kind == 2).map (·.phases))

/-- VRR=1 only on the pipe that MASTER names (R246, R448). -/
def vrrOk (be di : List Nat) : Bool :=
  [0, 1].all fun n => !(bitAt (dispWord di n 0) 0 && bitAt (dispWord di n 0) 12) || beamMaster be == n

/-! ### DISPLAY (R242, R244 to R246) -/

/-- Lane rate in 10 Mbit/s, and the pipes that allow it, by RATE (R244). -/
def laneRate (r : Nat) : Nat := [162, 216, 243, 270, 324, 432, 540, 810, 1000, 1350, 2000].getD r 0

def rateAllowed (n r : Nat) : Bool := if n = 0 then decide (r ≤ 7) else [0, 3, 6, 7, 8, 9, 10].contains r

/-- A DISPLAY entry with PRESENT=1 keeps to R246, its 0x25 conditions; n is the pipe. -/
def displayOk (di : List Nat) (n : Nat) : Bool :=
  let w := fun (k : Nat) => dispWord di n k
  let r := fld (w 0) 3 4
  let bpc := fld (w 0) 7 2
  let fmt := fld (w 0) 9 2
  let dsc := bitAt (w 0) 11
  let ha := fld (w 1) 0 13
  let ht := fld (w 1) 16 13
  let va := fld (w 3) 0 13
  let vt := fld (w 3) 16 13
  let slices := fld (w 6) 10 2
  let sliceH := fld (w 6) 12 13
  let lanes := 2 ^ fld (w 0) 1 2
  let bpp16 := if dsc then fld (w 6) 0 10 else 48 * (6 + 2 * bpc)
  let eff : Nat × Nat := if r ≤ 7 then (4, 5) else (128, 132)
  let ahead := fld (w 7) 0 8
  let lb := cdiv (ha * (if fmt = 2 then 8 else 4)) 64 * 64
  !bitAt (w 0) 0 ||
  (rateAllowed n r && fld (w 0) 1 2 != 3 && (bpc != 0 || n == 0) && fmt != 3 && (!bitAt (w 0) 13 || n == 0) && fld (w 0) 14 2 != 3 &&
   decide (1 ≤ ahead ∧ ahead ≤ 64) && w 8 % 64 == 0 &&
   ha % 4 == 0 && ht % 4 == 0 && decide (ha ≤ fld (w 2) 0 13 ∧ fld (w 2) 0 13 < fld (w 2) 16 13 ∧ fld (w 2) 16 13 < ht) &&
   decide (va < fld (w 4) 0 13 ∧ fld (w 4) 0 13 < fld (w 4) 16 13 ∧ fld (w 4) 16 13 < vt) &&
   decide (4 ≤ ha ∧ 1 ≤ va) && (if n = 0 then decide (ha ≤ 3840 ∧ va ≤ 2400) else decide (ha ≤ 7680 ∧ va ≤ 4320)) && decide (fld (w 5) 0 23 ≤ 4400000) &&
   (!dsc || (decide (128 ≤ bpp16 ∧ bpp16 ≤ 256) && decide (slices ≤ 1) && ha % (4 * 2 ^ slices) == 0 && decide (8 ≤ sliceH) && va % sliceH == 0 &&
     (bpc == 1 || bpc == 2))) &&
   decide (ha * bpp16 * fld (w 5) 0 23 * 1000 * 100 * eff.2 ≤ 97 * lanes * laneRate r * 10 ^ 7 * eff.1 * ht * 16) &&
   decide (ahead * lb ≤ 655360))

/-! ### PINS and the conflict table (R446, R448, R459; 0x24) -/

/-- Bumps with a function. -/
def bumps (pi : List Nat) (f : Nat) : Nat := ((pi.take 8).filter fun w => fld w 0 4 == f).length

/-- PINS keeps to R459, and with DISPLAY to the conflict table and the CALM_SRC conditions of R246. -/
def pinsOk (pi di : List Nat) : Bool :=
  (pi.take 8).all (fun w => decide (fld w 0 4 ≤ 6) && fld w 4 2 != 3) &&
  (pi.drop 8).all (fun w => decide (100 ≤ fld w 0 20 ∧ fld w 0 20 ≤ 100000) && decide (fld w 20 10 ≤ 1000)) &&
  decide (bumps pi 4 ≤ 1) && decide (bumps pi 5 ≤ 1) &&
  [0, 1].all fun n =>
    let w := dispWord di n 0
    let src := fld w 14 2
    !bitAt w 0 ||
    (bumps pi (1 + n) == 1 && (src != 0 || (n == 0 && bitAt w 13)) && (src != 1 || dispWord di n 8 != 0 || dispWord di n 9 != 0))

/-! ### CLOCKS and DUO (R36, R339, R440) -/

/-- Bits of START that must be set (R36). -/
def startRequired : Nat := maskOf [0, 1, 2, 3, 5, 6, 7, 8, 9, 14, 15, 16]

/-- CLOCKS keeps to R36 and R339. -/
def clocksOk (cl : List Nat) : Bool :=
  let w0 := cl.getD 0 0
  let rate := fld (cl.getD 1 0) 0 14
  bitAt w0 1 && decide (fld w0 8 3 ≤ 6) && bitAt (fld w0 0 7) (fld w0 8 3) &&
  ([3200, 3733, 4267, 5500, 6000, 6400].contains rate || (!bitAt (cl.getD 1 0) 14 && [7500, 8533].contains rate)) &&
  andNot startRequired (cl.getD 2 0) == 0

/-- DUO keeps to R36 and the DUO_MODE strap (R440). -/
def duoOk (du : List Nat) (duoMode : Bool) : Bool :=
  let c := fld (du.getD 0 0) 0 2
  let g := fld (du.getD 1 0) 0 6
  c != 3 && (c == 0) == !duoMode && (if c = 0 then g == 0 else g == 16 || g == 32)

/-! ### The checks of a load (R37, R454) -/

/-- Stage 3 of R454: every other check, the lowest code first; 0 when all hold. -/
def patternCode (msg : List Byte) (part step en : Nat) (duoMode : Bool) : Nat :=
  let sec := section_ msg
  if !wellFormedImage msg || patKind msg != 0 then 0x21
  else if !dieOk msg (sec 1) (sec 2) part step en then 0x22
  else if !domsApart (sec 1) (sec 2) || !queuesOk (patDoms (sec 1) (sec 2) en) (sec 3) then 0x23
  else if !pinsOk (sec 7) (sec 6) then 0x24
  else if !domForms (sec 1) (sec 2) || !queueCountOk (sec 3) || !permitsOk (sec 4) || !beamOk (fld ((sec 9).getD 0 0) 0 2 == 1) (sec 5) (sec 3) (sec 6) || !vrrOk (sec 5) (sec 6) ||
      !displayOk (sec 6) 0 || !displayOk (sec 6) 1 || !clocksOk (sec 8) || !duoOk (sec 9) duoMode then 0x25
  else 0

/-- The checks of R37 in the three stages of R454; 0 when the Pattern loads. -/
def patternError (key : List Byte) (part step en : Nat) (duoMode : Bool) (img : List Byte) : Nat :=
  match patParts img with
  | none => 0x21
  | some (msg, sig) => if !signed key msg sig then 0x20 else patternCode msg part step en duoMode

/-! ### The checks of an amendment (R31, R47, R456) -/

/-- What an amendment is checked against. -/
structure Loaded where
  digest : List Byte
  doms : List Dom
  queues : List Nat
  permits : List Nat
  beam : List Nat
  display : List Nat
  /-- CONFIG is TEAM. -/
  team : Bool
  deriving DecidableEq, Repr

/-- The sections in force after the amendment, were it accepted. -/
def Loaded.amended (l : Loaded) (msg : List Byte) : Loaded :=
  let pick := fun (i : Nat) (old : List Nat) => if secLen msg i = 0 then old else section_ msg i
  { l with queues := pick 3 l.queues, permits := pick 4 l.permits, beam := pick 5 l.beam }

/-- The conditions of R456 but the idle check and the permits held: the first that fails, 0 when none does. -/
def amendError (key : List Byte) (l : Loaded) (img : List Byte) : Nat :=
  match patParts img with
  | none => 4
  | some (msg, sig) =>
    if !signed key msg sig then 1
    else if (msg.drop 128).take 32 != l.digest then 2
    else if patKind msg != 1 || [1, 2, 6, 7, 8, 9].any (fun i => secLen msg i != 0) then 5
    else
      let n := l.amended msg
      if !wellFormedImage msg || (present msg).isEmpty || !queuesOk n.doms n.queues || !queueCountOk n.queues || !permitsOk n.permits ||
          (secLen msg 5 != 0 && (!beamOk n.team n.beam n.queues n.display || !vrrOk n.beam n.display)) then 4
      else 0

/-- Points at which the owner of queues may change. -/
def rangeEdges (rs : List (Nat × Nat × Nat)) : List Nat := rs.flatMap fun r => [r.1, r.1 + r.2.1]

/-- Domain of a context by its word; none when it does not exist. -/
def wordDom (qu : List Nat) (c : Nat) : Option Nat := let w := qu.getD c 0; if bitAt w 0 then some (fld w 1 3) else none

/-- The FIRE entries of a table on a context, which is what R47 compares. -/
def firesOf (be : List Nat) (c : Nat) : List (Nat × Nat × Nat × Nat) :=
  ((beamTable be).filter fun e => e.kind == 1 && fld e.w1 26 6 == c).map fun e => (e.line, e.tick, e.phases, e.w1)

/-- Domains an amendment affects (R47): those whose contexts, queues or FIRE entries it changes; all of them when it changes POOL, COMP_RESERVE
or a cost. -/
def affected (old new : Loaded) : List Nat :=
  let o := queueRanges old.queues
  let n := queueRanges new.queues
  let ctxs := (List.range 64).filter fun c =>
    let a := old.queues.getD c 0
    let b := new.queues.getD c 0
    (bitAt a 0 || bitAt b 0) && a != b || firesOf old.beam c != firesOf new.beam c
  let moved := (rangeEdges o ++ rangeEdges n).filter fun q => rangeCtx o q != rangeCtx n q
  let byCtx := ctxs.flatMap fun c => (wordDom old.queues c).toList ++ (wordDom new.queues c).toList
  let byQueue := moved.flatMap fun q =>
    ((rangeCtx o q).bind (wordDom old.queues)).toList ++ ((rangeCtx n q).bind (wordDom new.queues)).toList
  let prices := fld (old.permits.getD 0 0) 0 18 != fld (new.permits.getD 0 0) 0 18 || fld (old.permits.getD 1 0) 0 18 != fld (new.permits.getD 1 0) 0 18 ||
    costsOf old.permits != costsOf new.permits
  (List.range old.doms.length).filter fun d => prices || byCtx.contains d || byQueue.contains d

end Sys2Proof.Machine
end

