-- ==== Sys2Proof/Machine/Pipes.lean ====
section
/-! DEFINITION. Display pipes (R242 to R265, R448, R449): enabling and training, frames, line fetch, Calm, Still, AUX. -/

namespace Sys2Proof.Machine

/-! ### Enabling (R256, R257, R448, R449) -/

/-- A pipe needs PLLX (R448). -/
def Pipe.needsPllx (p : Pipe) (n : Nat) : Bool :=
  p.dsc && (if n = 0 then [1, 2, 4, 5].contains p.rateCode else p.rateCode == 10)

/-- A worker die keeps its pipes OFF (R257). -/
def Sys.pipesBarred (y : Sys) : Bool := y.glob.config != 0 && y.duo.role == 1 && !y.duo.alone

/-- The pipe's own AUX transaction: it reads the sink's receiver capabilities, DPCD 0x00000 to 0x0000F (R256; the addresses are the standard's, log
entry 70). -/
def Sys.capabilityRead (n : Nat) (y : Sys) : Sys := y.emit (.aux n 1 0 16 [])

/-- A write of EN=1 that finds EN=0 (R256, R449): accepted, it starts the capability read, then the training. -/
def Sys.pipeEnable (n : Nat) (y : Sys) : Sys :=
  let p := y.pipe n
  if p.en then y
  else if p.present = false ∨ y.glob.ready = false ∨ y.pipesBarred = true then y.reject
  else if p.needsPllx n && (y.pipe (1 - n)).en && (y.pipe (1 - n)).needsPllx (1 - n) then y.pipeEvent n 5
  else (y.modPipe n fun p =>
    { p with en := true, st := .training, trained := false, stillReq := false, exitReq := false, su := none, suRun := none, auxOwn := true, auxTries := 0 }).capabilityRead n

/-- A write of EN=0: the timing stops and the pipe is OFF (R55, R256). -/
def Sys.pipeDisable (n : Nat) (y : Sys) : Sys :=
  if (y.pipe n).en then
    (y.modPipe n fun p => { p with en := false, st := .off, trained := false, rate := 0, lanes := 0, stillReq := false, exitReq := false, su := none,
                                   suRun := none, line0 := false, waiting := [], auxOwn := false, replay := false, holdLines := 0 }).timingStopped n
  else y

/-- The link is lost: LINK_DOWN, the timing stops (R256). -/
def Sys.linkDown (n : Nat) (y : Sys) : Sys :=
  let s := (y.pipe n).st
  if s = .off ∨ s = .linkDown then y
  else ((y.modPipe n fun p => { p with st := .linkDown, trained := false, stillReq := false, exitReq := false, su := none, suRun := none, line0 := false, waiting := [], replay := false }).pipeEvent n 3).timingStopped n

/-! ### AUX (R256, R264) -/

/-- The bytes of a transaction, LEN + 1 of them. -/
def Pipe.auxBytes (p : Pipe) : List Byte := (wordsBytes p.auxData).take (fld p.auxCmd 20 4 + 1)

/-- The transaction of AUX_CMD goes out on the channel; a write carries its data. -/
def Sys.auxSend (n : Nat) (y : Sys) : Sys :=
  let p := y.pipe n
  let cmd := fld p.auxCmd 24 2
  y.emit (.aux n cmd (fld p.auxCmd 0 20) (fld p.auxCmd 20 4 + 1) (if cmd % 2 = 0 then p.auxBytes else []))

/-- The pipe's own transaction has ended: a transaction of the driver that waited goes out (R264). -/
def Sys.ownDone (n : Nat) (y : Sys) : Sys :=
  if (y.pipe n).auxOwn then
    let y := y.modPipe n fun p => { p with auxOwn := false, auxTries := 0, auxDefer := false }
    if (y.pipe n).auxSt = 1 then y.auxSend n else y
  else y

/-! ### Link events (R256) -/

/-- PIPE_ENABLE (R256). -/
def execPipeEnable (pipe : Nat) (s : State) : Res := onSys (Sys.pipeEnable (pipe % 2)) s

/-- LINK_TRAINING_END (R256): training ends well, with the rate and lanes trained, or fails. -/
def execLinkTrainingEnd (pipe : Nat) (ok : Bool) (s : State) : Res :=
  onSys (fun y =>
    let n := pipe % 2
    let p := y.pipe n
    if p.st ≠ .training ∨ p.trained = true then y
    else if ok then
      let y := (y.ownDone n).modPipe n fun p => { p with trained := true, rate := p.rateCode, lanes := fld (p.w 0) 1 2 }
      y.emit (.trained n p.rateCode (fld (p.w 0) 1 2) (bitAt (p.w 0) 19) (p.fec n))
    else ((y.ownDone n).modPipe n fun p => { p with st := .off, en := false }).pipeEvent n 7) s

/-- HPD_LOW_TIMEOUT (R256). -/
def execHpdLowTimeout (pipe : Nat) (s : State) : Res :=
  onSys (fun y => ((y.modPipe (pipe % 2) fun p => { p with hpd := false }).pipeEvent (pipe % 2) 4).linkDown (pipe % 2)) s

/-- HPD_PULSE (R256). -/
def execHpdPulse (pipe : Nat) (s : State) : Res := onSys (fun y => y.pipeEvent (pipe % 2) 4) s

/-- HPD_RISE (R256). -/
def execHpdRise (pipe : Nat) (s : State) : Res :=
  onSys (fun y => (y.modPipe (pipe % 2) fun p => { p with hpd := true }).pipeEvent (pipe % 2) 4) s

/-- LANE_LOCK_LOSS (R256). -/
def execLaneLockLoss (pipe : Nat) (s : State) : Res := onSys (Sys.linkDown (pipe % 2)) s

/-! ### Frames (R57, R247) -/

/-- The beam moves to a master pipe at its frame start (R57, R70). -/
def Sys.beamTo (n : Nat) (y : Sys) : Sys :=
  if (y.beam.newMaster = some n ∧ y.beam.master ≠ n) ∨ y.beam.moveTo = some n then
    (((y.skipRest.applyBeam (Sys.setSource n)).modBeam fun b => { b with moveTo := none }).nextFrame).atPosition
  else y.setSource n

/-- PIPE_FRAME_START (R57, R247): a pipe that waits to start does so, the master at a ghost frame start; a running pipe that does not carry
the beam starts its next frame; the frames of the pipe that carries the beam start at its BEAM_TICKs. -/
def execPipeFrameStart (pipe : Nat) (s : State) : Res :=
  onSys (fun y =>
    let n := pipe % 2
    let p := y.pipe n
    let leads := y.beam.on && !y.beamFollows && (y.beam.master == n || y.beam.newMaster == some n)
    if y.domainUp (12 + n) = false then y
    else if p.waits then
      if y.beam.on && y.beam.master == n && !y.beamFollows && !(y.beam.line == 0 && y.beam.tick == 0) then y
      else
        let y := y.firstFrame n
        if y.beam.on && y.beam.master == n && !y.beamFollows then y.beamTo n else y
    else if p.runs && y.beam.source != n then
      let y := y.frameOf n
      if leads && (y.pipe n).runs then y.beamTo n else y
    else y) s

/-! ### Line fetch (R247, R248, R250) -/

/-- A line fetched now belongs to the next frame: the beam stands below it, or the pipe is not the one that carries the beam, whose line 0 is always
fetched before its frame starts. -/
def Sys.fetchesNext (y : Sys) (n line : Nat) : Bool := y.beam.source != n || decide (line < y.beam.line)

/-- The hold frame of the frame whose line 0 is fetched now (R260). -/
def Sys.holdParity (y : Sys) (n : Nat) : Nat := (y.beam.frame + if y.beam.source == n && y.fetchesNext n 0 then 1 else 0) % 2

/-- The beam has reached line L - FETCH_AHEAD and not passed line L (R248); the position of a pipe that does not carry the beam is not kept. -/
def Sys.fetchDue (y : Sys) (n line : Nat) : Bool :=
  let p := y.pipe n
  y.beam.source != n ||
  (if y.fetchesNext n line then decide (p.vtotal + line ≤ y.beam.line + p.ahead) else decide (line ≤ y.beam.line + p.ahead))

/-- LINE_FETCH_START (R247, R248, R250): the fetch of an active line begins; late is the mask of its pixels that do not arrive in time. -/
def execLineFetchStart (pipe line late : Nat) (s : State) : Res :=
  onSys (fun y =>
    let n := pipe % 2
    let p := y.pipe n
    if p.runs = false ∨ p.vactive ≤ line ∨ p.inUpdate line = false ∨ y.domainUp (12 + n) = false ∨ y.fetchDue n line = false then y
    else
      let b := y.bandNow n
      let y := if line = 0 ∧ p.suRun.isNone then y.modPipe n fun p =>
          { p with line0 := y.fetchesNext n 0, fbNow := p.fbAddr, pitchNow := p.fbPitch, bandMode := b, lastPx := none, dscRows := [], holdNow := y.holdParity n }
        else y
      y.fetchLine n line late) s

/-! ### Calm (R258, R259, R261) -/

/-- PIPE_CALM_ENTER (R258). -/
def execPipeCalmEnter (pipe : Nat) (s : State) : Res := onSys (Sys.calmCause (pipe % 2) 0) s

/-- PIPE_CALM_EXIT (R261). -/
def execPipeCalmExit (pipe : Nat) (s : State) : Res := onSys (Sys.calmClear (pipe % 2) 0) s

/-- CALM_TIMER_EXPIRE (R259, R262): with no cause left the pipe leaves Calm with no black frame; in Still its timing restarts. -/
def execCalmTimerExpire (pipe : Nat) (s : State) : Res :=
  onSys (fun y =>
    let n := pipe % 2
    let p := y.pipe n
    if p.calm && p.timer && !p.expired && p.cause != 0 then
      (y.modPipe n fun p => { p with expired := true, timer := false, exitReq := p.exitReq || p.st == .still }).pipeEvent n 2
    else y) s

/-! ### Still (R254, R255) -/

/-- A write of STILL_ENTER on a pipe. -/
def Sys.stillEnter (n : Nat) (y : Sys) : Sys :=
  let p := y.pipe n
  if n = 0 ∧ p.pr = true ∧ p.st = .active ∧ p.calm = false ∧ (y.beam.master ≠ 0 ∨ y.fg.en = false ∨ y.fg.stopping = true) then
    y.modPipe n fun p => { p with stillReq := true }
  else y.reject

/-- A write of STILL_EXIT. -/
def Sys.stillExit (n : Nat) (y : Sys) : Sys :=
  (if n = 0 then y.stillWake else y).modPipe n fun p => if p.st = .still then { p with exitReq := true } else { p with stillReq := false }

/-- A write of PIPEn_SU.ARM with the range FIRST to LAST (R255, R262). -/
def Sys.suArm (n first last : Nat) (y : Sys) : Sys :=
  let y := (if n = 0 then y.stillWake else y).modPipe n fun p => { p with suFirst := first % 2 ^ 13, suLast := last % 2 ^ 13 }
  let p := y.pipe n
  if p.calm ∨ p.st ≠ .still then y.reject
  else y.modPipe n fun p => { p with su := match p.su with
    | some r => some (min r.1 p.suFirst, max r.2 p.suLast)
    | none => some (p.suFirst, p.suLast) }

/-- STILL_ENTER (R254): PIPE0_CTRL. -/
def execStillEnter (s : State) : Res := onSys (Sys.stillEnter 0) s

/-- STILL_EXIT (R254). -/
def execStillExit (pipe : Nat) (s : State) : Res := onSys (Sys.stillExit (pipe % 2)) s

/-- SU_ARM (R255): PIPE0_SU. -/
def execSuArm (first last : Nat) (s : State) : Res := onSys (Sys.suArm 0 first last) s

/-- The three counters cleared (R265). -/
def Sys.pipeClear (n same : Nat) (y : Sys) : Sys := y.modPipe n fun p => { p with underPx := cleared same 0, underLines := cleared same 1, calmFrames := cleared same 2 }

/-- PIPE_CLR_COUNTS (R265). -/
def execPipeClrCounts (pipe : Nat) (s : State) : Res := onSys (Sys.pipeClear (pipe % 2) 0) s

/-! ### AUX transactions of the driver (R264) -/

/-- The driver's transaction goes out unless the pipe's own is in flight (R264). -/
def Sys.driverSend (n : Nat) (y : Sys) : Sys := if (y.pipe n).auxOwn then y else y.auxSend n

/-- A write of AUX_CMD with GO=1; rejected while BUSY. -/
def Sys.auxGo (n word : Nat) (y : Sys) : Sys :=
  if (y.pipe n).auxSt = 1 then y.reject
  else (y.modPipe n fun p => { p with auxCmd := word % 2 ^ 26, auxSt := 1, auxReply := 3, auxTries := if p.auxOwn then p.auxTries else 0, auxDefer := p.auxDefer && p.auxOwn }).driverSend n

/-- The words of AUX_CMD for an address, a length field and a command. -/
def auxWord (addr len cmd : Nat) : Nat := put addr 0 20 + put len 20 4 + put cmd 24 2

/-- AUX_NATIVE_WRITE (R264). -/
def execAuxNativeWrite (pipe addr len : Nat) (s : State) : Res := onSys (Sys.auxGo (pipe % 2) (auxWord addr len 0)) s
/-- AUX_NATIVE_READ (R264). -/
def execAuxNativeRead (pipe addr len : Nat) (s : State) : Res := onSys (Sys.auxGo (pipe % 2) (auxWord addr len 1)) s
/-- AUX_I2C_WRITE (R264). -/
def execAuxI2cWrite (pipe addr len : Nat) (s : State) : Res := onSys (Sys.auxGo (pipe % 2) (auxWord addr len 2)) s
/-- AUX_I2C_READ (R264). -/
def execAuxI2cRead (pipe addr len : Nat) (s : State) : Res := onSys (Sys.auxGo (pipe % 2) (auxWord addr len 3)) s

/-- A transaction ends with a reply code (R264, R265). -/
def Sys.auxEnd (n st reply : Nat) (y : Sys) : Sys :=
  (y.modPipe n fun p => { p with auxSt := st, auxReply := reply, auxDefer := false }).pipeEvent n 6

/-- The bytes of a reply laid over the data registers. -/
def auxStore (old : List Nat) (n : Nat) (bs : List Byte) : List Nat :=
  let o := wordsBytes old
  let new := (List.range 16).map fun i => if i < n ∧ i < bs.length then bs.getD i 0 else o.getD i 0
  (List.range 4).map (wordAt new)

/-- AUX_REPLY (R264): code 0 ACK with the bytes read, 1 NACK, 2 DEFER; after the seventh retry a DEFER ends the transaction. A reply to the pipe's own
transaction ends that. -/
def execAuxReply (pipe code : Nat) (data : List Byte) (s : State) : Res :=
  onSys (fun y =>
    let n := pipe % 2
    let p := y.pipe n
    if (p.auxOwn = false ∧ p.auxSt ≠ 1) ∨ p.auxDefer = true then y
    else if 2 ≤ code % 4 ∧ p.auxTries < 7 then y.modPipe n fun p => { p with auxDefer := true }
    else if p.auxOwn then y.ownDone n
    else match code % 4 with
      | 0 =>
        let y := if fld p.auxCmd 24 1 = 1 then y.modPipe n fun p => { p with auxData := auxStore p.auxData (fld p.auxCmd 20 4 + 1) data } else y
        y.auxEnd n 2 0
      | 1 => y.auxEnd n 3 1
      | _ => y.auxEnd n 3 2) s

/-- AUX_DEFER_RETRY (R264): the deferred transaction, the pipe's own or the driver's, is sent again. -/
def execAuxDeferRetry (pipe : Nat) (s : State) : Res :=
  onSys (fun y =>
    let n := pipe % 2
    let p := y.pipe n
    if (p.auxOwn = true ∨ p.auxSt = 1) ∧ p.auxDefer = true then
      let y := y.modPipe n fun p => { p with auxDefer := false, auxTries := p.auxTries + 1 }
      if p.auxOwn then y.capabilityRead n else y.auxSend n
    else y) s

/-- AUX_TIMEOUT (R264). -/
def execAuxTimeout (pipe : Nat) (s : State) : Res :=
  onSys (fun y =>
    let n := pipe % 2
    let p := y.pipe n
    if p.auxDefer then y
    else if p.auxOwn then y.ownDone n
    else if p.auxSt = 1 then y.auxEnd n 3 3 else y) s

end Sys2Proof.Machine
end

