-- ==== Sys2Proof/Machine/Stops.lean ====
section
/-! DEFINITION. How the work of a job stops (R302, R303, R312, R315, R396, R403): its slivers, passes and vision commands; the end of a cancel and of a suspend; context Calm, die Calm and the recount of pools. -/

namespace Sys2Proof.Machine

/-! ### Passes and vision commands of a cancelled job -/

/-- Passes of a cancelled job end under R192. -/
def Sys.stopPasses (j st : Nat) (y : Sys) : Sys :=
  let y := match y.raster.active with
    | some p => if p.job = j && !p.ending then y.passStop p true st else y
    | none => y
  let y := match y.raster.parked with
    | some p => if p.job = j && !p.ending then y.passStop p false st else y
    | none => y
  (y.raster.waiting.filter fun p => p.job == j).foldl (fun y p => y.passDrop p st) y

/-- Vision commands of a cancelled job that do not run end at once; a running one ends at its next row (VISION_STOP, R217). -/
def Sys.stopVision (j st : Nat) (y : Sys) : Sys :=
  (y.vision.cmds.filter fun c => c.job == j && (c.st == 0 || c.st == 3)).foldl (fun y c => y.visionFail c st) y

/-- The waiting requests of a holder leave their semaphores (R285). -/
def Sys.noWait (w : SemHolder) (y : Sys) : Sys :=
  y.modWork fun k => { k with sems := tmap k.sems fun _ s => { s with waits := s.waits.filter fun r => r.who != w } }

/-- The work of a CANCELLING job stops as far as it can now (R303). -/
def Sys.stopJobWork (j : Nat) (y : Sys) : Sys :=
  let st := (y.job j).cancelWith
  let y := (y.coresOf j).foldl (fun y c => y.stopCore c) y
  let y := y.dropSaves fun t => y.ofJob t j
  let y := y.noWait (.job j)
  let y := y.stopPasses j st
  let y := y.stopVision j st
  ((y.bridle.tgs.filter fun t => t.2.job == j).map (·.1)).foldl (fun y t => y.stopTg t) y

/-- A job is cancelled with a status (R284, R301, R303, R315, R397). -/
def Sys.cancelJob (j st : Nat) (y : Sys) : Sys := (y.beginCancel j st).stopJobWork j

/-! ### Holding (R302, R396) -/

/-- A running vision command is told to stop; one that waits for permits goes back to the queue. -/
def Sys.holdVision (c : VCmd) (y : Sys) : Sys :=
  if c.st = 1 then y.modVCmd c.id fun k => { k with st := 2 }
  else if c.st = 3 then (y.freeEngine c).modVCmd c.id fun k => { k with st := 0 }
  else y

/-- The ACTIVE pass is to park, when PARKED is empty (R302). -/
def Sys.holdPass (p : Pass) (y : Sys) : Sys :=
  if y.raster.parked.isNone && !p.stopping then y.settlePass { p with stopping := true } else y

/-- A sliver that waits for the core that is being saved for it goes back: the save goes on for itself. -/
def Sys.recallNext (c : Nat) (y : Sys) : Sys :=
  match (y.core c).next with
  | none => y
  | some (t, n, q) =>
    let y := (y.dropHold (.sliver t n)).modCore c fun k => { k with next := none }
    let own := fun (r : PermReq) => if r.act == Act.save c then { r with holds := r.holds.filter fun h => h.who != .sliver t n } else r
    let y := y.modGirth fun g => { g with reqs := g.reqs.map own }
    if q.isNone then y.modTg t fun g => { g with redo := g.redo ++ [n] } else y

/-- Slivers that wait for permits, or for a core, to be dispatched go back to their task groups; waiting resumptions are withdrawn. -/
def Sys.recall (who : Nat → Bool) (y : Sys) : Sys :=
  let y := ((y.cores.filter fun c => match c.2.next with | some w => who w.1 | none => false).map (·.1)).foldl (fun y c => y.recallNext c) y
  let y := (y.girth.reqs.filterMap fun r => match r.act with | .dispatch t n _ => if who t then some (t, n) else none | _ => none).foldl
    (fun y p => y.modTg p.1 fun g => { g with redo := g.redo ++ [p.2] }) y
  y.modGirth fun g => { g with reqs := g.reqs.filter fun r => match r.act with
    | .dispatch t _ _ => !who t
    | .resume q _ => !((y.findSave q).any fun v => who v.run.tg)
    | _ => true }

/-- The work of a suspending job stops (R289, R302). -/
def Sys.suspendWork (j : Nat) (y : Sys) : Sys :=
  let y := y.recall fun t => y.ofJob t j && !y.runsOn t
  let y := (y.coresOf j).foldl (fun y c => y.stopCore c) y
  let y := (y.vision.cmds.filter fun c => c.job == j).foldl (fun y c => y.holdVision c) y
  match y.raster.active with
  | some p => if p.job = j then y.holdPass p else y
  | none => y

/-- All work of the die stops as for a suspend (R396). -/
def Sys.holdAll (y : Sys) : Sys :=
  let y := y.recall fun _ => true
  let y := (y.cores.map (·.1)).foldl (fun y c => y.stopCore c) y
  let y := y.vision.cmds.foldl (fun y c => y.holdVision c) y
  match y.raster.active with
  | some p => y.holdPass p
  | none => y

/-! ### Records of the holders, recount (R313, R315) -/

/-- Sum of the holders' records of a pool instance (R310, R313). -/
def Sys.holderSum (y : Sys) (p i : Nat) : Nat :=
  match p with
  | 0 => y.girth.heldBy + y.girth.withheld
  | 1 => (y.module (i / 4)).ledger.getD (i % 4) 0
  | 2 => if i = 4 then (y.stalls.map fun s => (s.2.mbox.filter fun m => m.2.full).length).sum else y.duo.hm.ledger.getD i 0
  | 3 => match i with
    | 0 => (y.bridle.queues.map fun q => q.2.slots.length).sum
    | 1 => y.vision.cmds.length
    | _ => (if y.raster.active.isSome then 1 else 0) + (if y.raster.parked.isSome then 1 else 0)
  | 4 => (y.work.sems.map fun s => s.2.held).sum
  | 5 => (tget {} y.raster.pools i).used.length
  | 6 => if i % 2 = 1 then (y.kvDom (i / 2)).slots.used.length else (y.kvDom (i / 2)).frames.used.length
  | _ => (y.dma.xfers.filter fun x => x.stall == i && !x.cancelled).length

/-- Instances of pools 5 to 7 that a domain's work uses. -/
def Sys.domInstances (y : Sys) (d : Nat) : List (Nat × Nat) :=
  [(5, d), (6, 2 * d), (6, 2 * d + 1)] ++ (maskList 64 (y.dom d).stalls).map fun s => (7, s)

/-! ### Calm (R315, R403) -/

/-- Jobs of a context that are neither DONE nor FAILED. -/
def Sys.liveJobs (y : Sys) (c : Nat) : List Nat := (y.work.jobs.filter fun j => j.2.alive && j.2.ctx == c).map (·.1)

/-- A context enters Calm: its jobs are cancelled with a status, its waiting writes to host memory are dropped, and the pipes the compositor
feeds enter Calm (R258, R315). -/
def Sys.ctxCalm (st c : Nat) (y : Sys) : Sys :=
  let y := y.modCtx c fun k => { k with calm := true }
  let drop := fun (m : Module) => { m with txq := m.txq.filter fun p => match p with | .mwr _ k _ _ => k != c | _ => true }
  let y := y.modLink fun l => { l with m0 := drop l.m0, m1 := drop l.m1 }
  let y := (y.liveJobs c).foldl (fun y j => y.cancelJob j st) y
  if (y.ctx c).compositor then
    [0, 1].foldl (fun y n => if (y.pipe n).present && y.fedBy n (y.ctx c).domain then y.calmCause n 1 else y) y
  else y

/-- Contexts that exist. -/
def Sys.validCtxs (y : Sys) : List Nat := (y.bridle.ctxs.filter fun c => c.2.valid).map (·.1)

/-- The die enters Calm: FAULT_STATUS, every context in Calm with the status of R400, both pipes, every stall gated once it is quiet (R403). -/
def Sys.enterDieCalm (cls st : Nat) (y : Sys) : Sys :=
  if y.flt.dieCalm then y else
  let y := (y.modFlt fun f => { f with dieCalm := true, cause := cls }).fltEvent 2
  let y := y.validCtxs.foldl (fun y c => y.ctxCalm st c) y
  let y := (y.calmCause 0 2).calmCause 1 2
  let y := y.modGirth fun g => { g with reqs := g.reqs.filter fun r => match r.act with | .save _ => true | _ => false }
  ((y.stalls.filter fun s => !s.2.gated).map (·.1)).foldl (fun y s => if y.stallQuiet s then y.gate s else y) y

/-- An instance is recounted after a Calm; a sum above TOTAL takes the die to Calm (R315). -/
def Sys.recount (p i : Nat) (y : Sys) : Sys :=
  let n := y.holderSum p i
  let k := y.pool p i
  if k.total < n then y.enterDieCalm 0x09 0x31
  else y.modPool p i fun k => { k with held := n, free := k.total - n }

/-- After the last job of a context in Calm has ended (R315). -/
def Sys.recountCtx (c : Nat) (y : Sys) : Sys :=
  if (y.ctx c).calm && (y.liveJobs c).isEmpty then (y.domInstances (y.ctx c).domain).foldl (fun y i => y.recount i.1 i.2) y else y

/-! ### The end of a cancel and of a suspend -/

/-- Work of a job that has not stopped yet. -/
def Sys.workLeft (y : Sys) (j : Nat) : Bool :=
  !(y.coresOf j).isEmpty || y.vision.cmds.any (fun c => c.job == j) || y.bridle.tgs.any (fun t => t.2.job == j) ||
  (y.raster.active.toList ++ y.raster.parked.toList ++ y.raster.waiting).any fun p => p.job == j

/-- The fetched packets of a job at the head of a queue complete (R303 step 6). -/
def Sys.endPackets (j st q : Nat) : Nat → Sys → Sys
  | 0, y => y
  | n + 1, y => match (y.queue q).slots with
    | p :: _ => if p.job = j then (y.packetComplete q st 0).endPackets j st q n else y
    | [] => y

/-- A CANCELLING job whose work has all stopped ends FAILED (R303). -/
def Sys.cancelEnd (j : Nat) (y : Sys) : Sys :=
  if (y.job j).st ≠ 5 then y else
  let y := y.stopJobWork j
  if y.workLeft j then y else
  let st := (y.job j).cancelWith
  let y := (y.chainsCancelled j)
  let y := (y.bridle.queues.map (·.1)).foldl (fun y q => y.endPackets j st q 2) y
  let y := y.finishJob j 7 (statusJoin (y.job j).status st)
  y.recountCtx (y.job j).ctx

/-- A transfer still in flight when its drain window closes is cancelled: its slot and the credits it holds return; reads already sent complete at
the far side and their data is discarded (R281, R326). -/
def Sys.drainCut (x : Xfer) (y : Sys) : Sys :=
  let y := y.modXfer x.id fun x => { x with cancelled := true, draining := false, todo := [], buf := [] }
  let lose := fun (r : Read) => if r.xfer = x.id then { r with xfer := 2 ^ 64 + r.xfer } else r
  let y := y.modLink fun l => { l with m0 := { l.m0 with reads := l.m0.reads.map lose }, m1 := { l.m1 with reads := l.m1.reads.map lose } }
  let y := y.modDuo fun d => { d with hm := { d.hm with reads := d.hm.reads.map lose } }
  (y.freeSlot x.stall).modBridle fun b => { b with drainCancels := satInc b.drainCancels }

/-- The drain windows of some transfers close. -/
def Sys.drainClose (p : Xfer → Bool) (y : Sys) : Sys := (y.dma.xfers.filter fun x => x.draining && !x.cancelled && p x).foldl (fun y x => y.drainCut x) y

/-- The saves of a job go to its context's save area, their granules freed (R289). The area's layout is the device's own: the bytes are free, one save behind
the other (log entry 83). -/
def Sys.saveArea (j : Nat) (y : Sys) : Sys :=
  let mine := fun (v : Save) => y.ofJob v.run.tg j
  let vs := (y.stalls.flatMap fun s => s.2.saves).filter mine
  let room := fun (l : List Save) => 256 * (l.map (·.granules)).sum
  let c := (y.job j).ctx
  let y := (y.devWrite ((y.ctx c).saveAddr + room (tget [] y.bridle.areas c)) (freeBytes y.chance (room vs))).modChance (· + room vs)
  let y := y.drainClose fun x => y.ofJob x.tg j
  let y := vs.foldl (fun y v => (y.noResume v.seq).giveGranules v.stall v.granules) y
  let y := y.modStalls fun ss => tmap ss fun _ s => { s with saves := s.saves.filter fun v => !mine v }
  y.modBridle fun b => { b with areas := tmod [] b.areas (y.job j).ctx fun l => l ++ vs }

/-- A job whose work goes on after a suspend: QUEUED when it had started nothing, else RUNNING, and DONE when its last packet ended
meanwhile (R300, R301). -/
def Sys.resumeJob (j : Nat) (y : Sys) : Sys :=
  let y := y.modJob j fun b => { b with st := if b.started then 2 else 1, resumeHeld := false }
  let y := ((y.bridle.tgs.filter fun t => t.2.job == j).map (·.1)).foldl (fun y t =>
    match (y.tg t).st with
    | .ready => y.tgBreeze t
    | .pageWait => y.kernelReserve t false
    | _ => y) y
  y.tryDone j

/-- The suspend completes: the record is written with STATUS 0x02; a RESUME held meanwhile acts (R300, R302, R305). -/
def Sys.suspended (j : Nat) (y : Sys) : Sys :=
  let y := (y.modJob j fun b => { b with st := 4 }).writeRecord j 4 0x02
  if (y.job j).resumeHeld then y.resumeJob j else y

/-- Work of a suspending job that has not stopped yet: a sliver on a core, a vision command on an engine, the ACTIVE pass. -/
def Sys.notStopped (y : Sys) (j : Nat) : Bool :=
  !(y.coresOf j).isEmpty || y.vision.cmds.any (fun c => c.job == j && c.st != 0) ||
  (match y.raster.active with | some p => p.job == j | none => false)

/-- The saves of a SUSPENDING job made so far have been copied; slivers that waited for room are saved next, and when all its work has stopped the suspend
completes (R289). -/
def Sys.suspendEnd (j : Nat) (y : Sys) : Sys :=
  if (y.job j).st ≠ 3 then y else
  let y := (y.saveArea j).standAgain
  if y.notStopped j then y else y.suspended j

end Sys2Proof.Machine
end

