-- ==== Sys2Proof/Machine/Jobs.lean ====
section
/-! DEFINITION. The job, queue, semaphore and conservation registers (R98, R300 to R307, R313 to R316) and the queue-head registers of a
stall (R103). -/

namespace Sys2Proof.Machine

/-! ### JOB_CMD (R300 to R304) -/

/-- The selected job record. -/
def Sys.selJob (y : Sys) : Nat := y.bridle.jobSel % 4096

/-- OPEN: a FREE record whose JOB_CFG names a valid context (R300). -/
def Sys.jobOpen (y : Sys) : Sys :=
  let j := y.selJob
  let b := y.job j
  if b.st = 0 ∧ (y.ctx b.ctx).valid = true then
    let y := y.modJob j fun b =>
      { b with st := 1, opens := b.opens + 1, status := 0, packets := 0, group := 0, reruns := 0, reexec := 0, lastDone := false,
               started := false, cancelWith := 0, resumeHeld := false, brandValue := [], digest := [] }
    let y := y.modSec fun c => { c with brands := tdel c.brands j }
    y.modDuo fun d => { d with unmirrored := d.unmirrored.filter (· != j) }
  else y.reject

/-- SUSPEND (R289, R300, R302). -/
def Sys.jobSuspend (y : Sys) : Sys :=
  let j := y.selJob
  let b := y.job j
  if b.st = 1 then ((y.modSec (Sec.drop (HashReq.ofJob j))).modBrand j fun r => { r with starts := [] }).suspended j
  else if (y.brandOf j).st = 3 then y.reject
  else if b.st = 2 then
    if (y.ctx b.ctx).saveAddr = 0 then y.reject.bridleEvent 2
    else (y.modJob j fun b => { b with st := 3 }).suspendWork j
  else y.reject

/-- RESUME (R300). -/
def Sys.jobResume (y : Sys) : Sys :=
  let j := y.selJob
  let b := y.job j
  if b.st = 4 then
    let y := y.resumeJob j
    if (y.brandOf j).st = 1 then y.queueHashes j false else y
  else if b.st = 3 then y.modJob j fun b => { b with resumeHeld := true }
  else y.reject

/-- CANCEL (R300, R303). -/
def Sys.jobCancel (y : Sys) : Sys :=
  let j := y.selJob
  let b := y.job j
  if 1 ≤ b.st ∧ b.st ≤ 4 ∧ (y.brandOf j).st ≠ 3 then y.cancelJob j 0x01 else y.reject

/-- CLOSE (R300). -/
def Sys.jobClose (y : Sys) : Sys :=
  let j := y.selJob
  let b := y.job j
  if b.st = 6 ∨ b.st = 7 then y.modJob j fun b => { b with st := 0 } else y.reject

/-- A write of JOB_CMD; an OP the table does not give is rejected. -/
def Sys.jobOp (op : Nat) (y : Sys) : Sys :=
  match op with
  | 0 => y.jobOpen
  | 1 => y.jobSuspend
  | 2 => y.jobResume
  | 3 => y.jobCancel
  | 4 => y.jobClose
  | _ => y.reject

/-- A host write of JOB_CMD, forwarded in TANDEM (R391). -/
def Sys.jobCmd (op : Nat) (y : Sys) : Sys := y.mirrored 0x00100A10 op (Sys.jobOp op)

def execJobOpen (s : State) : Res := onSys (Sys.jobCmd 0) s
def execJobSuspend (s : State) : Res := onSys (Sys.jobCmd 1) s
def execJobResume (s : State) : Res := onSys (Sys.jobCmd 2) s
def execJobCancel (s : State) : Res := onSys (Sys.jobCmd 3) s
def execJobClose (s : State) : Res := onSys (Sys.jobCmd 4) s

/-- JOB_CANCEL_END (R303): the job ends FAILED once all its work has stopped. -/
def execJobCancelEnd (job : Nat) (s : State) : Res := onSys (Sys.cancelEnd job) s

/-- SUSPEND_COPY_LANDED (R289). -/
def execSuspendCopyLanded (job : Nat) (s : State) : Res := onSys (Sys.suspendEnd job) s

/-! ### Semaphores and queues (R306, R316) -/

/-- A write of SEM_CFG (R316): taken only while the selected semaphore has no holder and no waiter; pool 4 follows its TOTAL (R310). -/
def Sys.semCfg (word : Nat) (y : Sys) : Sys :=
  let s := y.bridle.semSel % 4096
  let k := y.sem s
  if k.holds.isEmpty && k.waits.isEmpty then
    let n := word % 256
    (y.modSem s fun k => { k with total := n }).modPool 4 0 fun p =>
      { p with total := p.total - k.total + n, free := p.free - k.total + n }
  else y.reject

/-- SEM_CFG_WRITE (R316). -/
def execSemCfgWrite (word : Nat) (s : State) : Res := onSys (Sys.mirrored 0x00100904 word (Sys.semCfg word)) s

/-- STATE of a queue head (R98). The task group in progress decides it; a packet of another kind in progress shows RUNNING (log entry 29). -/
def Sys.queueState (y : Sys) (q : Nat) : Nat :=
  let k := y.queue q
  if !k.isOpen then 7 else
  match k.slots with
  | [] => if k.read = k.write then 0 else 1
  | p :: _ =>
    let j := (y.job p.job).st
    if j = 4 then 5 else
    if !p.started then (if j = 3 then 5 else 1) else
    if p.type = 2 then (if y.raster.parked.any (fun r => r.queue == q) then 6 else 4) else
    if p.type ≠ 1 then 4 else
    match p.work with
    | none => 4
    | some t =>
      let runs := y.cores.any fun c => match c.2.run with | some r => r.tg == t | none => false
      let saves := y.allSaves.filter fun v => v.run.tg == t
      let asks := y.girth.reqs.any fun r => match r.act with
        | .dispatch k _ _ => k == t
        | .resume n _ => saves.any fun v => v.seq == n
        | _ => false
      if (y.tg t).st = .beamWait then 2
      else if runs || (y.tg t).st == .running then 4
      else if asks then 3
      else if !saves.isEmpty && saves.all (fun v => v.parked.isSome) && (y.tg t).head.isNone then 6
      else 1

/-- Slivers of a task group that can have a priority of their own: those that hold tokens, and sliver 0 for what the task group or its job is lent
(R282). -/
def Sys.lentSlivers (y : Sys) (t : Nat) : List Nat :=
  0 :: (y.work.sems.flatMap fun s => s.2.holds.filterMap fun h => match h.who with | .sliver k n => if k = t then some n else none | _ => none)

/-- Current priority of a queue: its context's, or the highest among the slivers of its task group in progress (R98, R282). A queue no context owns has
priority 0 (log entry 59). -/
def Sys.queuePrio (y : Sys) (q : Nat) : Nat :=
  let k := y.queue q
  if !k.isOpen then 0 else
  match k.slots with
  | p :: _ => match p.work with
    | some t => if p.type = 1 then ((y.lentSlivers t).map (y.prioOf t)).foldl min (y.basePrio k.ctx) else y.basePrio k.ctx
    | none => y.basePrio k.ctx
  | [] => y.basePrio k.ctx

/-- The eight words of a queue head (R98). -/
def Sys.headWords (y : Sys) (q : Nat) : List Nat :=
  let k := y.queue q
  [put q 0 18 + put k.ctx 18 6 + put (y.queuePrio q) 24 3 + putb k.isOpen 27 + put (y.queueState q) 28 4,
   k.ringBase % 2 ^ 32, k.ringBase / 2 ^ 32 % 2 ^ 32, put k.ringLog2 0 4, put k.write 0 16, put k.read 0 16,
   put k.lastStatus 0 8 + put k.done 8 24, 0]

/-- The selected queue may be configured: EMPTY, or CLOSED with READ = WRITE (R316). -/
def Sys.queueIdle (y : Sys) (q : Nat) : Bool :=
  let k := y.queue q
  k.slots.isEmpty && k.read == k.write

/-- QCFG_BASE written whole (R316). -/
def Sys.qcfgBase (v : Nat) (y : Sys) : Sys :=
  let q := y.bridle.qcfgSel % 2 ^ 18
  if y.queueIdle q then y.modQueue q fun k => { k with ringBase := v % 2 ^ 64, read := 0, write := 0 } else y.reject

/-- QCFG_BASE_WRITE (R5, R316): the high half, then the low half that commits it. -/
def execQcfgBaseWrite (base : Nat) (s : State) : Res :=
  onSys (fun y => (y.mirrored 0x00100B08 (base / 2 ^ 32 % 2 ^ 32) id).mirrored 0x00100B04 (base % 2 ^ 32) (Sys.qcfgBase base)) s

/-- QCFG_RING written: 4 to 15; a value outside takes the nearest bound and counts (R316). -/
def Sys.qcfgRing (word : Nat) (y : Sys) : Sys :=
  let q := y.bridle.qcfgSel % 2 ^ 18
  let v := word % 16
  if y.queueIdle q then (y.modQueue q fun k => { k with ringLog2 := clamp 4 15 v, read := 0, write := 0 }).rejectIf (decide (v < 4)) else y.reject

/-- QCFG_RING_WRITE (R316). -/
def execQcfgRingWrite (word : Nat) (s : State) : Res := onSys (Sys.mirrored 0x00100B0C word (Sys.qcfgRing word)) s

/-! ### Leaving context Calm (R315) -/

/-- A write of CTX_CALM_EXIT: with GO it is accepted only when the context has no job CANCELLING; the pipes its Calm held are released
(R261, R315). -/
def Sys.ctxCalmExit (word : Nat) (y : Sys) : Sys :=
  let c := word % 64
  if bitAt word 6 then
    if y.work.jobs.any (fun j => j.2.st == 5 && j.2.ctx == c) then y.reject
    else
      let y := y.modCtx c fun k => { k with calm := false }
      if (y.ctx c).compositor then (y.calmClear 0 1).calmClear 1 1 else y
  else y

/-- CTX_CALM_EXIT (R315). -/
def execCtxCalmExit (word : Nat) (s : State) : Res := onSys (Sys.ctxCalmExit word) s

/-! ### Conservation (R313, R314, R316) -/

/-- Every instance of every pool (R310). -/
def Sys.instances (y : Sys) : List (Nat × Nat) :=
  let d := y.bridle.doms.length
  [(0, 0)] ++ (List.range 8).map (fun i => (1, i)) ++ (List.range 5).map (fun i => (2, i)) ++ (List.range 3).map (fun i => (3, i)) ++ [(4, 0)] ++
  (List.range d).map (fun i => (5, i)) ++ (List.range (2 * d)).map (fun i => (6, i)) ++
  ((List.range 64).filter y.enabled).map (fun i => (7, i))

/-- Domain an instance of pools 5 to 7 belongs to. -/
def Sys.instanceDom (y : Sys) (p i : Nat) : Option Nat :=
  match p with
  | 5 => some i
  | 6 => some (i / 2)
  | _ => y.domOfStall i

/-- A check failed (R314): recorded, logged, and its scope enters Calm. check: 0 INVARIANT, 1 OPERATION, 2 SWEEP. -/
def Sys.auditFail (p i check : Nat) (ctx : Option Nat) (y : Sys) : Sys :=
  let y := y.modCons fun c => { c with
    events := setBit c.events p, faults := satInc c.faults,
    last := put p 0 3 + put i 3 6 + put check 9 2 + put (ctx.getD 0) 11 6 + putb ctx.isSome 17 }
  let y := y.logFault { cls := 0x09, action := if p ≤ 4 then 0x06 else 0x05, status := 0x31, block := 0x09, ctx := ctx }
  if p ≤ 4 then y.enterDieCalm 0x09 0x31
  else
    let cs := match ctx with
      | some c => [c]
      | none => match y.instanceDom p i with
        | some d => y.validCtxs.filter fun c => (y.ctx c).domain == d
        | none => []
    (cs.foldl (fun y c => y.ctxCalm 0x31 c) y) |> fun y => cs.foldl (fun y c => y.recountCtx c) y

/-- AUDIT_SWEEP (R313): the firmware compares the holders' records of every instance with HELD. -/
def execAuditSweep (s : State) : Res :=
  onSys (fun y =>
    let bad := y.instances.filter fun k => y.holderSum k.1 k.2 != (y.pool k.1 k.2).held
    let y := bad.foldl (fun y k => y.auditFail k.1 k.2 2 none) y
    y.modCons fun c => { c with sweeps := satInc c.sweeps }) s

/-- The instance CONS_SEL names. -/
def Sys.consPool (y : Sys) : Pool := y.pool (fld y.cons.sel 0 3) (fld y.cons.sel 3 6)

/-- CONS_TOTAL_READ (R316): FREE and HELD are latched. -/
def Sys.consTotal (y : Sys) : Sys :=
  let p := y.consPool
  (y.modCons fun c => { c with latchFree := some p.free, latchHeld := some p.held }).readVal (p.total % 2 ^ 32)

def execConsTotalRead (s : State) : Res := onSys Sys.consTotal s

/-- CONS_CLR_COUNTS (R316). -/
def Sys.consClear (same : Nat) (y : Sys) : Sys := y.modCons fun c => { c with faults := cleared same 0, sweeps := cleared same 1, semAuto := cleared same 2 }

def execConsClrCounts (s : State) : Res := onSys (Sys.consClear 0) s

/-! ### Queue heads and counters of a stall (R103, R132) -/

/-- Queue that STALL_QSEL of stall s names (R34, R103). -/
def Sys.qselQueue (y : Sys) (s : Nat) : Nat := 4096 * s + (y.stall s).qselHead

/-- A write of STALL_QSEL: a change of HEAD clears the latch. -/
def Sys.stallQsel (n word : Nat) (y : Sys) : Sys :=
  y.modStall n fun k =>
    { k with qselHead := fld word 0 12, qselWord := fld word 12 3, qlatch := if fld word 0 12 = k.qselHead then k.qlatch else none }

/-- A write to the window of an enabled stall takes effect; that of a disabled one only counts (R16). -/
def Sys.ifEnabled (n : Nat) (f : Sys → Sys) (y : Sys) : Sys := if y.enabled n then f y else y.reject

/-- STALL_QSEL_WRITE (R16, R103). -/
def execStallQselWrite (stall word : Nat) (s : State) : Res := onSys (Sys.ifEnabled (stall % 64) (Sys.stallQsel (stall % 64) word)) s

/-- A read of STALL_QDATA: with WORD=0 it latches all eight words; words 1 to 7 come from the latch, or from the head while none stands. -/
def Sys.stallQdata (n : Nat) (y : Sys) : Sys :=
  let now := y.headWords (y.qselQueue n)
  if (y.stall n).qselWord = 0 then (y.modStall n fun k => { k with qlatch := some now }).readVal (now.getD 0 0)
  else y.readVal (((y.stall n).qlatch.getD now).getD (y.stall n).qselWord 0)

/-- STALL_QDATA_READ (R16, R103). -/
def execStallQdataRead (stall : Nat) (s : State) : Res :=
  onSys (fun y => if y.enabled (stall % 64) then y.stallQdata (stall % 64) else y.readVal 0) s

/-- STALL_CTRL.CLR_COUNTS (R103). -/
def Sys.stallClear (n same : Nat) (y : Sys) : Sys := y.modStall n fun k => { k with tileOverruns := cleared same 0, gsRange := cleared same 1, subst := cleared same 2 }

def execStallClrCounts (stall : Nat) (s : State) : Res := onSys (Sys.ifEnabled (stall % 64) (Sys.stallClear (stall % 64) 0)) s

/-- STALL_QCTRL.CLR_COUNTS (R132). -/
def Sys.stallQclear (n same : Nat) (y : Sys) : Sys := y.modStall n fun k => { k with expSat := cleared same 0, convSat := cleared same 1, escapes := cleared same 2, regauges := cleared same 3 }

def execStallQclrCounts (stall : Nat) (s : State) : Res := onSys (Sys.ifEnabled (stall % 64) (Sys.stallQclear (stall % 64) 0)) s

end Sys2Proof.Machine
end

