-- ==== Sys2Proof/Machine/Preempt.lean ====
section
/-! DEFINITION. Dispatch, grants, pre-emption, saves and restores, drain windows, the holding limit, breeze-in (R94, R102, R274 to R281, R284,
R290, R363). -/

namespace Sys2Proof.Machine

/-! ### What a grant starts (R102, R275, R279, R363, R376) -/

/-- A granted dispatch whose core or task group can no longer take it goes back; its permits return. -/
def Sys.backOut (t n : Nat) (y : Sys) : Sys :=
  let y := y.dropHold (.sliver t n)
  if (tfind y.bridle.tgs t).isSome then y.modTg t fun g => { g with redo := g.redo ++ [n] } else y

/-- The work a grant was asked for starts. -/
def Sys.grantAct (a : Act) (y : Sys) : Sys :=
  match a with
  | .dispatch t n c =>
    if y.coreFree c && (tfind y.bridle.tgs t).isSome && y.jobRuns t && !(y.tg t).cut && !(y.ctxHeld (y.tg t).ctx) then y.launch t n c
    else y.backOut t n
  | .save c => y.modCore c fun k => if k.frozen then { k with st := .saving } else k
  | .resume q c =>
    match y.findSave q with
    | some v =>
      if y.coreFree c then y.modCore c fun k => { k with st := .restoring, resume := some q }
      else (y.dropHold (.sliver v.run.tg v.run.sliver)).dropHold (.save c)
    | none => y.dropHold (.save c)
  | .wake s => y.modStall s fun k => if k.gated then { k with waking := true } else k
  | .dma _ => y.pumpAll
  | .rasterFront => y.modRaster fun r => { r with active := r.active.map fun p => { p with front := true } }
  | .tileOwner _ => y
  | .texture n => y.textureRun n
  | .vision _ id => y.visionRun id

/-- The request served next is granted, when it can be (R363). -/
def Sys.grantOne (y : Sys) : Sys :=
  match y.grantNext with
  | (y, some a) => y.grantAct a
  | (y, none) => y

/-- Every request that can be granted in the order of R363 is, up to n. -/
def Sys.grantAll : Nat → Sys → Sys
  | 0, y => y
  | n + 1, y => match y.grantNext with
    | (y, some a) => (y.grantAct a).grantAll n
    | (y, none) => y

/-- PERMIT_GRANT (R363). -/
def execPermitGrant (s : State) : Res := onSys Sys.grantOne s

/-- SLIVER_DISPATCH (R94, R102, R271, R272): the next sliver of a domain asks for its permits and starts when they are granted. -/
def execSliverDispatch (domain : Nat) (s : State) : Res :=
  onSys (fun y =>
    match y.pick domain with
    | none => y
    | some p => let y := y.requestPick p; y.grantAll y.girth.reqs.length) s

/-- BREEZE_IN_STEP (R290): the next stall of a release is released; grants that waited for it follow. -/
def execBreezeInStep (s : State) : Res :=
  onSys (fun y => let y := y.modBridle fun b => { b with breeze := b.breeze.drop 1 }; y.grantAll y.girth.reqs.length) s

/-! ### Pre-emption requests (R274) -/

/-- Waiting slivers of a domain at a priority that have no request yet: saves that may be resumed, then task groups in turn (R272, R274). -/
def Sys.candidates (y : Sys) (d p : Nat) : List Cand :=
  let stand := fun (k : Cand) => (y.cores.filter fun c => match c.2.run with | some r => r.pre.any (fun q => q.cand == some k) | none => false).length
  let saves := (y.allSaves.filter fun v => y.saveReady v && y.savePrio v == p && (y.ctx (y.tg v.run.tg).ctx).domain == d).mergeSort
    fun a b => decide (a.seq ≤ b.seq)
  ((saves.map fun v => Cand.saved v.seq).filter fun k => stand k == 0) ++
  (((y.turn d p).map Cand.fresh).filter fun k => match k with
    | .fresh t => decide (stand k < (y.tg t).left)
    | .saved _ => false)

/-- Cores of a domain that run a sliver of lower priority than p (R274): for a save in a stall's region only cores of its stall (R279). -/
def Sys.lowerCores (y : Sys) (d p : Nat) (k : Cand) : List (Nat × Run) :=
  (y.cores.filterMap fun c => match c.2.run with
    | some r =>
      if bitAt (y.dom d).stalls (stallOf c.1) && (c.2.st == .running || c.2.st == .saving) && decide (p < y.prioOf r.tg r.sliver) &&
         (match k with
          | .fresh _ => true
          | .saved q => ((y.stall (stallOf c.1)).saves.any fun v => v.seq == q) || !((y.stalls.flatMap fun s => s.2.saves).any fun v => v.seq == q))
      then some (c.1, r) else none
    | none => none)

/-- Live state of a victim (R274). -/
def Sys.liveState (y : Sys) (r : Run) : Nat := r.live + 128 * (y.tg r.tg).eng

/-- The cores that qualify for a pre-emption (R274): not under a request, SAVING or RESTORING, with a save that fits its stall's region. -/
def Sys.victims (y : Sys) (d p : Nat) (k : Cand) : List (Nat × Run) :=
  (y.lowerCores d p k).filter fun c => (y.core c.1).st == .running && !(y.core c.1).frozen && c.2.pre.isNone &&
    decide (saveGranules c.2.live (y.tg c.2.tg).eng ≤ (y.stall (stallOf c.1)).saveFree)

/-- One pre-emption request of a domain (R274 to R276): BLOCKED counts when the first waiting sliver finds no core that qualifies, and the next ones
are then tried (log entry 75). Waiters whose holder does not run yield first (R283). -/
def Sys.preempt (d : Nat) (y : Sys) : Sys :=
  let y := y.yieldWaiters
  if !(y.freeCores d).isEmpty then y else
  let wants := (List.range 8).flatMap fun p => ((y.candidates d p).filter fun k => !(y.lowerCores d p k).isEmpty).map fun k => (p, k)
  let y := match wants with
    | (p, k) :: _ => if (y.victims d p k).isEmpty then (y.modBridle fun b => { b with preemptBlocked := satInc b.preemptBlocked }).bridleEvent 1 else y
    | [] => y
  match wants.find? fun w => !(y.victims d w.1 w.2).isEmpty with
  | none => y
  | some (p, k) =>
    match minBy (fun c => ((8 - y.prioOf c.2.tg c.2.sliver) * 2 ^ 20 + y.liveState c.2) * 2 ^ 16 + c.1) (y.victims d p k) with
    | none => y
    | some (c, r) =>
      let y := (y.reserve c (some k) p).1
      if r.atBoundary then (y.boundary c).grantAll y.girth.reqs.length else y

/-- PREEMPT_REQUEST (R274). -/
def execPreemptRequest (domain : Nat) (s : State) : Res := onSys (Sys.preempt domain) s

/-! ### Saves (R92, R93, R275 to R277, R281, R287) -/

/-- What a save changes in the records of R277 and R278. -/
def Sys.countSwitch (p : PreReq) (live eng : Nat) (held : Bool) (y : Sys) : Sys :=
  let sw := min 0xFFFF (switchNs y.girth.op live eng)
  let ns := min 0xFFFF (cdiv ((y.glob.refCycles - p.time) * 10000) 384)
  y.modBridle fun b =>
    { b with preempts := if held then b.preempts else satInc b.preempts,
             maxSwitch := if p.cand.isSome then max b.maxSwitch sw else b.maxSwitch,
             maxPreempt := if p.cand.isSome && p.prio == 0 then max b.maxPreempt ns else b.maxPreempt }

/-- SAVE_COMPLETE (R275): the save is in the region, the victim's permits return, and the waiting sliver takes the core. -/
def Sys.saveDone (c : Nat) (y : Sys) : Sys :=
  let k := y.core c
  match k.st, k.run with
  | .saving, some r =>
    let s := stallOf c
    let eng := (y.tg r.tg).eng
    let p := r.pre.getD { cand := none, prio := 0, granules := saveGranules r.live eng, live := r.live }
    let used := min p.granules (saveGranules r.live eng)
    let held := (y.job (y.tg r.tg).job).st == 3 || y.duo.hold
    let entry := match r.wait with | .mbox e _ _ => if (tget ({} : Mbox) (y.stall s).mbox e).full then none else some e | _ => none
    let (q, y) := y.seqNo
    let v : Save := { run := r.saved, ls := y.lsRead c 0 r.live, granules := used, seq := q, parked := entry.map (fun e => (s, e)), stall := s }
    let y := (y.dropHold (.sliver r.tg r.sliver)).giveGranules s (p.granules - used)
    let y := y.modStall s fun k => { k with saves := k.saves ++ [v] }
    let y := match entry with
      | some e => (y.modStall s fun (k : Stall) => { k with mbox := tmod ({} : Mbox) k.mbox e fun m => { m with parked := true } }).modBridle fun b =>
          { b with parks := satInc b.parks }
      | none => y
    let y := y.modDma fun d => { d with xfers := d.xfers.map fun x => if x.core = c ∧ x.tg = r.tg ∧ x.sliver = r.sliver then { x with draining := true } else x }
    let y := if p.cand.isSome && p.prio == 0 then y.drainClose fun x => x.core == c && x.tg == r.tg && x.sliver == r.sliver else y
    let y := y.countSwitch p r.live eng held
    let y := y.modCore c fun k => { k with st := .idle, run := none, next := none, frozen := false }
    let y := match k.next with
      | some (t, n, none) => (y.dropHold (.save c)).takeCore c (t, n, none)
      | some w => y.takeCore c w
      | none => y.dropHold (.save c)
    y.standAgain.yieldWaiters
  | _, _ => y

def execSaveComplete (core : Nat) (s : State) : Res := onSys (Sys.saveDone core) s

/-- A cancelled transfer is issued again, whole, under its ticket (R281); one still in flight goes on with the sliver's new core. -/
def Sys.reissue (c t n : Nat) (y : Sys) : Sys :=
  let s := stallOf c
  let mine := y.dma.xfers.filter fun x => x.tg == t && x.sliver == n
  let again := mine.filter fun x => x.cancelled
  let y := y.modDma fun d => { d with xfers := d.xfers.map fun x =>
    if x.tg = t ∧ x.sliver = n then { x with core := c, stall := s, draining := false, cancelled := false } else x }
  let y := again.foldl (fun y x => (y.modPool 7 s (Pool.take 1)).modXfer x.id fun k => { k with todo := y.xferReads k }) y
  let y := if again.isEmpty || y.holds (.dma s) then y else
    y.request { holds := [{ who := .dma s, cost := y.cost 7, ctx := (y.tg t).ctx }], prio := y.prioOf t n, act := .dma s }
  again.foldl (fun y x => y.pump x.id) y

/-- The sliver on a core goes on after its restore: a mailbox entry that is full is collected, a ticket that has ended is passed. -/
def Sys.afterRestore (c : Nat) (mb : Nat) (y : Sys) : Sys :=
  match (y.core c).run with
  | none => y
  | some r =>
    match r.cancel with
    | some st => y.failCore c st
    | none =>
      match r.wait with
      | .mbox e d b => if (tget ({} : Mbox) (y.stall mb).mbox e).full then y.collect c mb e d b else y
      | .none => y.goTo c r r.pc
      | _ => y.wakeXfers c

/-- RESTORE_COMPLETE (R279): the save is reloaded, its granules freed, SAVE returned, and the sliver continues. -/
def Sys.restoreDone (c : Nat) (y : Sys) : Sys :=
  let k := y.core c
  match k.st, k.resume with
  | .restoring, some q =>
    match y.findSave q with
    | none => (y.dropHold (.save c)).modCore c fun k => { k with st := .idle, resume := none }
    | some v =>
      let region := y.stalls.any fun s => s.2.saves.any fun w => w.seq == q
      let y := y.modStalls fun ss => tmap ss fun _ s => { s with saves := s.saves.filter fun w => w.seq != q }
      let y := y.modBridle fun b => { b with areas := tmap b.areas fun _ l => l.filter fun w => w.seq != q }
      let y := if region then y.giveGranules v.stall v.granules else y
      let y := y.dropHold (.save c)
      let y := match v.parked with
        | some (s, e) => y.modStall s fun (k : Stall) => { k with mbox := tmod ({} : Mbox) k.mbox e fun m => { m with parked := false } }
        | none => y
      let y := y.modCore c fun k => { k with st := .running, resume := none, frozen := false, run := some v.run, ls := Store.write {} lsGr 0 v.ls }
      ((y.reissue c v.run.tg v.run.sliver).afterRestore c v.stall).standAgain
  | _, _ => y

def execRestoreComplete (core : Nat) (s : State) : Res := onSys (Sys.restoreDone core) s

/-- DRAIN_WINDOW_CLOSE (R281): the transfers of the slivers saved from a core that are still in flight are cancelled. -/
def execDrainWindowClose (core : Nat) (s : State) : Res := onSys (Sys.drainClose fun x => x.core == core) s

/-! ### The holding limit (R284) -/

/-- HOLD_LIMIT_EXPIRE (R284): the timer of the k-th holding of a semaphore reaches the limit. -/
def execHoldLimitExpire (sem k : Nat) (s : State) : Res :=
  onSys (fun y =>
    match (y.sem sem).holds[k]? with
    | none => y
    | some h =>
      if y.holdTimed sem h then
        let j := y.holderJob h.who
        (y.holdOver h.who).stopJobWork j
      else y) s

/-! ### Counters (R293) -/

def Sys.bridleClear (same : Nat) (y : Sys) : Sys :=
  y.modBridle fun b => { b with preempts := cleared same 0, preemptBlocked := cleared same 1, lends := cleared same 2, holdCancels := cleared same 3, parks := cleared same 4, affHits := cleared same 5, affStale := cleared same 6,
                                drainCancels := cleared same 7, maxSwitch := 0, maxPreempt := 0 }

/-- BRIDLE_CLR_COUNTS (R293). -/
def execBridleClrCounts (s : State) : Res := onSys (Sys.bridleClear 0) s

end Sys2Proof.Machine
end

