-- ==== Sys2Proof/Machine/Girth.lean ====
section
/-! DEFINITION. Girth (R358 to R382): the limit and WITHHELD, the governor, steps, droop, the squall line, heat, calibration and shedding,
gating of stalls, Lull. -/

namespace Sys2Proof.Machine

/-! ### The limit (R361, R362) -/

/-- L_n before its floor: min(POOL, floor(i_cap × 4,096 / G)). -/
def Sys.rawLimit (y : Sys) (n : Nat) : Nat :=
  let g := y.girth
  min (y.pool 0 0).total ((g.cap - g.other) * 1000 * 4096 / (opMv.getD n 620 * g.gain))

/-- L_n (R361). -/
def Sys.limitAt (y : Sys) (n : Nat) : Nat := max y.girth.compReserve (y.rawLimit n)

/-- L of the point in force is taken up and WITHHELD follows (R361, R362). -/
def Sys.newLimit (y : Sys) : Sys := (y.modGirth fun g => { g with limit := y.limitAt g.op }).settleLimit

/-- Every holding is repriced at once (R360). -/
def Sys.reprice (n : Nat) (y : Sys) : Sys :=
  let old := y.girth.heldBy
  let new := y.girth.heldAt n
  let y := y.modPool 0 0 fun p => { p with held := p.held - old + new, free := p.free + old - new }
  (y.modGirth fun g => { g with priceOp := n, holds := g.holds.map fun h => { h with op := n } }).newLimit

/-! ### Demand (R367) -/

/-- One holding in the grant order: rank (compositor 0, else 1 + priority), cost, count of equal shares, whether it is a sliver, whether it is
compositor work. -/
structure Item where
  rank : Nat
  cost : Nat
  n : Nat := 1
  sliver : Bool := false
  comp : Bool := false
  /-- Further shares taken with it (CORE_AWAKE of a core still gated). -/
  extra : Nat := 0
  deriving DecidableEq, Repr

/-- Effective priority of what a holder serves; awake holdings come first. -/
def Sys.holderRank (y : Sys) (h : Holding) : Nat :=
  if some h.ctx == y.compositor then 0 else
  match h.who with
  | .coreAwake _ => 0
  | .stallAwake _ => 0
  | .sliver t n => 1 + y.prioOf t n
  | .save c => match (y.core c).run with | some r => 1 + y.prioOf r.tg r.sliver | none => 1 + y.basePrio h.ctx
  | _ => 1 + y.basePrio h.ctx

/-- A holding as an item. -/
def Sys.holdItem (y : Sys) (h : Holding) : Item :=
  { rank := y.holderRank h, cost := h.cost, n := h.n, sliver := (match h.who with | .sliver _ _ => true | _ => false),
    comp := some h.ctx == y.compositor }

/-- READY slivers of a task group that have not asked for permits. -/
def Sys.leftOf (y : Sys) (t : Nat) : Nat := if y.tgReady t then (y.tg t).left else 0

/-- The waiting slivers of a domain as items: the first ones on its awake free cores, the others on gated stalls, each stall with its
STALL_AWAKE and DMA holdings and each core with CORE_AWAKE (log entry 31). -/
def Sys.waitItems (y : Sys) (d : Nat) : List Item :=
  let c := y.compositor
  let ts := (y.bridle.tgs.filter fun t => (y.ctx t.2.ctx).domain == d && decide (0 < y.leftOf t.1)).map (·.1)
  let ts := ts.mergeSort fun a b => decide ((if some (y.tg a).ctx == c then 0 else 1 + y.prioOf a 0) ≤ (if some (y.tg b).ctx == c then 0 else 1 + y.prioOf b 0))
  let free := (y.freeCores d).length
  let gated := 64 * ((maskList 64 (y.dom d).stalls).filter fun s => y.enabled s && (y.stall s).gated && !(y.stall s).failed).length
  let slots := ts.flatMap fun t =>
    let it : Item := { rank := if some (y.tg t).ctx == c then 0 else 1 + y.prioOf t 0, cost := (y.sliverHold t 0).cost, sliver := true,
                       comp := some (y.tg t).ctx == c }
    List.replicate (min (y.leftOf t) (free + gated)) it
  (slots.take (free + gated)).zipIdx.flatMap fun p =>
    if p.2 < free then [p.1]
    else
      let it := { p.1 with extra := y.cost 0 }
      if (p.2 - free) % 64 = 0 then [{ p.1 with cost := y.cost 6, sliver := false }, { p.1 with cost := y.cost 7, sliver := false }, it] else [it]

/-- Everything that holds or waits, in the order of R363 (R367). -/
def Sys.demand (y : Sys) : List Item :=
  let all := y.girth.holds.map y.holdItem ++ y.girth.reqs.flatMap (fun r => r.holds.map fun h =>
      { y.holdItem h with rank := if some h.ctx == y.compositor then 0 else 1 + r.prio }) ++
    (List.range y.bridle.doms.length).flatMap y.waitItems
  all.mergeSort fun a b => decide (a.rank ≤ b.rank)

/-- Count the slivers that fit: used so far, reserve still unused by the compositor. -/
def fitCount (op limit : Nat) : List Item → Nat → Nat → Nat
  | [], _, _ => 0
  | i :: t, used, res =>
    let p := i.n * price op i.cost + price op i.extra
    let draw := if i.comp then min res p else 0
    let used := used + (p - draw)
    if limit < used then 0 else (if i.sliver then 1 else 0) + fitCount op limit t used (res - draw)

/-- N_n (R367). -/
def Sys.slots (y : Sys) (n : Nat) (items : List Item) : Nat :=
  let res := if y.compositor.isSome then y.girth.compReserve else 0
  fitCount n (y.limitAt n) items res res

/-! ### Hints (R368) -/

/-- The job's work counts: it is not SUSPENDING or SUSPENDED. -/
def Sys.counts (y : Sys) (j : Nat) : Bool := (y.job j).st != 3 && (y.job j).st != 4

/-- Contexts with READY or RUNNING work (R368). -/
def Sys.workCtxs (y : Sys) : List Nat :=
  let saved := fun (t : Nat) => y.allSaves.any fun v => v.run.tg == t && y.saveReady v
  let onCore := fun (t : Nat) => y.cores.any fun c => match c.2.run with | some r => r.tg == t | none => false
  let asks := fun (t : Nat) => y.girth.reqs.any fun r => match r.act with | .dispatch k _ _ => k == t | _ => false
  ((y.bridle.tgs.filter fun t => y.counts t.2.job && t.2.st != .beamWait &&
      (t.2.st != .ready || t.2.head.isSome || onCore t.1 || asks t.1 || saved t.1)).map (·.2.ctx)) ++
  (((y.raster.active.toList ++ y.raster.parked.toList ++ y.raster.waiting).filter fun p => y.counts p.job).map (·.ctx)) ++
  ((y.vision.cmds.filter fun c => y.counts c.job).map (·.ctx))

/-- FLOOR and CEIL of a context. -/
def Sys.hintOf (y : Sys) (c : Nat) : Nat × Nat := tget (6, 0) y.girth.hints c

/-- Points of OP_MASK, ascending. -/
def Girth.points (g : Girth) : List Nat := maskList 7 g.opMask

/-- The candidates of R368 and R369, and CEIL_eff. -/
def Sys.opCands (y : Sys) : List Nat × Nat :=
  let g := y.girth
  if g.fixed then ([g.fixedOp], 0) else
  let cs := y.workCtxs
  if cs.isEmpty then (g.points, 0) else
  let floor := (cs.map fun c => (y.hintOf c).1).foldl min 6
  let ceil := (cs.map fun c => (y.hintOf c).2).foldl min 6
  let r := if floor < ceil then g.points.filter (· == floor) else g.points.filter fun n => decide (ceil ≤ n ∧ n ≤ floor)
  if r.isEmpty then
    (match (g.points.filter (· ≤ floor)).getLast? with
     | some n => ([n], ceil)
     | none => (g.points.take 1, ceil))
  else (r, ceil)

/-! ### Steps (R360, R370, R372) -/

/-- A voltage is requested of rail 0 over AVSBus (R370, R380). -/
def Sys.avsWrite (mv : Nat) (y : Sys) : Sys := (y.modGirth fun g => { g with mv := mv, avsTries := 0 }).emit (.avs mv)

/-- A step ended; completed ones count (R370). -/
def Sys.stepEnd (done : Bool) (y : Sys) : Sys :=
  y.modGirth fun g => { g with step := .idle, rampDone := false, disturbed := true, steps := if done then satInc g.steps else g.steps }

/-- A step begins (R360, R370, R380). -/
def Sys.startStep (n : Nat) (y : Sys) : Sys :=
  let g := y.girth
  if n < g.op then
    let more := g.heldAt n - g.heldBy
    if g.avsFail || decide ((y.pool 0 0).free < more + y.unusedReserve) then y
    else
      let y := y.reprice n
      (y.modGirth fun g => { g with step := .voltageUp, stepTo := n, rampDone := false, disturbed := true }).avsWrite (opMv.getD n 620)
  else if g.op < n then
    let y := y.modGirth fun g => { g with op := n, stepTo := n, disturbed := true }
    if g.avsFail then (y.reprice n).stepEnd true
    else (y.modGirth fun g => { g with step := .voltageDown }).avsWrite (opMv.getD n 620)
  else y

/-- The die is forced to OP6: the clock at once, any step abandoned, 0.50 V requested after it; prices follow when the voltage has settled
(R373, R374). It is no step of R370: a decision may start one meanwhile (log entry 60). -/
def Sys.forceSlow (y : Sys) : Sys :=
  if y.girth.state ≠ 0 then y else
  let y := y.modGirth fun g => { g with op := 6, priceOp := 6, stepTo := 6, rampDone := false, disturbed := true, step := .idle }
  if y.girth.avsFail then y.reprice 6
  else (y.modGirth fun g => { g with step := .forced }).avsWrite 500

/-- The next slower point of OP_MASK. -/
def Girth.slower (g : Girth) (n : Nat) : Nat := ((g.points.filter fun k => decide (n < k)).head?).getD (max n ((g.points.getLast?).getD 6))

/-- A decision of the governor (R361, R367 to R369, R373, R374). -/
def Sys.govern (y : Sys) : Sys :=
  let g := y.girth
  if y.glob.ready = false ∨ g.state ≠ 0 ∨ g.moving = 1 then y else
  let items := y.demand
  let score := fun n => opKHz.getD n 0 * y.slots n items
  let (cs, ceil) := y.opCands
  let best := (minBy (fun n => (2 ^ 48 - score n) * 8 + (7 - n)) cs).getD g.op
  let target := if g.throttle then max best (g.slower g.op) else best
  let hint := !g.fixed && g.points.any fun n => decide (n < ceil) && !cs.contains n && decide (score best < score n)
  let slow := cs.any fun n => decide (n < target)
  let floored := decide (g.cap < g.other) || g.points.any fun n => decide (y.rawLimit n < g.compReserve)
  let y := (y.modGirth fun g => { g with target := target, reasons := putb slow 0 + putb hint 4 }).newLimit
  let y := if floored then y.girthEvent 4 else y
  if (y.girth.step = .idle ∨ y.girth.step = .forced) ∧ y.girth.squallHeld = false ∧ target ≠ y.girth.op then y.startStep target else y

/-- The die enters LULL when every enabled stall is gated and no pass or vision command runs (R377, R378). -/
def Sys.lullCheck (y : Sys) : Sys :=
  let awake := (List.range 64).any fun s => y.enabled s && (!(y.stall s).gated || (y.stall s).waking)
  if y.glob.ready = true ∧ y.girth.state = 0 ∧ y.girth.moving = 0 ∧ awake = false ∧ y.raster.active.isNone ∧ y.vision.cmds.all (fun c => c.st == 0) then
    let y := y.modGirth fun g => { g with state := 1, op := 6, stepTo := 6, step := .idle, rampDone := false, stretched := false, disturbed := true }
    (y.reprice 6).avsWrite 500
  else y

/-- Every 100 µs: the die may have come to rest; otherwise the governor decides (R367). -/
def execGovernorDecision (s : State) : Res := onSys (fun y => y.lullCheck.govern) s

/-- VOLTAGE_SETTLED (R370, R372, R373, R380): the transaction succeeded; an upward step raises the frequency, a downward one returns its
permits. -/
def execVoltageSettled (s : State) : Res :=
  onSys (fun y =>
    let y := y.modGirth fun g => { g with avsFail := false, avsTries := 0 }
    match y.girth.step with
    | .voltageUp => ((y.modGirth fun g => { g with op := g.stepTo }).newLimit).stepEnd true
    | .voltageDown => (y.reprice y.girth.op).stepEnd true
    | .forced => (y.reprice 6).stepEnd false
    | .frozenUp => y.modGirth fun g => { g with rampDone := true }
    | _ => y) s

/-- AVS_TIMEOUT (R380, R381): two retries; the third failure sets AVS_FAIL, ends an upward step at its slower end point and lets a downward one
complete by frequency alone. -/
def execAvsTimeout (s : State) : Res :=
  onSys (fun y =>
    if y.girth.avsTries < 2 then y.modGirth fun g => { g with avsTries := g.avsTries + 1 }
    else
      let y := (y.modGirth fun g => { g with avsTries := 0, avsFail := true }).girthEvent 6
      match y.girth.step with
      | .voltageUp => (y.reprice y.girth.op).stepEnd false
      | .frozenUp => (y.reprice y.girth.op).stepEnd false
      | .voltageDown => (y.reprice y.girth.op).stepEnd true
      | .frozenDown => (y.reprice y.girth.op).stepEnd true
      | .forced => (y.reprice 6).stepEnd false
      | .idle => y) s

/-! ### Droop (R371, R372) -/

/-- A trip freezes the step; a downward ramp is turned back by writing the faster end point's voltage. -/
def Sys.freeze (y : Sys) : Sys :=
  match y.girth.step with
  | .voltageUp => y.modGirth fun g => { g with step := .frozenUp, rampDone := false }
  | .voltageDown => (y.modGirth fun g => { g with step := .frozenDown }).avsWrite (opMv.getD y.girth.priceOp 620)
  | _ => y

/-- DROOP_TRIP (R371, R372): detectors 0 to 63 are the stalls', 64 to 71 the mesh's. -/
def execDroopTrip (detector : Nat) (s : State) : Res :=
  onSys (fun y => (y.modGirth fun g =>
    { g with droopNow := setBit g.droopNow (detector % 72), droops := satInc g.droops, stretched := true, disturbed := true }).freeze) s

/-- DROOP_CLEAR (R371): no detector has been tripped for 16 delivered cycles; the edges suppressed meanwhile are counted. -/
def execDroopClear (edges : Nat) (s : State) : Res :=
  onSys (fun y => y.modGirth fun g =>
    if g.stretched then { g with droopNow := 0, stretched := false, stretch := satAdd g.stretch edges } else g) s

/-- STEP_RESUME (R372): the frozen step goes on toward its target, or ends at its slower end point when the target has changed. -/
def execStepResume (s : State) : Res :=
  onSys (fun y =>
    let g := y.girth
    if g.droopNow ≠ 0 ∨ g.stretched = true then y else
    match g.step with
    | .frozenUp =>
      if g.target ≠ g.stepTo then ((y.reprice g.op).stepEnd false).startStep g.target
      else if g.rampDone then ((y.modGirth fun g => { g with op := g.stepTo }).newLimit).stepEnd true
      else y.modGirth fun g => { g with step := .voltageUp }
    | .frozenDown =>
      if g.target ≠ g.stepTo then ((y.reprice g.op).stepEnd false).startStep g.target
      else (y.modGirth fun g => { g with step := .voltageDown }).avsWrite (opMv.getD g.stepTo 620)
    | _ => y) s

/-! ### The squall line (R373) -/

/-- SQUALL_FALL (R373): OP6 unless the hold of an earlier fall keeps it already. -/
def execSquallFall (s : State) : Res :=
  onSys (fun y =>
    let g := y.girth
    let y := y.modGirth fun g => { g with squallLow := true, squallHeld := true }
    if g.squallLow then y else (if g.squallHeld then y else y.forceSlow).girthEvent 0) s

/-- SQUALL_RISE (R373): the hold runs from here. -/
def execSquallRise (s : State) : Res := onSys (fun y => y.modGirth fun g => { g with squallLow := false }) s

/-- SQUALL_HOLD_EXPIRE (R373): the governor decides at once. -/
def execSquallHoldExpire (s : State) : Res :=
  onSys (fun y =>
    if y.girth.squallHeld && !y.girth.squallLow then (y.modGirth fun g => { g with squallHeld := false }).govern else y) s

/-! ### Heat (R374, R445) -/

/-- THERMAL_SAMPLE (R374): the hottest sensor reads a temperature in °C. -/
def execThermalSample (celsius : Nat) (s : State) : Res :=
  onSys (fun y =>
    let t := min celsius 255
    let g := y.girth
    let y := y.modGirth fun g => { g with hottest := t, peak := max g.peak t }
    let y := if g.thTarget ≤ t ∧ g.throttle = false then (y.modGirth fun g => { g with throttle := true }).girthEvent 1
      else if t + 2 < g.thTarget then y.modGirth fun g => { g with throttle := false } else y
    let y := if 105 ≤ t ∧ g.hot = false then ((y.modGirth fun g => { g with hot := true, memLevel := 7 }).forceSlow).girthEvent 2
      else if t < 105 then y.modGirth fun g => { g with hot := false } else y
    if 112 ≤ t ∧ y.flt.dieCalm = false then
      let y := (y.modGirth fun g => { g with thermtrip := true }).girthEvent 3
      ((y.logFault { cls := 0x0A, action := 0x06, status := 0x30, block := 0x0A }).enterDieCalm 0x0A 0x30).lullCheck
    else if 112 ≤ t then y.modGirth fun g => { g with thermtrip := true }
    else y) s

/-! ### Measurement, calibration, shedding (R365, R366) -/

/-- The gain moves toward 4,096 × M / E by at most G / 64, and stays in 2,048 to 8,192 (R366). -/
def calibrate (g m held cycles : Nat) : Nat :=
  let want := 4096 * m * cycles / held
  let lim := g / 64
  clamp 2048 8192 (if g ≤ want then g + min lim (want - g) else g - min lim (g - want))

/-- POWER_MEASUREMENT (R365, R366, R380): the regulators answer with rail 0's mean current in mA and p_other in mW, or do not answer. -/
def execPowerMeasurement (answered : Bool) (rail other : Nat) (s : State) : Res :=
  onSys (fun y =>
    let y := if answered then y.modGirth fun g => { g with rail := rail % 2 ^ 18, other := other % 2 ^ 17, avsFail := false, avsTries := 0 } else y
    let g := y.girth
    let skip := g.avsFail || g.disturbed || !answered || g.heldCycles == 0 || decide (g.heldSum < 2000 * g.heldCycles) || g.step != .idle
    let gain := if skip then g.gain else calibrate g.gain g.rail g.heldSum g.heldCycles
    let total := g.rail * g.mv + g.other * 1000
    let cap := g.cap * 1000
    let memMin := if y.mem.hot then 4 else 0
    let over_ := decide (cap < total) && g.limit == g.compReserve
    let under_ := decide (100 * total ≤ 95 * cap) || decide (g.compReserve < g.limit)
    let y := y.modGirth fun g =>
      let g := { g with gain := gain, heldSum := 0, heldCycles := 0, disturbed := g.step != .idle || g.stretched }
      if over_ then
        (if g.memLevel < 7 then { g with memLevel := g.memLevel + 1 }
         else if g.linkLevel < 3 then { g with linkLevel := g.linkLevel + 1 } else g)
      else if under_ then
        (if 0 < g.linkLevel then { g with linkLevel := g.linkLevel - 1 }
         else if memMin < g.memLevel then { g with memLevel := g.memLevel - 1 } else g)
      else g
    if over_ && g.memLevel == 7 && g.linkLevel == 3 then y.girthEvent 5 else y) s

/-! ### Gating and waking (R291, R376, R378) -/

/-- READY slivers of a domain: undispatched ones and saves that may be resumed. -/
def Sys.readyWork (y : Sys) (d : Nat) : Nat :=
  ((y.bridle.tgs.filter fun t => (y.ctx t.2.ctx).domain == d).map fun t => y.leftOf t.1).sum +
  (y.allSaves.filter fun v => y.saveReady v && (y.ctx (y.tg v.run.tg).ctx).domain == d).length

/-- A stall may be gated (R376). -/
def Sys.mayGate (y : Sys) (s : Nat) : Bool :=
  let k := y.stall s
  let others := match y.domOfStall s with
    | some d => decide (y.readyWork d ≤ ((y.freeCores d).filter fun c => stallOf c != s).length)
    | none => true
  y.girth.gateIdle != 0 && !k.gated && !k.waking && y.stallQuiet s && k.saves.isEmpty && k.mbox.all (fun m => !m.2.pending && !m.2.full) &&
  !(y.dma.xfers.any fun x => x.stall == s && !x.cancelled) && !(y.bridle.tgs.any fun t => t.2.staged.any fun e => e.pool && e.stall == s) &&
  !(y.girth.reqs.any fun r => r.act.stall? == some s) && others

/-- GATE_IDLE_EXPIRE (R376): a stall idle for GIRTH_GATE_IDLE µs is gated. -/
def execGateIdleExpire (stall : Nat) (s : State) : Res :=
  onSys (fun y => if y.mayGate (stall % 64) then (y.gate (stall % 64)).lullCheck else y) s

/-- A gated stall's awake holdings: CORE_AWAKE for its 64 cores, STALL_AWAKE (R101, R376). -/
def Sys.awakeHolds (y : Sys) (s : Nat) : List Holding :=
  [{ who := .coreAwake s, cost := y.cost 0, n := 64 }, { who := .stallAwake s, cost := y.cost 6 }]

/-- The highest priority of the READY work of a domain. -/
def Sys.workPrio (y : Sys) (d : Nat) : Nat :=
  ((y.bridle.tgs.filter fun t => (y.ctx t.2.ctx).domain == d && decide (0 < y.leftOf t.1)).map fun t => y.prioOf t.1 0).foldl min 7

/-- The READY work of its domain exceeds the awake free cores, and it is the next stall to wake (R290, R291). -/
def Sys.wantsWake (y : Sys) (s : Nat) : Bool :=
  match y.domOfStall s with
  | none => false
  | some d =>
    y.enabled s && (y.stall s).gated && !(y.stall s).waking && !(y.stall s).failed && !y.flt.dieCalm && y.glob.ready &&
    decide ((y.freeCores d).length < y.readyWork d)

/-- STALL_WAKE (R376): the awake holdings are asked for; once granted the power switch closes. The first wake leaves LULL (R378). -/
def execStallWake (stall : Nat) (s : State) : Res :=
  onSys (fun y =>
    let k := stall % 64
    if !y.wantsWake k then y
    else if y.girth.state = 2 then y.stillWake
    else if y.girth.state = 1 then y.modGirth fun g => { g with moving := 1 }
    else
      let y := y.request { holds := y.awakeHolds k, prio := y.workPrio ((y.domOfStall k).getD 0), act := .wake k }
      y.grantAll y.girth.reqs.length) s

/-- An epoch after one more residency change (R50). -/
def nextEpoch (e : Nat) : Nat := (e + 1) % 2 ^ 16

/-- The stall and its cores leave power gating: epochs rise, valid bits clear, affinity records of units whose epoch wrapped go (R50, R52). -/
def Sys.ungate (s : Nat) (y : Sys) : Sys :=
  let y := y.modStall s fun k => { k with gated := false, waking := false, epoch := nextEpoch k.epoch, pool := {}, badPool := [] }
  let y := (List.range 64).foldl (fun y i => y.modCore (64 * s + i) fun k => { k with epoch := nextEpoch k.epoch, ls := {} }) y
  let gone := fun (a : Aff) => stallOf a.core == s && ((y.stall s).epoch == 0 || (y.core a.core).epoch == 0)
  y.modBridle fun b => { b with aff := b.aff.filter fun a => !gone a }

/-- A woken stall is released by breeze-in: it waits for its turn while others wake or wait for theirs (R290, R291). -/
def Sys.breezeWoken (k : Nat) (y : Sys) : Sys :=
  if y.bridle.breeze.isEmpty && !(y.stalls.any fun s => s.1 != k && s.2.waking) then y
  else y.modBridle fun b => { b with breeze := (List.range 64).filter fun s => s == k || b.breeze.contains s }

/-- STALL_WAKE_COMPLETE (R291, R376). -/
def execStallWakeComplete (stall : Nat) (s : State) : Res :=
  onSys (fun y =>
    if (y.stall (stall % 64)).waking then
      let y := (y.ungate (stall % 64)).breezeWoken (stall % 64)
      y.grantAll y.girth.reqs.length
    else y) s

/-- ARITH_PLL_RELOCK (R378): the die is in RUN at OP6, and the governor decides at once; the domains that
were started run again (R377). -/
def execArithPllRelock (s : State) : Res :=
  onSys (fun y =>
    if y.girth.state = 1 ∧ y.girth.moving = 1 then
      (y.modGirth fun g => { g with state := 0, moving := 0, op := 6, step := .idle }).govern
    else y) s

/-- DIE_STILL_ENTRY_DONE (R377, R379): in LULL with pipe 0 in Still and pipe 1 off, the die is in STILL: module 0 in L1, channels in self-refresh. -/
def execDieStillEntryDone (s : State) : Res :=
  onSys (fun y =>
    if y.girth.state = 1 ∧ y.girth.moving = 0 ∧ y.pipe0.st = .still ∧ y.pipe0.suRun.isNone = true ∧ y.pipe0.su.isNone = true ∧ y.pipe1.st = .off then
      let y := (y.modGirth fun g => { g with state := 2 }).modLink fun l => { l with l1 := true }
      y.modMem fun m => { m with chans := tmap m.chans fun _ c => if c.st = 2 then { c with st := 3 } else c }
    else y) s

/-! ### Registers that trigger a decision (R367 to R369, R382) -/

/-- A write of GIRTH_CAP: 3,000 to 100,000 mW (R382). -/
def Sys.girthCap (word : Nat) (y : Sys) : Sys :=
  let v := word % 2 ^ 17
  ((y.modGirth fun g => { g with cap := clamp 3000 100000 v }).rejectIf (decide (v < 3000 ∨ 100000 < v))).govern

def execGirthCapWrite (word : Nat) (s : State) : Res := onSys (Sys.girthCap word) s

/-- A write of GIRTH_MODE: a point outside OP_MASK rejects the whole write (R369). -/
def Sys.girthMode (word : Nat) (y : Sys) : Sys :=
  let n := fld word 1 3
  if n < 7 ∧ bitAt y.girth.opMask n = true then (y.modGirth fun g => { g with fixed := bitAt word 0, fixedOp := n }).govern else y.reject

def execGirthModeWrite (word : Nat) (s : State) : Res := onSys (Sys.girthMode word) s

/-- A write of GIRTH_HINTc: 7 takes 6 and counts (R382). -/
def Sys.girthHint (c word : Nat) (y : Sys) : Sys :=
  let f := fld word 0 3
  let l := fld word 3 3
  ((y.modGirth fun g => { g with hints := tset g.hints (c % 64) (min f 6, min l 6) }).rejectIf (f == 7 || l == 7)).govern

def execGirthHintWrite (ctx word : Nat) (s : State) : Res := onSys (Sys.girthHint ctx word) s

/-- GIRTH_CTRL.CLR_COUNTS (R382). -/
def Sys.girthClear (same : Nat) (y : Sys) : Sys :=
  y.modGirth fun g => { g with steps := cleared same 0, droops := cleared same 1, stretch := cleared same 2, reasonUs := (List.range 8).map fun k => (k, cleared same (3 + k)), reasonAcc := 0, peak := 0 }

def execGirthClrCounts (s : State) : Res := onSys (Sys.girthClear 0) s

end Sys2Proof.Machine
end

