-- ==== Sys2Proof/Machine/HostLink.lean ====
section
/-! DEFINITION. The host link (R317 to R337): host requests to device memory, completions, credits, message interrupts, invalidations. -/

namespace Sys2Proof.Machine

/-! ### Training and credits (R325, R326) -/

/-- The link of a module is trained: the device sends its INIT (R325). -/
def Sys.linkTrained (m : Nat) (y : Sys) : Sys := (y.modModule m fun k => { k with st := 2 }).emit (.init m 128 128 2048)

/-- The host's INIT gives enough credits (R325). -/
def initOk (ph nph pd : Nat) : Bool := decide (32 ≤ ph ∧ 32 ≤ nph ∧ 512 ≤ pd)

/-- The host's INIT is accepted: the module is UP with its pools (R325, R326). -/
def Sys.hostUp (m ph nph pd : Nat) (y : Sys) : Sys :=
  let y := y.modModule m fun k => { k with st := 3, ph := ph, nph := nph, pd := pd, ledger := [0, 0, 0, 0] }
  [(0, ph), (1, pd), (2, nph), (3, 16384)].foldl (fun y p => y.modPool 1 (4 * m + p.1) fun _ => Pool.init p.2) y

/-- Credits of class k return from a module's ledger to FREE, at most what it holds (R326). -/
def Sys.ledgerBack (m k n : Nat) (y : Sys) : Sys :=
  let n := min n ((y.module m).ledger.getD k 0)
  (y.modModule m fun md => { md with ledger := md.ledger.set k (md.ledger.getD k 0 - n) }).modPool 1 (4 * m + k) (Pool.give n)

/-- The same for the Harness ledger (R386). -/
def Sys.hledgerBack (k n : Nat) (y : Sys) : Sys :=
  let n := min n (y.duo.hm.ledger.getD k 0)
  (y.modDuo fun u => { u with hm := { u.hm with ledger := u.hm.ledger.set k (u.hm.ledger.getD k 0 - n) } }).modPool 2 k (Pool.give n)

/-- HOST_CRD (R326): credits of a module come back, and what waited for them goes. -/
def Sys.hostCrd (m ph pd nph : Nat) (y : Sys) : Sys :=
  if (y.module m).st = 3 then
    ((((y.ledgerBack m 0 ph).ledgerBack m 1 pd).ledgerBack m 2 nph).flush m).linkFlows
  else y

def execHostCrd (module ph pd nph : Nat) (s : State) : Res := onSys (Sys.hostCrd (module % 2) (ph % 2 ^ 10) (pd % 2 ^ 20) (nph % 2 ^ 10)) s

/-! ### Host requests to device memory (R321 to R324) -/

/-- A malformed host packet (R323): dropped and counted; a read is answered. -/
def Sys.malformed (m : Nat) (tag : Option Nat) (y : Sys) : Sys :=
  let y := (y.modLink fun l => { l with malformed := satInc l.malformed }).linkEvent 8
  match tag with
  | some t => y.sendCpl m (.cple m t 2)
  | none => y

/-- The form of a request of n bytes at an address: whole dwords, at most 64 of them, within 4 KiB (R321, R322). -/
def reqOk (a n : Nat) : Bool := a % 4 == 0 && n % 4 == 0 && decide (4 ≤ n ∧ n ≤ 256) && decide (a % 4096 + n ≤ 4096)

/-- Byte enables of n bytes: FBE for the first dword, LBE for the last, all between (R321). -/
def byteEnables (n fbe lbe : Nat) : List Bool :=
  (List.range n).map fun i => if i < 4 then bitAt fbe i else if n - 4 ≤ i then bitAt lbe (i - (n - 4)) else true

/-- The enabled stretches of a write. -/
def enabledRuns : Nat → List (Bool × Byte) → List (Nat × List Byte)
  | _, [] => []
  | a, (false, _) :: t => enabledRuns (a + 1) t
  | a, (true, b) :: t =>
    match enabledRuns (a + 1) t with
    | (k, bs) :: r => if k = a + 1 then (a, b :: bs) :: r else (a, [b]) :: (k, bs) :: r
    | [] => [(a, [b])]

/-- A write to device memory by the host takes effect through the loft cache (R324, R352); one that reaches a sealed region is dropped and
counted (R418). -/
def Sys.hostStore (a : Nat) (en : List Bool) (bs : List Byte) (y : Sys) : Sys :=
  if y.sealed a bs.length then (y.modSec fun c => { c with sealRejects := satInc c.sealRejects }).secEvent 1
  else
    let y := { y with mem := (enabledRuns a (en.zip bs)).foldl (fun m p => m.store .host p.1 p.2) y.mem }
    if y.glob.config = 2 ∧ y.duo.role = 2 ∧ y.duo.alone = false ∧ y.duo.st = 3 then
      y.hpost (.harness "MIRROR" [a, en.zipIdx.foldl (fun m p => m + putb p.1 p.2) 0] bs)
    else y

/-- A read of device memory by the host is answered (R322, R352); a block that cannot be corrected gives no data (R350). -/
def Sys.hostLoad (m tag a n : Nat) (y : Sys) : Sys :=
  match y.mem.fails .host a n with
  | some b =>
    let y := (y.uncorrectable b).logFault { cls := 3, action := 4, status := 0x30, block := 1, addr := 64 * b }
    y.sendCpl m (.cple m tag 1)
  | none =>
    let r := y.mem.load .host a n
    ({ y with mem := r.1 } : Sys).sendCpl m (.cpl m tag r.2)

/-- A request arrives while the die is in STILL or leaves it: it waits (R379). -/
def Sys.inStill (y : Sys) : Bool := y.girth.state == 2

/-- HOST_DEVMEM_WRITE (R323, R324, R391). -/
def Sys.hostDevWrite (m a fbe lbe : Nat) (bs : List Byte) (y : Sys) : Sys :=
  let n := bs.length
  let en := byteEnables n fbe lbe
  if (y.module m).st ≠ 3 then y
  else if reqOk a n = false ∨ (n = 4 ∧ lbe ≠ 0) then y.malformed m none
  else if y.glob.memUp = false ∨ y.mem.memEnd < a + n then y
  else if y.glob.config = 2 ∧ y.duo.role = 1 ∧ y.duo.alone = false then y.reject
  else
  let y := y.emit (.crd m 1 0 (units n))
  if y.inStill then y.stillWake.modLink fun l => { l with stillHeld := l.stillHeld ++ [{ kind := 2, module := m, addr := a, data := bs, mask := en }] }
  else y.hostStore a en bs

def execHostDevmemWrite (module addr fbe lbe : Nat) (data : List Byte) (s : State) : Res :=
  onSys (Sys.hostDevWrite (module % 2) addr (fbe % 16) (lbe % 16) data) s

/-- HOST_DEVMEM_READ (R322, R323). -/
def Sys.hostDevRead (m tag a n : Nat) (y : Sys) : Sys :=
  if (y.module m).st ≠ 3 then y
  else if reqOk a n = false then y.malformed m (some tag)
  else if y.glob.memUp = false ∨ y.mem.memEnd < a + n then y.sendCpl m (.cple m tag 1)
  else
  let y := y.emit (.crd m 0 1 0)
  if y.inStill then y.stillWake.modLink fun l => { l with stillHeld := l.stillHeld ++ [{ kind := 3, module := m, addr := a, tag := tag, n := n }] }
  else y.hostLoad m tag a n

def execHostDevmemRead (module tag addr len : Nat) (s : State) : Res :=
  onSys (Sys.hostDevRead (module % 2) (tag % 1024) addr len) s

/-- MALFORMED_PACKET (R323): any other packet that breaks R321 or R322. -/
def execMalformedPacket (module tag : Nat) (read : Bool) (s : State) : Res :=
  onSys (fun y => if (y.module (module % 2)).st = 3 then y.malformed (module % 2) (if read then some (tag % 1024) else none) else y) s

/-! ### Completions (R326, R329) -/

/-- A completion that no outstanding read waits for (R329). -/
def Sys.lateCpl (y : Sys) : Sys := (y.modLink fun l => { l with lateCpl := satInc l.lateCpl }).linkEvent 4

/-- Bytes of a transfer's stream arrive. -/
def Sys.landed (r : Read) (bs : List Byte) (y : Sys) : Sys :=
  y.modXfer r.xfer fun x => { x with buf := bs.zipIdx.foldl (fun t p => tset t (r.off + p.2) p.1) x.buf }

/-- The read with a tag on a host module leaves the list, its completion space returned. -/
def Sys.endRead (m : Nat) (r : Read) (y : Sys) : Sys :=
  (y.modModule m fun k => { k with reads := k.reads.filter fun q => q.tag != r.tag }).ledgerBack m 3 r.units

/-- The read with a tag on a module. -/
def Module.readOf (m : Module) (tag : Nat) : Option Read := m.reads.find? fun r => r.tag == tag

/-- HOST_CPL (R322, R329): all the data of one read. -/
def Sys.hostCpl (m tag : Nat) (bs : List Byte) (y : Sys) : Sys :=
  if (y.module m).st ≠ 3 then y else
  match (y.module m).readOf tag with
  | none => y.lateCpl
  | some r => if bs.length ≠ r.len then y.malformed m none else ((y.endRead m r).landed r bs).linkFlows

def execHostCpl (module tag : Nat) (data : List Byte) (s : State) : Res := onSys (Sys.hostCpl (module % 2) (tag % 1024) data) s

/-- HOST_CPLE (R329): the transfer ends with 0x30. -/
def Sys.hostCple (m tag : Nat) (y : Sys) : Sys :=
  if (y.module m).st ≠ 3 then y else
  match (y.module m).readOf tag with
  | none => y.lateCpl
  | some r => ((y.endRead m r).failXfer r.xfer 0x30).linkFlows

def execHostCple (module tag : Nat) (s : State) : Res := onSys (Sys.hostCple (module % 2) (tag % 1024)) s

/-- An error of the host link is logged (R400 LINK). -/
def Sys.logLink (y : Sys) : Sys := y.logFault { cls := 6, action := 4, status := 0x30, block := 7 }

/-- CPL_TIMEOUT (R329): the transfer of an outstanding read ends with 0x30; its tag and completion space return. -/
def Sys.cplTimeoutNow (m tag : Nat) (y : Sys) : Sys :=
  match (y.module m).readOf tag with
  | none => y
  | some r => ((((y.endRead m r).linkEvent 3).logLink).failXfer r.xfer 0x30).linkFlows

/-! ### A module goes DOWN (R328) -/

/-- Transfers that read host memory through a module. -/
def Sys.moduleXfers (y : Sys) (m : Nat) : List Nat :=
  (y.dma.xfers.filter fun x =>
    (x.todo.any (fun p => !p.peer) && y.moduleOf x.ctx == m) || (y.module m).reads.any fun r => r.xfer == x.id).map (·.id)

/-- A host module is DOWN: its transfers end with 0x30, its tags, ledger and pool instances go (R328). -/
def Sys.moduleDown (m : Nat) (y : Sys) : Sys :=
  let ids := y.moduleXfers m
  let y := y.modModule m fun k => { k with st := 0, reads := [], ledger := [0, 0, 0, 0], txq := [], replays := 0, retrainAt := [], ph := 0, nph := 0, pd := 0 }
  let y := [0, 1, 2, 3].foldl (fun y k => y.modPool 1 (4 * m + k) fun _ => {}) y
  let y := y.linkEvent 2
  let y := ids.foldl (fun y i => y.failXfer i 0x30) y
  if m = 0 then
    (y.logFault { cls := 8, action := 6, status := 0x30, block := 7 }).enterDieCalm 0x08 0x30
  else y.logLink.linkEvent 9

/-! ### Message interrupts (R335) -/

/-- A write of HOSTLINK_VECv: MASK, then RAISE; a raise and a MASK clear together give one MSG. -/
def Sys.vecWrite (v word : Nat) (y : Sys) : Sys :=
  let old := tget ({} : Vec) y.link.vecs v
  let y := y.modLink fun l => { l with vecs := tset l.vecs v { old with mask := bitAt word 0 } }
  let y := if old.mask && old.pending && !bitAt word 0 then
      (y.modLink fun l => { l with vecs := tset l.vecs v { mask := false, pending := false } }).raise 0 v
    else if bitAt word 2 then y.raise 0 v else y
  y

/-- VEC_RAISE_CMD: a write of HOSTLINK_VECv with RAISE=1. -/
def execVecRaiseCmd (vector word : Nat) (s : State) : Res := onSys (Sys.vecWrite (vector % 256) (setBit (word % 8) 2)) s

/-- VEC_MASK_CLEAR: a write of HOSTLINK_VECv that clears MASK. -/
def execVecMaskClear (vector : Nat) (s : State) : Res := onSys (Sys.vecWrite (vector % 256) 0) s

/-! ### Invalidation (R333) -/

/-- The cached translations that satisfy a test leave every TLB. -/
def Sys.dropXlat (p : Xlat → Bool) (y : Sys) : Sys :=
  y.modMem fun m => { m with tlb := m.tlb.filter fun x => !p x, stallTlb := tmap m.stallTlb fun _ t => t.filter fun x => !p x }

/-- A write of HOSTLINK_INV_CTRL (R333, R337): CONTEXT and SCOPE take effect; GO while BUSY is rejected. -/
def Sys.invWrite (word : Nat) (y : Sys) : Sys :=
  let c := fld word 0 6
  let scope := fld word 6 2
  if scope = 3 then y.reject
  else
    let y := y.modLink fun l => { l with invCtrl := word % 2 ^ 8 }
    if !bitAt word 8 then y
    else if y.link.invBusy then y.reject
    else
      let y := y.modLink fun l => { l with invBusy := true, invDone := false }
      match scope with
      | 0 => y.dropXlat fun x => x.covers c y.link.invAddr
      | 1 => y.dropXlat fun x => x.ctx == c
      | _ => y.dropXlat fun _ => true

/-- INV_PAGE, INV_CONTEXT, INV_ALL: HOSTLINK_INV_CTRL written with GO=1 and the SCOPE; forwarded in TANDEM (R391). -/
def execInvPage (context : Nat) (s : State) : Res :=
  onSys (Sys.mirrored 0x00B00058 (context % 64 + 2 ^ 8) (Sys.invWrite (context % 64 + 2 ^ 8))) s

def execInvContext (context : Nat) (s : State) : Res :=
  onSys (Sys.mirrored 0x00B00058 (context % 64 + 2 ^ 6 + 2 ^ 8) (Sys.invWrite (context % 64 + 2 ^ 6 + 2 ^ 8))) s

def execInvAll (s : State) : Res :=
  onSys (Sys.mirrored 0x00B00058 (2 * 2 ^ 6 + 2 ^ 8) (Sys.invWrite (2 * 2 ^ 6 + 2 ^ 8))) s

/-- INV_DONE (R333). -/
def execInvDone (s : State) : Res :=
  onSys (fun y => if y.link.invBusy then y.modLink fun l => { l with invBusy := false, invDone := true } else y) s

/-! ### Counters (R337) -/

/-- HOSTLINK_CTRL.CLR_COUNTS. -/
def Sys.linkClear (same : Nat) (y : Sys) : Sys :=
  y.modLink fun l => { l with replays := cleared same 0, retrains := cleared same 1, dbDropped := cleared same 2, dbRange := cleared same 3, lateCpl := cleared same 4, malformed := cleared same 5 }

def execHostlinkClrCounts (s : State) : Res := onSys (Sys.linkClear 0) s

end Sys2Proof.Machine
end

