-- ==== Sys2Proof/Machine/MemSystem.lean ====
section
/-! DEFINITION. The memory system's upkeep and commands (R342 to R357): refresh, MR4, write clock, self-refresh, patrol scrub, LOFT_CMD. -/

namespace Sys2Proof.Machine

/-- A channel (R357). -/
def Sys.chan (y : Sys) (c : Nat) : Chan := tget {} y.mem.chans c

def Sys.modChan (c : Nat) (f : Chan → Chan) (y : Sys) : Sys := y.modMem fun m => { m with chans := tmod {} m.chans c f }

/-- The domain a channel belongs to (R340). -/
def MemSys.chanDom (m : MemSys) (c : Nat) : Option Nat :=
  (List.range m.domChans.length).find? fun d => bitAt (m.domChans.getD d 0) c

/-- REFRESH_INTERVAL (R345): an interval of an active channel elapses; it is postponed only while a scanout fetch waits, and by at most 8
intervals; otherwise everything owed is refreshed. -/
def execRefreshInterval (channel : Nat) (scanoutWaits : Bool) (s : State) : Res :=
  onSys (fun y =>
    let c := channel % 16
    if (y.chan c).st ≠ 2 then y
    else y.modChan c fun k => { k with debt := if scanoutWaits ∧ k.debt < 8 then k.debt + 1 else 0 }) s

/-- MR4_POLL (R345, R365): the refresh rate is taken; beyond the upper limit HOT is set and MEM_LEVEL rises to MEM_MIN at once. -/
def execMr4Poll (channel rate : Nat) (beyond : Bool) (s : State) : Res :=
  onSys (fun y =>
    let c := channel % 16
    if (y.chan c).st ≠ 2 then y
    else
      let y := y.modChan c fun k => { k with mr4 := rate % 32, hot := beyond }
      let y := y.modMem fun m => { m with hot := m.chans.any fun k => k.2.hot }
      if beyond then (y.modGirth fun g => { g with memLevel := max 4 g.memLevel }).memEvent 1 else y) s

/-- WCK_DRIFT_SAMPLE (R344): beyond 1/16 unit interval the write clock is retrained; no data bit changes. -/
def execWckDriftSample (channel : Nat) (beyond : Bool) (s : State) : Res :=
  onSys (fun y =>
    if (y.chan (channel % 16)).st = 2 ∧ beyond = true then y.modChan (channel % 16) fun k => { k with retrains := k.retrains + 1 } else y) s

/-- SELF_REFRESH_ENTRY (R346): a channel of a domain idle for MEM_SR_IDLE µs. -/
def execSelfRefreshEntry (channel : Nat) (s : State) : Res :=
  onSys (fun y =>
    let c := channel % 16
    if (y.chan c).st = 2 ∧ y.mem.srIdle ≠ 0 ∧ (y.mem.chanDom c).isSome = true then y.modChan c fun k => { k with st := 3, debt := 0 } else y) s

/-- SELF_REFRESH_EXIT (R342, R346, R377): a request reaches a channel of a domain; in the die's STILL the channels leave with the die. -/
def execSelfRefreshExit (channel : Nat) (s : State) : Res :=
  onSys (fun y =>
    let c := channel % 16
    if (y.chan c).st = 3 ∧ (y.mem.chanDom c).isSome = true ∧ y.girth.state ≠ 2 then y.modChan c fun k => { k with st := 2 } else y) s

/-- PATROL_SCRUB (R349, R350): a block of a mapped channel is read: 0 clean, 1 corrected and written back, 2 beyond correction. -/
def execPatrolScrub (block found : Nat) (s : State) : Res :=
  onSys (fun y =>
    if y.mem.inlineEcc = false ∨ y.mem.scrub = 0 ∨ y.mem.memEnd < 64 * block + 64 then y
    else
      let y := if found = 2 ∧ y.mem.bad.contains block = false then y.modMem fun m => { m with bad := block :: m.bad } else y
      if y.mem.bad.contains block then (y.uncorrectable block).logFault { cls := 3, action := 2, status := 0, block := 1, addr := 64 * block }
      else if found = 1 then
        (y.modMem fun m => { m with inlineCorr := satInc m.inlineCorr }).modFlt fun f => { f with corrected := satInc f.corrected }
      else y) s

/-! ### LOFT_CMD (R354) -/

/-- A write of LOFT_CMD. -/
def Sys.loftCmd (word : Nat) (y : Sys) : Sys :=
  let d := fld word 0 3
  if !bitAt word 4 then y
  else if bitAt y.mem.loftBusy d then y.reject
  else y.modMem fun m => { m with loftBusy := setBit m.loftBusy d, loftInval := if bitAt word 3 then setBit m.loftInval d else clrBit m.loftInval d }

/-- LOFT_WRITE_BACK: LOFT_CMD with GO=1, INVALIDATE=0. -/
def execLoftWriteBack (domain : Nat) (s : State) : Res := onSys (Sys.loftCmd (domain % 8 + 2 ^ 4)) s

/-- LOFT_WRITE_BACK_INVALIDATE: LOFT_CMD with GO=1, INVALIDATE=1. -/
def execLoftWriteBackInvalidate (domain : Nat) (s : State) : Res := onSys (Sys.loftCmd (domain % 8 + 2 ^ 3 + 2 ^ 4)) s

/-- LOFT_CMD_DONE (R354): the domain's dirty lines are in their channels, its lines gone when it invalidates. -/
def execLoftCmdDone (domain : Nat) (s : State) : Res :=
  onSys (fun y =>
    let d := domain % 8
    if bitAt y.mem.loftBusy d then
      (y.modMem fun m =>
        { m.cleanDom d (bitAt m.loftInval d) with loftBusy := clrBit m.loftBusy d, loftInval := clrBit m.loftInval d }).memEvent 4
    else y) s

/-- MEM_CTRL.CLR_COUNTS (R357): the six counters, hits and misses of every domain. -/
def Sys.memClear (same : Nat) (y : Sys) : Sys :=
  y.modMem fun m => { m with linkCorr := cleared same 0, inlineCorr := cleared same 1, uncorr := cleared same 2, loftCorr := cleared same 3, hits := (List.range 8).map fun d => (d, cleared same (4 + d)),
                             misses := (List.range 8).map fun d => (d, cleared same (12 + d)) }

def execMemClrCounts (s : State) : Res := onSys (Sys.memClear 0) s

end Sys2Proof.Machine
end

