-- ==== Sys2Proof/Machine/Duo.lean ====
section
/-! DEFINITION. The Harness and the Duo (R383 to R399, R408), and what both kinds of module share: replay, retraining, loss (R327, R328). -/

namespace Sys2Proof.Machine

/-! ### Mailbox responses (R286 to R288) -/

/-- Entry e of stall s becomes FULL and takes its MBOX credit; a sliver that waits on it in RWAIT goes on. -/
def Sys.mboxFull (s e st : Nat) (die : Bool) (bs : List Byte) (y : Sys) : Sys :=
  let y := y.modPool 2 4 (Pool.take 1)
  let y := y.modStall s fun k => { k with mbox := tmod {} k.mbox e fun m =>
    { m with pending := false, full := true, status := st, srcDie := die, data := bs } }
  match y.cores.find? (fun c => stallOf c.1 == s && c.2.st == .running && !c.2.frozen &&
      (match c.2.run with | some r => (match r.wait with | .mbox k _ _ => k == e | _ => false) | none => false)) with
  | some (c, k) => match k.run with
    | some r => (match r.wait with | .mbox _ d b => y.collect c s e d b | _ => y)
    | none => y
  | none => y

/-! ### The Harness goes DOWN (R328, R395) -/

/-- Transfers that need the Harness: peer-window reads and remote requests still to send. -/
def Sys.peerXfers (y : Sys) : List Nat :=
  (y.dma.xfers.filter fun x => x.op == 4 || x.todo.any (·.peer) || y.duo.hm.reads.any fun r => r.xfer == x.id).map (·.id)

/-- Every entry that waits for a response gets STATUS 0x30; orphans are freed (R395). -/
def Sys.loseMail (y : Sys) : Sys :=
  let y := y.modStalls fun ss => tmap ss fun _ k => { k with mbox := k.mbox.filter fun m => !m.2.orphan }
  (y.stalls.flatMap fun s => (s.2.mbox.filter fun m => m.2.pending).map fun m => (s.1, m.1)).foldl
    (fun y p => y.mboxFull p.1 p.2 0x30 (!y.glob.duoId) []) y

/-- The Harness is DOWN. -/
def Sys.harnessDown (y : Sys) : Sys :=
  let ids := y.peerXfers
  let y := y.modDuo fun u => { u with st := 0, hm := {} }
  let y := [0, 1, 2, 3].foldl (fun y k => y.modPool 2 k fun _ => {}) y
  let y := ids.foldl (fun y i => y.failXfer i 0x30) y
  y.loseMail

/-! ### Replay, retraining, loss of a module (R327, R328) -/

/-- Module m is the Harness. -/
def Sys.isHarness (y : Sys) (m : Nat) : Bool := m == 1 && y.glob.config != 0

/-- The module's record: the host module, or the Harness. -/
def Sys.wire (y : Sys) (m : Nat) : Module := if y.isHarness m then y.duo.hm else y.module m

def Sys.modWire (m : Nat) (f : Module → Module) (y : Sys) : Sys :=
  if y.isHarness m then y.modDuo fun u => { u with hm := f u.hm } else y.modModule m f

/-- State of the wire: 3 UP or FORMED, 4 RETRAIN. -/
def Sys.wireSt (y : Sys) (m : Nat) : Nat := if y.isHarness m then y.duo.st else (y.module m).st

def Sys.setWire (m v : Nat) (y : Sys) : Sys :=
  if y.isHarness m then y.modDuo fun u => { u with st := v } else y.modModule m fun k => { k with st := v }

/-- The module is DOWN (R328): the host module's effects, or the Harness's. -/
def Sys.wireDown (m : Nat) (y : Sys) : Sys := if y.isHarness m then (y.harnessDown).linkEvent 2 else y.moduleDown m

/-- Reference cycles of 1 ms. -/
def msCycles : Nat := 38400

/-- A retrain begins (R327). -/
def Sys.retrain (m : Nat) (y : Sys) : Sys :=
  let now := y.glob.refCycles
  let y := (y.setWire m 4).modWire m fun k => { k with replays := 0, retrainAt := now :: k.retrainAt.filter fun t => decide (now < t + msCycles) }
  (y.modLink fun l => { l with retrains := satInc l.retrains }).linkEvent 1

/-- FLIT_CRC_FAIL (R327): a flit fails its CRC and is replayed; again says that it is the flit that failed last. After 8 replays of one flit the
module retrains. -/
def execFlitCrcFail (module : Nat) (again : Bool) (s : State) : Res :=
  onSys (fun y =>
    let m := module % 2
    if y.wireSt m ≠ 3 then y else
    let n := if again then (y.wire m).replays else 0
    if 8 ≤ n then y.retrain m
    else
      let y := (y.modWire m fun k => { k with replays := n + 1 }).modLink fun l => { l with replays := satInc l.replays }
      (y.modFlt fun f => { f with corrected := satInc f.corrected }).linkEvent 0) s

/-- MODULE_RETRAIN_END (R327, R328): the module resumes; a failed retrain is repeated, and the third of 1 ms that fails puts it DOWN. -/
def execModuleRetrainEnd (module : Nat) (ok : Bool) (s : State) : Res :=
  onSys (fun y =>
    let m := module % 2
    if y.wireSt m ≠ 4 then y
    else if ok then (if y.isHarness m then ((y.setWire m 3).hflush).linkFlows else ((y.setWire m 3).flush m).linkFlows)
    else if 3 ≤ ((y.wire m).retrainAt.filter fun t => decide (y.glob.refCycles < t + msCycles)).length then y.wireDown m
    else y.retrain m) s

/-- LINK_LANE_LOSS (R328): the module is DOWN. -/
def execLinkLaneLoss (module : Nat) (s : State) : Res :=
  onSys (fun y => if y.wireSt (module % 2) = 0 ∨ 5 ≤ y.wireSt (module % 2) then y else y.wireDown (module % 2)) s

/-- MODULE1_TRAIN_END (R319, R325): in SOLO, module 1 is trained and sends its INIT, or M1_FAIL is set. -/
def execModule1TrainEnd (ok : Bool) (s : State) : Res :=
  onSys (fun y =>
    if y.glob.config ≠ 0 ∨ y.link.m1.st ≠ 1 then y
    else if ok then y.linkTrained 1
    else (y.modModule 1 fun k => { k with st := 0 }).linkEvent 9) s

/-! ### Reads over the Harness (R329, R386, R387) -/

/-- An outstanding peer-window read ends, its completion space returned. -/
def Sys.endPeerRead (r : Read) (y : Sys) : Sys :=
  (y.modDuo fun u => { u with hm := { u.hm with reads := u.hm.reads.filter fun q => q.tag != r.tag } }).hledgerBack 3 r.units

/-- CPL_TIMEOUT on any module (R329). -/
def execCplTimeout (module tag : Nat) (s : State) : Res :=
  onSys (fun y =>
    if y.isHarness (module % 2) then
      match y.duo.hm.readOf (tag % 1024) with
      | none => y
      | some r => ((((y.endPeerRead r).linkEvent 3).logLink).failXfer r.xfer 0x30).linkFlows
    else y.cplTimeoutNow (module % 2) (tag % 1024)) s

/-- PEER_WINDOW_COMPLETION (R387): a CPL with the data of one read, or a CPLE. -/
def execPeerWindowCompletion (tag : Nat) (ok : Bool) (data : List Byte) (s : State) : Res :=
  onSys (fun y =>
    if y.duo.st ≠ 3 then y else
    match y.duo.hm.readOf (tag % 1024) with
    | none => y.lateCpl
    | some r =>
      if !ok then ((y.endPeerRead r).failXfer r.xfer 0x30).linkFlows
      else if data.length ≠ r.len then (y.modLink fun l => { l with malformed := satInc l.malformed }).linkEvent 8
      else ((y.endPeerRead r).landed r data).linkFlows) s

/-- PEER_WINDOW_REQUEST (R387): a write or a read of the other die on this die's memory, which answers a read. -/
def execPeerWindowRequest (write : Bool) (tag addr len : Nat) (data : List Byte) (s : State) : Res :=
  onSys (fun y =>
    let n := if write then data.length else len
    if y.glob.config ≠ 1 ∨ y.duo.st ≠ 3 ∨ n = 0 ∨ 256 < n ∨ 4096 < addr % 4096 + n then y
    else if y.mem.memEnd < addr + n then (if write then y else y.hpost (.harness "CPLE" [tag % 1024, 1] []))
    else if write then
      let y := y.emit (.crd 1 1 0 (units n))
      if y.sealed addr n then y
      else { y with mem := y.mem.store .host addr data }
    else
      let y := y.emit (.crd 1 0 1 0)
      match y.mem.fails .host addr n with
      | some b =>
        ((y.uncorrectable b).logFault { cls := 3, action := 4, status := 0x30, block := 1, addr := 64 * b }).hpost
          (.harness "CPLE" [tag % 1024, 1] [])
      | none =>
        let r := y.mem.load .host addr n
        ({ y with mem := r.1 } : Sys).hpost (.harness "CPL" [tag % 1024] r.2)) s

/-- HARNESS_CREDIT_RETURN (R386). -/
def execHarnessCreditReturn (ph pd nph : Nat) (s : State) : Res :=
  onSys (fun y =>
    if y.duo.st = 3 then
      ((((y.hledgerBack 0 (ph % 2 ^ 10)).hledgerBack 1 (pd % 2 ^ 20)).hledgerBack 2 (nph % 2 ^ 10)).hflush).linkFlows
    else y) s

/-! ### Holding and resolution (R396, R397, R399) -/

/-- The die enters DUO_HOLD. -/
def Sys.enterHold (y : Sys) : Sys :=
  if y.duo.hold then y else
  let y := (y.modDuo fun u => { u with hold := true }).duoEvent 1
  ((y.calmCause 0 3).calmCause 1 3).holdAll

/-- Kernels that wait for a reservation try again. -/
def Sys.restartKernels (y : Sys) : Sys :=
  ((y.bridle.tgs.filter fun t => t.2.st == .pageWait && (y.job t.2.job).st == 2).map (·.1)).foldl (fun y t => y.kernelReserve t false) y

/-- The die leaves DUO_HOLD: recorded mismatches act, its pipes go on unless it gave the manager's role up, held traffic goes, dispatch
breezes in (R290, R396, R398, R399). -/
def Sys.leaveHold (y : Sys) : Sys :=
  if !y.duo.hold then y else
  let y := y.modDuo fun u =>
    { u with hold := false, alone := u.alone || (y.glob.config == 2 && u.role == 2 && (u.peerCalm || !u.peerLive)) }
  let y := if y.duo.demoted then y else (y.calmClear 0 3).calmClear 1 3
  let l := y.duo.deferred
  let y := y.modDuo fun u => { u with deferred := [] }
  let y := l.foldl (fun y j => (y.hsend (.harness "SCHED" [3, j.1, j.2] [])).cancelJob j.1 j.2) y
  let y := (((y.flush 0).flush 1).hflush).linkFlows
  let y := ((List.range y.bridle.doms.length).foldl (fun y d => y.breezeIn d) y).standAgain
  y.restartKernels

/-- Jobs that are neither FREE, DONE nor FAILED. -/
def Sys.aliveJobs (y : Sys) : List Nat := (y.work.jobs.filter fun j => j.2.alive).map (·.1)

/-- DUO_SPLIT_BRAIN (R397). -/
def Sys.splitBrain (y : Sys) : Sys :=
  let y := (y.modDuo fun u => { u with split := true }).duoEvent 2
  let y := y.logFault { cls := 7, action := 0x0A, status := 0x41, block := 8 }
  y.aliveJobs.foldl (fun y j => y.cancelJob j 0x41) y

/-- DUO_HOLD_TIMEOUT (R397): 50 µs in DUO_HOLD; while the Duo has yet to form, DUO_FORM_TIMEOUT is the one that counts (R383). -/
def execDuoHoldTimeout (s : State) : Res :=
  onSys (fun y => if y.duo.hold = true ∧ y.duo.split = false ∧ y.duo.st ≠ 1 ∧ y.duo.st ≠ 2 then y.splitBrain else y) s

/-- DUO_FORM_TIMEOUT (R383): 1,050 µs after READY the Duo has not formed. -/
def execDuoFormTimeout (s : State) : Res :=
  onSys (fun y =>
    if y.glob.config ≠ 0 ∧ y.glob.ready = true ∧ (y.duo.st = 1 ∨ y.duo.st = 2) ∧ y.duo.split = false then y.splitBrain else y) s

/-! ### Roles (R394, R398) -/

/-- The die's role becomes r; a new manager's band board starts with every band never shown, and its table at the next frame start. The beam it showed
as worker goes on from its position, on the ghost when no pipe of its own runs there (R55, R57, R398). -/
def Sys.setRole (r : Nat) (y : Sys) : Sys :=
  if y.duo.role = r then y else
  let old := y.duo.role
  let y := y.modDuo fun u => { u with role := r, roleChanges := satInc u.roleChanges, demoted := u.demoted || (old == 2 && r == 1) }
  let y := y.duoEvent 3
  if r = 2 then
    let y := if y.beam.source < 2 ∧ (y.pipe y.beam.source).runs = false then y.setSource 2 else y
    y.bandsReset.modBeam fun b => { b with next := b.table.length }
  else y

/-- Claim and epoch after a heartbeat with an epoch and its CALM bit (R394): role code, epoch. -/
def Sys.claimNow (y : Sys) (peerEpoch : Nat) (peerCalm : Bool) : Nat × Nat :=
  let e := y.duo.epoch
  if y.flt.dieCalm then (1, e)
  else if peerCalm then (if e ≤ peerEpoch then (if peerEpoch = 2 ^ 32 - 1 then (1, e) else (2, peerEpoch + 1)) else (2, e))
  else if peerEpoch < e then (2, e)
  else if e = peerEpoch ∧ y.glob.duoId = false then (2, e)
  else (1, peerEpoch)

/-- The claims agree: the last two heartbeats of a live peer carry the complement of the die's own claim (R394). -/
def Sys.agreed (y : Sys) : Bool :=
  y.duo.peerLive && (match y.duo.claims with | [a, b] => a == 3 - y.duo.role && b == 3 - y.duo.role | _ => false)

/-- DUO_HOLD follows the agreement of the claims (R396); after DUO_SPLIT_BRAIN it stays (R397). -/
def Sys.resolve (y : Sys) : Sys := if y.agreed then (if y.duo.split then y else y.leaveHold) else y.enterHold

/-- HBEAT (R385, R394): words 0 to 2 of a heartbeat received over a formed Duo. -/
def execHbeat (word0 epoch digest0 : Nat) (s : State) : Res :=
  onSys (fun y =>
    if y.glob.config = 0 ∨ y.duo.st ≠ 3 then y else
    let calm := bitAt word0 7
    let e := epoch % 2 ^ 32
    let y := y.modDuo fun u =>
      { u with peerLive := true, peerEpoch := e, peerCalm := calm, peerDigest0 := digest0 % 2 ^ 32, claims := (fld word0 4 2 :: u.claims).take 2 }
    let c := y.claimNow e calm
    ((y.modDuo fun u => { u with epoch := c.2 }).setRole c.1).resolve) s

/-- HBEAT_SEND (R385): the die's heartbeat; it goes on in die Calm (R403). -/
def execHbeatSend (s : State) : Res :=
  onSys (fun y =>
    if y.glob.config = 0 ∨ (y.duo.st ≠ 2 ∧ y.duo.st ≠ 3 ∧ y.duo.st ≠ 4) then y else
    let u := y.duo
    let w0 := 8 + put u.role 4 2 + putb y.glob.duoId 6 + putb y.flt.dieCalm 7 + putb u.hold 8 + put u.seq 9 23
    let p : OutPkt := .harness "HBEAT" [w0, u.epoch, wordAt y.glob.patternDigest 0, 0] []
    let y := if u.st = 2 then y.emit p else y.hsend p
    y.modDuo fun u => { u with seq := (u.seq + 1) % 2 ^ 23 }) s

/-- PEER_SILENCE_TIMEOUT (R394, R395): no heartbeat for 16 µs. -/
def execPeerSilenceTimeout (s : State) : Res :=
  onSys (fun y =>
    if y.glob.config = 0 ∨ y.duo.peerLive = false then y else
    let y := (y.modDuo fun u => { u with peerLive := false, claims := [], hbMissed := satInc u.hbMissed }).duoEvent 0
    let y := y.logFault { cls := 7, action := 8, status := 0x41, block := 8 }
    let stuck := y.duo.role = 1 ∧ y.duo.epoch = 2 ^ 32 - 1
    let y := if y.duo.role = 1 ∧ ¬ stuck then y.modDuo fun u => { u with epoch := u.epoch + 1 } else y
    let y := if stuck ∨ y.flt.dieCalm = true then y.setRole 1 else y.setRole 2
    (y.harnessDown).enterHold) s

/-! ### Forming (R383) -/

/-- HARNESS_TRAIN_END (R383, R386): module 1 is trained as the Harness; INIT gives the credits and the die sends its HELLO. -/
def execHarnessTrainEnd (s : State) : Res :=
  onSys (fun y =>
    if y.glob.config = 0 ∨ y.duo.st ≠ 1 then y else
    let y := y.modDuo fun u => { u with st := 2, hm := { ph := 128, nph := 128, pd := 2048 } }
    let y := [(0, 128), (1, 2048), (2, 128), (3, 16384)].foldl (fun y p => y.modPool 2 p.1 fun _ => Pool.init p.2) y
    let y := y.emit (.init 1 128 128 2048)
    y.emit (.harness "HELLO" [y.glob.config, putb y.glob.duoId 0] y.glob.patternDigest)) s

/-- The contexts this die's Pattern marks VALID, a mask. -/
def Sys.validMask (y : Sys) : Nat := (y.validCtxs.map fun c => 2 ^ c).sum

/-- HELLO (R383): CONFIG, DUO_ID and effective digest of the peer; ctxs and doms are what its Pattern makes VALID and where its domains lie (base and
size in turn), which the dies know of each other (log entry 32). -/
def execHello (config duoId : Nat) (digest : List Byte) (ctxs : Nat) (doms : List Nat) (s : State) : Res :=
  onSys (fun y =>
    if y.glob.config = 0 ∨ y.duo.st ≠ 2 then y
    else if config = y.glob.config ∧ bitAt duoId 0 ≠ y.glob.duoId ∧ (y.glob.config ≠ 2 ∨ digest = y.glob.patternDigest)
        ∧ (y.glob.config ≠ 1 ∨ Nat.land ctxs y.validMask = 0) then
      let y := y.modDuo fun u =>
        { u with st := 3, alone := false, claims := [], unmirrored := y.aliveJobs, peerCtxs := ctxs,
                 peerDoms := (List.range (doms.length / 2)).map fun i => (doms.getD (2 * i) 0, doms.getD (2 * i + 1) 0) }
      (y.hflush).linkFlows
    else (y.duoEvent 6).enterHold) s

/-! ### Commands of the driver (R394, R397, R408) -/

/-- HARNESS_CMD.TAKEOVER: on a worker with a live manager, not in DUO_HOLD (R394, R399). -/
def Sys.takeover (y : Sys) : Sys :=
  if y.glob.config = 0 ∨ y.duo.role ≠ 1 ∨ y.duo.peerLive = false ∨ y.duo.claims.head? ≠ some 2 ∨ y.duo.hold = true ∨ y.flt.dieCalm = true then y.reject
  else if y.duo.epoch = 2 ^ 32 - 1 then y
  else
    let y := y.logFault { cls := 7, action := 9, status := 0, block := 8 }
    ((y.modDuo fun u => { u with epoch := u.epoch + 1 }).setRole 2).resolve

/-- HARNESS_CMD.ASSUME: accepted only with SPLIT=1; the die is MANAGER and ALONE, module 1 unused (R397). -/
def Sys.assume (y : Sys) : Sys :=
  if y.duo.split then
    let y := y.harnessDown
    ((y.setRole 2).modDuo fun u => { u with alone := true, peerLive := false }).leaveHold
  else y.reject

/-- HARNESS_CMD.CLR_COUNTS. -/
def Sys.harnessClear (same : Nat) (y : Sys) : Sys :=
  y.modDuo fun u => { u with mismatches := cleared same 0, bandMismatches := cleared same 1, hbMissed := cleared same 2, roleChanges := cleared same 3 }

/-- A write of HARNESS_CMD. -/
def Sys.harnessCmd (same word : Nat) (y : Sys) : Sys :=
  let y := if bitAt word 2 then y.harnessClear same else y
  let y := if bitAt word 0 then y.takeover else y
  if bitAt word 1 then y.assume else y

def execTakeover (s : State) : Res := onSys Sys.takeover s
def execAssume (s : State) : Res := onSys Sys.assume s
def execHarnessClrCounts (s : State) : Res := onSys (Sys.harnessClear 0) s

/-! ### Messages (R388 to R393) -/

/-- BEAMPOS (R389): the worker shows the manager's position; what a frame start of the master pipe does to its board and its amended BEAM section happens
as the frame number moves on (R49, R240, R241). -/
def execBeampos (line tick held source phase frame : Nat) (s : State) : Res :=
  onSys (fun y =>
    if y.duo.st = 3 ∧ y.beamFollows = true then
      let y := if frame % 2 ^ 32 = y.beam.frame then y else (y.applyBeam id).fgStopNow
      y.modBeam fun b => { b with line := line % 2 ^ 13, tick := tick % 16, heldNow := bitAt held 0, source := source % 4, phase := phase % 8,
                                  frame := frame % 2 ^ 32 }
    else y) s

/-- A fire forwarded by the manager on a queue of this die (R389), a miss when its context has been closed since (R61): the board's queues release on the manager's ticket (R240). -/
def Sys.workerFire (q arg ctx : Nat) (y : Sys) : Sys :=
  let y := y.stillWake
  if !((y.queue q).isOpen && (y.queue q).ctx == ctx) then y.fireMiss
  else match y.beamWaiter q with
    | none => y.fireMiss
    | some t =>
      if y.fg.en && q == y.fg.genQ then y.releaseChain t arg 0
      else if y.fg.en && q == y.fg.warpQ then y.releaseChain t arg 1
      else y.beamRelease t arg none

/-- SCHED (R390): words [0, queue, WRITE] a doorbell forwarded to the manager; [1, queue, ARG, context] a beam fire; [2, task group, sliver, core] a
dispatch decision of the manager; [3, job, status] a cancel of a mirrored job. Every one updates the shadow. -/
def execSched (words : List Nat) (s : State) : Res :=
  onSys (fun y =>
    if y.glob.config = 0 ∨ y.duo.st ≠ 3 then y else
    let y := y.modDuo fun u => { u with shadow := words :: u.shadow }
    match words with
    | [1, q, arg, ctx] => if y.duo.role = 1 then y.workerFire q arg ctx else y
    | [2, t, n, c] =>
      if y.duo.role = 1 ∧ y.tgReady t = true ∧ (y.tg t).head = some n ∧ y.coreFree c = true then
        let y := y.requestPick (.fresh t n c)
        y.grantAll y.girth.reqs.length
      else y
    | [3, j, st] => if y.glob.config = 2 ∧ y.duo.role = 1 then y.cancelJob (j % 4096) (st % 256) else y
    | _ => y) s

/-- RREQ (R388): the bytes are read and returned; a die in die Calm answers 0x30. -/
def execRreq (tag stall entry addr len : Nat) (s : State) : Res :=
  onSys (fun y =>
    if y.glob.config ≠ 1 ∨ y.duo.st ≠ 3 then y else
    let n := len % 64
    let answer := fun (st : Nat) (bs : List Byte) (y : Sys) => y.hsend (.harness "RRSP" [tag % 2 ^ 16, stall % 64, entry % 256, st] bs)
    let y := y.emit (.crd 1 0 1 0)
    if y.flt.dieCalm = true ∨ y.mem.memEnd < addr + n then answer 0x30 [] y
    else match y.mem.fails .host addr n with
      | some b => answer 0x30 [] ((y.uncorrectable b).logFault { cls := 3, action := 4, status := 0x30, block := 1, addr := 64 * b })
      | none =>
        let r := y.mem.load .host addr n
        answer 0 r.2 { y with mem := r.1 }) s

/-- RRSP (R288, R388): the response lands in its entry; one for an orphan is discarded. -/
def execRrsp (tag stall entry status : Nat) (data : List Byte) (s : State) : Res :=
  onSys (fun y =>
    let m := tget ({} : Mbox) (y.stall (stall % 64)).mbox (entry % 256)
    if y.duo.st ≠ 3 ∨ m.pending = false ∨ m.tag ≠ tag % 2 ^ 16 then y
    else if m.orphan then y.modStall (stall % 64) fun k => { k with mbox := tset k.mbox (entry % 256) {} }
    else y.mboxFull (stall % 64) (entry % 256) (status % 256) (!y.glob.duoId) (data.take 56)) s

/-- The manager has its own digest of a key: it is no longer waited for. -/
def Sys.matched (key : Nat) (y : Sys) : Sys := y.modDuo fun u => { u with waiting := u.waiting.filter fun w => w.1 != key }

/-- The comparison of a key failed with a status. -/
def Sys.failDigest (key st : Nat) (y : Sys) : Sys :=
  match y.duo.waiting.find? (fun w => w.1 == key) with
  | none => y
  | some w =>
    let y := (y.matched key).mismatch key w.2.1 st
    if key < 2 ^ 62 ∧ y.duo.hold = false then y.stopJobWork w.2.1 else y

/-- DIGEST (R393): the manager compares the worker's digest with its own, or keeps it until it has one. -/
def execDigest (key : Nat) (digest : List Byte) (s : State) : Res :=
  onSys (fun y =>
    if y.glob.config ≠ 2 ∨ y.duo.role ≠ 2 ∨ y.duo.st ≠ 3 ∨ y.duo.alone = true then y else
    match y.duo.waiting.find? (fun w => w.1 == key) with
    | none => y.modDuo fun u => { u with early := u.early ++ [(key, leNat digest)] }
    | some w => if w.2.2 = leNat digest then (y.matched key).tryDone w.2.1 else y.failDigest key 0x40) s

/-- DIGEST_WAIT_EXPIRE (R393): a task group's digest is not in. -/
def execDigestWaitExpire (key : Nat) (s : State) : Res := onSys (fun y => if key < 2 ^ 62 then y.failDigest key 0x50 else y) s

/-- BAND_DIGEST_LATE (R393): a band chain's digest is not in one frame after its commit point. -/
def execBandDigestLate (band kind frame : Nat) (s : State) : Res :=
  onSys (Sys.failDigest (bandKey (band % 256) (kind % 2) frame) 0x50) s

end Sys2Proof.Machine
end

