-- ==== Sys2Proof/Machine/Faults.lean ====
section
/-! DEFINITION. Faults and telemetry (R353, R400 to R407), with failed cores, spares and stalls disabled at run time (R99, R100). -/

namespace Sys2Proof.Machine

/-! ### Saved slivers -/

/-- A saved sliver of a stall's save region is lost: it runs again, or ends with 0x30 after its third fault (R400, R401). -/
def Sys.saveRetry (v : Save) (y : Sys) : Sys :=
  let y := (y.noResume v.seq).dropHold (.sliver v.run.tg v.run.sliver)
  let y := y.dropSave true v
  let y := y.modStalls fun ss => tmap ss fun _ k => { k with saves := k.saves.filter fun w => w.seq != v.seq }
  if y.mayAgain v.run.tg v.run.sliver then y.again v.run.tg v.run.sliver
  else
    let y := y.modTg v.run.tg fun g => { g with ended := g.ended + 1, status := statusJoin g.status 0x30 }
    if y.tgSettled v.run.tg then y.tgComplete v.run.tg else y

/-- A restore is given up: its core is free again, the sliver's sum returns, and the save waits to be restored elsewhere. -/
def Sys.noRestore (q : Nat) (y : Sys) : Sys :=
  match y.findSave q with
  | some v => (y.noResume q).dropHold (.sliver v.run.tg v.run.sliver)
  | none => y.noResume q

/-- Every sliver of a stall is withheld: those on its cores, those saved in its region, and those its cores restore from a save area. -/
def Sys.stallRetry (s : Nat) (y : Sys) : Sys :=
  let y := (y.stall s).saves.foldl (fun y v => y.saveRetry v) y
  let y := ((y.cores.filter fun c => stallOf c.1 == s && c.2.run.isSome).map (·.1)).foldl (fun y c => y.sliverRetry c) y
  let y := ((y.cores.filter fun c => stallOf c.1 == s).filterMap (·.2.resume)).foldl (fun y q => y.noRestore q) y
  y.recall fun t => y.girth.reqs.any fun r => match r.act with | .dispatch k _ c => k == t && stallOf c == s | _ => false

/-- The mailbox of a stall is lost: responses are discarded with their credits, outstanding ones orphaned (R288). -/
def Sys.dropMail (s : Nat) (y : Sys) : Sys :=
  let k := ((y.stall s).mbox.filter fun m => m.2.full).length
  (y.modStall s fun t => { t with mbox := (t.mbox.filter fun m => m.2.pending).map fun m => (m.1, { m.2 with orphan := true, parked := false, owner := none }) })
    |>.modPool 2 4 (Pool.give k)

/-! ### Failed cores, stalls disabled (R99, R100, R402) -/

/-- The lowest physical slot of a stall that is neither bound nor failed (R99). -/
def Stall.spare (k : Stall) : Option Nat := (List.range 66).find? fun p => !k.slotMap.contains p && !k.failedPhys.contains p

/-- A stall is disabled at run time (R100). -/
def Sys.disableStall (s : Nat) (y : Sys) : Sys :=
  let y := y.modGlob fun g => { g with stallEn := clrBit g.stallEn s }
  let y := y.modStall s fun k => { k with failed := true }
  let y := (y.stallRetry s).dropMail s
  let y := y.gate s
  let y := y.modGirth fun g => { g with reqs := g.reqs.filter fun r => r.act != .wake s }
  let y := y.modFlt fun f => { f with stallsLost := satInc f.stallsLost }
  (y.logFault { cls := 1, action := 3, status := 0, block := 0, stall := s }).fltEvent 4

/-- A logical core is declared failed: a spare takes its slot, or the stall is disabled (R99, R100). -/
def Sys.coreFailed (c : Nat) (y : Sys) : Sys :=
  let s := stallOf c
  let bad := y.physOf c
  let y := (y.modStall s fun k => { k with failedPhys := bad :: k.failedPhys }).fltEvent 3
  let y := y.sliverRetry c
  match (y.stall s).spare with
  | some p =>
    let y := y.modStall s fun k => { k with slotMap := k.slotMap.set (c % 64) p }
    let y := y.modCore c fun k => { k with epoch := nextEpoch k.epoch, ls := {}, faultAt := [], st := if k.st = .failed then .idle else k.st }
    let y := y.modStall s fun k => { k with subst := satInc k.subst }
    if (y.core c).epoch = 0 then y.modBridle fun b => { b with aff := b.aff.filter fun a => a.core != c } else y
  | none => (y.modCore c fun k => { k with st := .failed }).disableStall s

/-- Reference cycles of 1 s. -/
def sCycles : Nat := 38400000

/-- A SLIVER-class fault on a core (R400 to R402); permanent says that the engine self-check marked it so. -/
def Sys.coreFault (c : Nat) (permanent : Bool) (y : Sys) : Sys :=
  let now := y.glob.refCycles
  let y := y.logSliver c 1 0 0
  let y := y.modCore c fun k => { k with faultAt := now :: k.faultAt.filter fun t => decide (now < t + sCycles) }
  if permanent || decide (max 1 y.flt.coreLimit ≤ (y.core c).faultAt.length) then y.coreFailed c else y.sliverRetry c

/-- A STALL-class fault: every sliver of the stall is withheld, and the stall is reset (R50, R52, R400). -/
def Sys.stallFault (s : Nat) (y : Sys) : Sys :=
  let y := y.logFault { cls := 2, action := 1, status := 0, block := 0, stall := s }
  let y := (y.stallRetry s).dropMail s
  let y := y.modStall s fun k => { k with epoch := nextEpoch k.epoch, pool := {}, badPool := [] }
  let y := (List.range 64).foldl (fun y i => y.modCore (64 * s + i) fun k => { k with ls := {} }) y
  if (y.stall s).epoch = 0 then y.modBridle fun b => { b with aff := b.aff.filter fun a => stallOf a.core != s } else y

/-! ### Memory and loft (R350, R353) -/

/-- A block of device memory has become uncorrectable, and the read of a core's sliver met it. -/
def Sys.blockFaultAt (b c : Nat) (y : Sys) : Sys :=
  let y := y.modMem fun m => { m with bad := if m.bad.contains b then m.bad else b :: m.bad }
  if y.mem.memEnd < 64 * b + 64 then y
  else if (y.core c).run.isSome then (y.uncorrectable b).sliverFault c 3 1 (64 * b)
  else y

/-- An uncorrectable error in a loft line (R353): a clean line is dropped, a dirty one takes every context of its domain to Calm. -/
def Sys.loftFault (line : Nat) (y : Sys) : Sys :=
  match y.mem.loft.find? (fun l => l.line == line) with
  | none => y
  | some l =>
    let y := y.modMem fun m => { m with loft := m.loft.filter fun k => k.line != line }
    if !l.dirty then y.modFlt fun f => { f with corrected := satInc f.corrected }
    else
      let y := y.modMem fun m =>
        if bitAt m.errInfo 6 then m else { m with errAddr := 128 * line, errInfo := put l.slice 0 4 + 2 * 2 ^ 4 + 2 ^ 6 }
      let y := y.memEvent 3
      let y := y.logFault { cls := 4, action := 5, status := 0x31, block := 2, addr := 128 * line }
      (y.validCtxs.filter fun c => (y.ctx c).domain == l.dom).foldl (fun y c => y.ctxCalm 0x31 c) y

/-- A granule of a stall pool fails: it faults on every read until rewritten; the sliver on core c met it (R400 SHARED_DATA). -/
def Sys.granuleFaultAt (c a : Nat) (y : Sys) : Sys :=
  let g := a / 256
  let y := y.modStall (stallOf c) fun k =>
    { k with badPool := (List.range 256).map (256 * g + ·) ++ k.badPool.filter fun b => b / 256 != g }
  if (y.core c).run.isSome then y.sliverFault c 3 0 0 else y

/-- A corrected error (R348, R349, R353, R400): 0 any SECDED bit, 1 a read link error, 2 an inline ECC correction, 3 a loft correction. -/
def Sys.correctedError (kind : Nat) (y : Sys) : Sys :=
  let y := y.modFlt fun f => { f with corrected := satInc f.corrected }
  y.modMem fun m =>
    match kind with
    | 1 => { m with linkCorr := satInc m.linkCorr }
    | 2 => { m with inlineCorr := satInc m.inlineCorr }
    | 3 => { m with loftCorr := satInc m.loftCorr }
    | _ => m

/-! ### Rows -/

/-- FAULT_DETECT (R400): where the error lies (site, and its place a, b) is the surroundings' word. 0 corrected (kind a); 1 sliver state of core a;
2 stall a; 3 pool granule at address b of the stall of core a; 4 memory block a met by core b; 5 loft line a; 6 raster; 7 vision engine a; 8 a
pixel of pipe a in its buffers; 9 a save granule of the save numbered b in stall a; 10 control logic of block a; 11 state of the
security block (R430). -/
def execFaultDetect (site a b : Nat) (permanent : Bool) (s : State) : Res :=
  onSys (fun y =>
    match site with
    | 0 => y.correctedError a
    | 1 => if y.enabled (stallOf (a % 4096)) then y.coreFault (a % 4096) permanent else y
    | 2 => if y.enabled (a % 64) then y.stallFault (a % 64) else y
    | 3 => if y.enabled (stallOf (a % 4096)) ∧ b < 0x100000 then y.granuleFaultAt (a % 4096) b else y
    | 4 => y.blockFaultAt a (b % 4096)
    | 5 => y.loftFault a
    | 6 =>
      let y := y.logFault { cls := 5, action := 4, status := 0x30, block := 3 }
      (match y.raster.active with | some p => y.passStop p true 0x30 | none => y)
    | 7 => match y.onEngine (a % 6) with
      | none => y.logFault { cls := 5, action := 7, status := 0, block := 4 }
      | some c =>
        let y := y.logFault { cls := 5, action := if 2 ≤ c.restarts then 4 else 7, status := if 2 ≤ c.restarts then 0x30 else 0, block := 4,
                              ctx := some c.ctx, job := some c.job, attempt := c.restarts }
        y.visionRestart c
    | 8 =>
      let y := y.logFault { cls := 5, action := 2, status := 0, block := 5 + a % 2 }
      (y.modPipe (a % 2) fun p => { p with underPx := satInc p.underPx, underLines := satInc p.underLines }).pipeEvent (a % 2) 0
    | 9 => match (y.stall (a % 64)).saves.find? (fun v => v.seq == b) with
      | none => y
      | some v =>
        let g := y.tg v.run.tg
        let again := y.mayAgain v.run.tg v.run.sliver
        let y := y.logFault { cls := 1, action := if again then 1 else 4, status := if again then 0 else 0x30, block := 0, stall := a % 64,
                              ctx := some g.ctx, job := some g.job, attempt := tget 0 g.retries v.run.sliver, group := g.group }
        y.saveRetry v
    | 11 =>
      let y := y.modSec fun c => { (c.drop fun h => match h with | .seal _ => true | _ => false) with models := [] }
      (y.logFault { cls := 0x0C, action := 6, status := 0x60, block := 0x0C }).enterDieCalm 0x0C 0x60
    | 10 => (y.logFault { cls := 8, action := 6, status := 0x30, block := a % 14 }).enterDieCalm 0x08 0x30
    | _ => y) s

/-- The eight words of the selected entry; zeros where nothing was written (R407). -/
def Fault0.selected (f : Fault0) : List Nat := tget (List.replicate 8 0) f.log f.logSel

/-- FAULT_LOG_READ (R407): a read of FAULT_LOG_DATA0 latches the entry's eight words. -/
def execFaultLogRead (s : State) : Res :=
  onSys (fun y => (y.modFlt fun f => { f with latch := some f.selected }).readVal (y.flt.selected.getD 0 0)) s

/-- FAULT_CTRL.CLR_COUNTS (R407). -/
def Sys.faultClear (same : Nat) (y : Sys) : Sys := y.modFlt fun f => { f with reexec := cleared same 0, corrected := cleared same 1, stallsLost := cleared same 2 }

def execFaultClrCounts (s : State) : Res := onSys (Sys.faultClear 0) s

end Sys2Proof.Machine
end

