-- ==== Sys2Proof/Machine/Security.lean ====
section
/-! DEFINITION. The security block (R414 to R431): sealed models, region digests of Brands, attestation. -/

namespace Sys2Proof.Machine

/-- A model slot. -/
def Sys.model (y : Sys) (k : Nat) : Model := tget {} y.sec.models k

def Sys.modModel (k : Nat) (f : Model → Model) (y : Sys) : Sys := y.modSec fun c => { c with models := tmod {} c.models k f }

/-- The domain a region lies wholly within (R340, R418). -/
def Sys.regionDom (y : Sys) (a n : Nat) : Option Nat := (List.range y.mem.domChans.length).find? fun d => y.mem.inDom d a n

/-- Live jobs that name a slot (R418, R431). -/
def Sys.namers (y : Sys) (k : Nat) : List Nat :=
  (y.work.jobs.filter fun j => j.2.alive && (y.brandOf j.1).entries.any fun e => e.kind == 3 && e.addr == k).map (·.1)

/-! ### Sealing (R418) -/

/-- SEC_MODEL_CMD.SEAL. -/
def Sys.seal (y : Sys) : Sys :=
  let k := y.sec.modelSel
  let m := y.model k
  let a := m.regAddr
  let n := 64 * m.regLen
  let overlaps := y.sec.models.any fun p => p.1 != k && p.2.st != 0 && decide (p.2.addr < a + n ∧ a < p.2.addr + 64 * p.2.len)
  match y.regionDom a n with
  | none => y.reject
  | some d =>
    if m.st ≠ 0 ∨ a % 64 ≠ 0 ∨ overlaps = true then y.reject
    else (y.modModel k fun m => { m with st := 1, dom := d, addr := a, len := m.regLen }).modSec fun c => c.ask [.seal k]

def execSeal (s : State) : Res := onSys Sys.seal s

/-- A hash engine runs a request. -/
def Sys.hashing (y : Sys) (h : HashReq) : Bool := y.sec.eng0 == some h || y.sec.eng1 == some h

/-- A request leaves its engine, which takes the next. -/
def Sys.hashDone (h : HashReq) (y : Sys) : Sys := y.modSec (Sec.drop (· == h))

/-- A region as a hash engine reads it, through the loft cache; none when a block cannot be corrected (R350, R418). -/
def Sys.hashRead (a n : Nat) (y : Sys) : Sys × Option (List Byte) :=
  match y.mem.fails .noalloc a n with
  | some b => ((y.uncorrectable b).logFault { cls := 3, action := 4, status := 0x30, block := 1, addr := 64 * b }, none)
  | none => let r := y.mem.load .noalloc a n; ({ y with mem := r.1 }, some r.2)

/-- SEAL_HASH_DONE: the slot is SEALED with its digest; a region that cannot be read returns it to EMPTY (log entry 33). -/
def execSealHashDone (slot : Nat) (s : State) : Res :=
  onSys (fun y =>
    let k := slot % 16
    let m := y.model k
    if y.hashing (.seal k) = false ∨ m.st ≠ 1 then y
    else match (y.hashDone (.seal k)).hashRead m.addr (64 * m.len) with
      | (y, none) => y.modModel k fun m => { m with st := 0 }
      | (y, some bs) => (y.modModel k fun m => { m with st := 2, digest := Shake.shake256 32 bs }).secEvent 0) s

/-- SEC_MODEL_CMD.UNSEAL. -/
def Sys.unseal (y : Sys) : Sys :=
  let k := y.sec.modelSel
  if (y.namers k).isEmpty then (y.modSec (Sec.drop (· == HashReq.seal k))).modModel k fun m => { m with st := 0, digest := List.replicate 32 0 }
  else y.reject

def execUnseal (s : State) : Res := onSys Sys.unseal s

/-- A write of SEC_MODEL_CMD. -/
def Sys.modelCmd (word : Nat) (y : Sys) : Sys :=
  let y := if bitAt word 0 then y.seal else y
  if bitAt word 1 then y.unseal else y

/-! ### Region digests (R416, R420) -/

/-- Every region of a job has its digest in a table. -/
def BrandSt.allIn (b : BrandSt) (t : Tab (List Byte)) : Bool := (b.regions (· != 3)).all fun i => (tfind t i).isSome

/-- A digest of a region is complete: the job starts with the last start digest, and is DONE, or fails, with the last end digest. -/
def Sys.regionDone (j i : Nat) (atEnd : Bool) (d : List Byte) (y : Sys) : Sys :=
  if atEnd then
    let y := y.modBrand j fun b => { b with ends := tset b.ends i d }
    let b := y.brandOf j
    if b.allIn b.ends then
      let y := y.modBrand j fun b => { b with st := 4 }
      if (b.regions (· != 3)).all (fun i => tfind b.starts i == tfind b.ends i) then y.tryDone j
      else (y.brandFail j 0x60).stopJobWork j
    else y
  else
    let y := y.modBrand j fun b => { b with starts := tset b.starts i d }
    let b := y.brandOf j
    if b.allIn b.starts then (y.modBrand j fun b => { b with st := 2 }).enterRunning j else y

/-- REGION_HASH_DONE (R416, R421). -/
def execRegionHashDone (job index : Nat) (atEnd : Bool) (s : State) : Res :=
  onSys (fun y =>
    let j := job % 4096
    let h := HashReq.region j index atEnd
    match (y.brandOf j).entries[index]? with
    | none => y
    | some e =>
      if !y.hashing h then y
      else match (y.hashDone h).hashRead e.addr e.len with
        | (y, none) => y.cancelJob j 0x30
        | (y, some bs) => y.regionDone j index atEnd (Shake.shake256 32 bs)) s

/-! ### Attestation (R428, R429) -/

/-- The 256 bytes of a report's body (R429). -/
def Sys.report (y : Sys) (resetCause : Nat) : List Byte :=
  let g := y.glob
  let u := y.duo
  let w3 := put g.part 0 16 + put g.step 16 8 + put g.config 24 2 + putb g.duoId 26 + put u.role 27 2 + putb u.alone 29 + putb y.flt.dieCalm 30
  wordsBytes ([0x54535441, 1, 17344, w3, y.sec.serial % 2 ^ 32, y.sec.serial / 2 ^ 32 % 2 ^ 32, y.sec.fwVersion, g.amendCount])
    ++ padTo 32 g.patternDigest ++ padTo 32 y.sec.recordDigest
    ++ wordsBytes (y.sec.nonce ++ y.sec.user) ++ padTo 32 y.sec.idPk
    ++ wordsBytes ([if g.config = 0 then 0 else u.epoch, g.stallEn % 2 ^ 32, g.stallEn / 2 ^ 32 % 2 ^ 32, resetCause % 32, y.flt.logCount,
        y.sec.attSeq, g.refCycles % 2 ^ 32, g.refCycles / 2 ^ 32 % 2 ^ 32] ++ List.replicate 8 0)

/-- SEC_ATT_CMD.GO (R428): in READY while no report is BUSY, the fields are snapshot. -/
def Sys.attGo (resetCause : Nat) (y : Sys) : Sys :=
  if y.glob.ready = false ∨ y.sec.attSt = 1 then y.reject
  else
    let y := y.modSec fun c => { c with attSeq := (c.attSeq + 1) % 2 ^ 32, attSt := 1 }
    let body := y.report resetCause
    y.modSec fun c => { c with attBody := body }

def execAttGo (s : State) : Res := onSys (Sys.attGo s.boot.cause) s

/-- ATT_REPORT_WRITTEN (R428): the signed report goes to host memory over module 0, then ATT_DONE; a failed write gives ATT_FAIL. -/
def Sys.attWritten (ok : Bool) (secret : List Byte) (y : Sys) : Sys :=
  if y.sec.attSt ≠ 1 then y
  else if ok = true ∧ (y.module 0).st = 3 then
    let bs := y.sec.attBody ++ padTo 17088 (Config.slhSign secret y.sec.attBody)
    let y := y.postFirst 0 (hostPackets 0 65 y.sec.attAddr bs)
    (y.modSec fun c => { c with attSt := 2 }).secEvent 3
  else (y.modSec fun c => { c with attSt := 3 }).secEvent 4

def execAttReportWritten (ok : Bool) (s : State) : Res := onSys (Sys.attWritten ok s.boot.secret) s

/-- SEC_CTRL.CLR_COUNTS (R431). -/
def Sys.secClear (same : Nat) (y : Sys) : Sys := y.modSec fun c => { c with sealRejects := cleared same 0, brandFails := cleared same 1 }

def execSecClrCounts (s : State) : Res := onSys (Sys.secClear 0) s

end Sys2Proof.Machine
end

