-- ==== Sys2Proof/Machine/Boot.lean ====
section
/-! DEFINITION. Bring-up, the loading of firmware and Pattern, resets, run-time amendments (R28 to R49, R423 to R427, R451 to R456). -/

namespace Sys2Proof.Machine

/-- The bring-up block changed. -/
def State.modBoot (f : Boot → Boot) (s : State) : State := { s with boot := f s.boot }

/-- The run-time blocks changed. -/
def State.modSys (f : Sys → Sys) (s : State) : State := { s with sys := f s.sys }

/-- Bring-up stands in a phase. -/
def State.enter (p : Phase) (s : State) : State := s.modBoot fun b => { b with phase := p }

/-- A failure of steps 2 to 5, 10 or 11: ERROR, PHASE=HALTED (R43). -/
def State.halt (code : Nat) (s : State) : State := s.modBoot fun b => { b with phase := .halted, error := code }

/-- Clock domains start (R26). -/
def Sys.runDomains (l : List Nat) (y : Sys) : Sys := y.modGlob fun g => { g with domainsRun := l.foldl setBit g.domainsRun }

/-! ### Steps 1 to 5 (R42, R423, R426, R455) -/

/-- Step 2: the CTRL, SEC and PWR PLLs lock, or bring-up halts with 0x31. -/
def State.step2 (pll : Bool) (s : State) : State :=
  if pll then (s.modSys (Sys.runDomains [2, 15, 16])).enter .record else s.halt 0x31

/-- PWRGOOD_RISE (R42 steps 1 and 2, R440): the straps as they stand are sampled; pll tells whether the PLLs of step 2 lock. -/
def execPwrgoodRise (duoId duoMode pll : Bool) (s : State) : Res :=
  if s.boot.power then .next s
  else
    let s := s.modBoot fun b => { b with power := true, safe := false, duoId := duoId, duoMode := duoMode }
    .next ((s.modSys fun y => y.modGlob fun g => { g with duoId := duoId }).step2 pll)

/-- RECORD_READ_DONE (R39, step 3a): the bytes at NOR offset 0, or a silent NOR. -/
def execRecordReadDone (ok : Bool) (record : List Byte) (s : State) : Res :=
  if s.boot.phase ≠ .record ∨ s.boot.recordRead = true then .next s
  else if ok then .next (s.modBoot fun b => { b with record := record.take 32768, recordRead := true })
  else .next (s.halt 0x01)

/-- PUF_IDENTITY_DONE (R426, step 3b): the secret S of 32 bytes as corrected from the SRAM, or an unstable PUF. -/
def execPufIdentityDone (ok : Bool) (secret : List Byte) (s : State) : Res :=
  if s.boot.phase ≠ .record ∨ s.boot.pufDone = true then .next s
  else if ok then
    let seeds := Shake.shake256 48 ([0x41, 0x43, 0x42, 0x58, 0x2D, 0x49, 0x44, 0x2D, 0x31] ++ padTo 32 secret)
    let pk := padTo 32 (Config.slhPublicKey seeds)
    .next ((s.modBoot fun b => { b with pufDone := true, secret := seeds, idDigest := Shake.shake256 32 pk }).modSys fun y =>
      y.modSec fun c => { c with idOk := true, idPk := pk })
  else .next (s.halt 0x05)

/-- GIRTH_GAIN from the record's CAL (R366, R382). -/
def recordGain (msg : List Byte) : Nat :=
  match Config.calGain (msg.drop 3908) with
  | none => 4096
  | some g => clamp 2048 8192 g

/-- What an accepted record sets (R26, R40, R42 step 5). -/
def Sys.takeRecord (msg : List Byte) (y : Sys) : Sys :=
  let ws := wordsOf msg
  let en := recordStalls ws
  let y := y.modGlob fun g => { g with part := fld (ws.getD 3 0) 0 16, step := fld (ws.getD 3 0) 16 8, stallEn := en }
  let y := y.modSec fun c => { c with serial := ws.getD 4 0 + 2 ^ 32 * ws.getD 5 0, recordDigest := Shake.shake256 32 msg }
  let y := y.modGirth fun g => { g with gain := recordGain msg }
  (maskList 64 en).foldl (fun y k => y.modStall k fun t => { t with slotMap := recordSlots ws k }) y

/-- RECORD_VERIFY_DONE (R423, R455, step 4): block is the 64-byte key block at NOR offset 0x8000. -/
def execRecordVerifyDone (block : List Byte) (s : State) : Res :=
  if s.boot.phase ≠ .record ∨ s.boot.recordRead = false ∨ s.boot.pufDone = false then .next s
  else
    let k := rootKeyOf block
    let s := match k with
      | some key => (s.modBoot fun b => { b with rootKey := key }).modSys fun y => y.modSec fun c => { c with keyOk := true }
      | none => s
    let code := recordError k.isSome s.boot.rootKey s.boot.record s.boot.idDigest
    if code ≠ 0 then .next (s.halt code)
    else match recordParts s.boot.record with
      | none => .next s
      | some p => .next (((s.modBoot fun b => { b with recordOk := true }).modSys (Sys.takeRecord p.1)).enter .link)

/-- LINK_TRAIN_DONE (R319, step 5): module 0 is trained, or bring-up halts with 0x32; pll tells whether the HOSTLINK PLL locks (0x31). Also the
training of a module 0 that a WARM reset from the bump starts again (R328). -/
def execLinkTrainDone (ok pll : Bool) (s : State) : Res :=
  let again := s.boot.phase = .waitFirmware ∧ s.sys.link.m0.st = 1
  if s.boot.phase ≠ .link ∧ ¬ again then .next s
  else if !pll then .next (s.halt 0x31)
  else if !ok then .next (s.halt 0x32)
  else
    let s := s.modSys fun y => (y.runDomains [3]).linkTrained 0
    .next ((s.modBoot fun b => { b with linked := true }).enter .waitFirmware)

/-- HOST_INIT (R325): the host's INIT after training; module 0 with too few credits halts bring-up, module 1 sets M1_FAIL. -/
def execHostInit (module ph nph pd : Nat) (s : State) : Res :=
  let m := module % 2
  if (s.sys.module m).st ≠ 2 then .next s
  else if initOk ph nph pd then
    .next (s.modSys fun y =>
      let y := y.hostUp m (ph % 2 ^ 10) (nph % 2 ^ 10) (pd % 2 ^ 20)
      if m = 1 then y.runDomains [4] else y)
  else if m = 0 then .next ((s.modBoot fun b => { b with linked := false }).halt 0x32)
  else .next (s.modSys fun y => (y.modModule 1 fun k => { k with st := 0 }).linkEvent 9)

/-! ### Loads (R37, R44, R425) -/

/-- The image as it is fetched: none from an address that is not 64-byte aligned (R44). -/
def State.stage (image : List Byte) (s : State) : State :=
  s.modBoot fun b => { b with image := if s.sys.glob.loadAddr % 64 = 0 then image.take (2 ^ 20) else [] }

/-- A load bit written outside its phase (R44). -/
def State.rejected (s : State) : State := s.modSys Sys.reject

/-- GLOBAL_LOAD.LOAD_FW. -/
def State.loadFw (image : List Byte) (s : State) : State :=
  if s.boot.phase = .waitFirmware then (s.stage image).enter .firmware else s.rejected

/-- LOAD_FW (R44): image is what host memory holds at GLOBAL_LOAD_ADDR. -/
def execLoadFw (image : List Byte) (s : State) : Res := .next (s.loadFw image)

/-- FIRMWARE_VERIFY_DONE (R425): the firmware runs, or ERROR and back to WAIT_FIRMWARE. -/
def execFirmwareVerifyDone (s : State) : Res :=
  if s.boot.phase ≠ .firmware then .next s
  else match firmwareCheck s.boot.rootKey s.sys.glob.part s.sys.glob.step s.boot.image with
    | .error e => .next (s.modBoot fun b => { b with phase := .waitFirmware, error := e, image := [] })
    | .ok v =>
      .next ((s.modBoot fun b => { b with phase := .waitPattern, error := 0, image := [] }).modSys fun y => y.modSec fun c => { c with fwVersion := v })

/-- GLOBAL_LOAD.LOAD_PATTERN. -/
def State.loadPattern (image : List Byte) (s : State) : State :=
  if s.boot.phase = .waitPattern then (s.stage image).enter .pattern else s.rejected

/-- LOAD_PATTERN (R44). -/
def execLoadPattern (image : List Byte) (s : State) : Res := .next (s.loadPattern image)

/-- The memory settings of CLOCKS: MEM_RATE, MEM_TYPE, INLINE_ECC (R45). -/
def memWord (cl : List Nat) : Nat := fld (cl.getD 1 0) 0 16

/-- A place in a channel as one number: the channel, and the byte in it. -/
def chanKey (p : Nat × Nat) : Nat := p.1 * 2 ^ 40 + p.2

/-- The place a device address has in its channel. -/
def MemSys.chanOf (m : MemSys) (a : Nat) : Option Nat := (m.domOf a).map fun d => chanKey (m.locate d a)

/-- The device address of a place; none in a channel that belongs to no domain. -/
def MemSys.addrOf (m : MemSys) (k : Nat) : Option Nat :=
  let c := k / 2 ^ 40
  let o := k % 2 ^ 40
  ((List.range m.domChans.length).find? fun e => bitAt (m.domChans.getD e 0) c).map fun e =>
    let chs := maskList 16 (m.domChans.getD e 0)
    m.domBase e + (o / 256 * chs.length + (chs.filter fun d => decide (d < c)).length) * 256 + o % 256

/-- The memory map of a Pattern; what the memory holds stays in its channels, in those that belong to no domain now as well (R45, log entry 39). -/
def MemSys.remap (chans ways : List Nat) (cl : List Nat) (m : MemSys) : MemSys :=
  let new := { m with domChans := chans, domWays := ways, rate := fld (cl.getD 1 0) 0 14, lp5 := bitAt (cl.getD 1 0) 14, inlineEcc := bitAt (cl.getD 1 0) 15 }
  if chans = m.domChans ∧ new.inlineEcc = m.inlineEcc then new
  else
    let cells := m.shelf ++ m.dram.filterMap fun c => (m.chanOf c.1).map fun k => (k, c.2)
    let bad := m.shelfBad ++ m.bad.filterMap fun b => m.chanOf (64 * b)
    { new with
      dram := cells.foldl (fun c p => match new.addrOf p.1 with | some a => Cells.write c a [p.2] | none => c) []
      shelf := cells.foldl (fun c p => if (new.addrOf p.1).isSome then c else Cells.write c p.1 [p.2]) []
      bad := bad.filterMap fun k => (new.addrOf k).map (· / 64)
      shelfBad := bad.filter fun k => (new.addrOf k).isNone }

/-- A pipe takes its new DISPLAY entry: one that differs retrains its link, or is OFF when not PRESENT (R45, R261). -/
def Sys.newDisplay (n : Nat) (ws : List Nat) (y : Sys) : Sys :=
  let p := y.pipe n
  let y := if p.words = ws then y
    else if p.en = false then y.modPipe n fun p => { p with words := ws }
    else if bitAt (ws.getD 0 0) 0 then
      (y.modPipe n fun p => { p with words := ws, st := .training, trained := false, stillReq := false, exitReq := false, su := none, suRun := none, line0 := false, waiting := [], replay := false }).timingStopped n
    else (y.modPipe n fun p => { p with words := ws }).pipeDisable n
  y.calmClear n 4

/-- A Pattern applies whole: every RWP field and structure it sets (R33 to R38, R45). -/
def Sys.applyPattern (msg : List Byte) (y : Sys) : Sys :=
  let sec := section_ msg
  let dm := sec 2
  let qu := sec 3
  let pe := sec 4
  let cl := sec 8
  let du := sec 9
  let doms := patDoms (sec 1) dm y.glob.stallEn
  let y := y.modGlob fun g => { g with config := fld (du.getD 0 0) 0 2, patternDigest := Shake.shake256 32 msg, amendCount := 0 }
  let y := y.modBridle fun b => { b with doms := doms, ranges := queueRanges qu, ctxs := (validWords qu).foldl (fun t p => tmod {} t p.1 (Ctx.underWord p.2)) b.ctxs }
  let y := y.modMem (MemSys.remap (domFields dm fun d => fld (domWord dm d 3) 0 16) (domFields dm fun d => fld (domWord dm d 3) 16 16) cl)
  let y := y.modGirth fun g =>
    { g with pool := fld (pe.getD 0 0) 0 18, compReserve := fld (pe.getD 1 0) 0 18, costs := costsOf pe, opMask := fld (cl.getD 0 0) 0 7,
             bootOp := fld (cl.getD 0 0) 8 3 }
  let y := y.modBeam fun b => { b with gates := 0 }
  let y := y.modDuo fun u => { u with epoch := du.getD 2 0, gts := fld (du.getD 1 0) 0 6 }
  (y.newDisplay 0 ((sec 6).take 16)).newDisplay 1 ((sec 6).drop 16)

/-- PATTERN_CHECK_DONE (R37, R454): the Pattern applies whole, or ERROR and back to WAIT_PATTERN. -/
def execPatternCheckDone (s : State) : Res :=
  if s.boot.phase ≠ .pattern then .next s
  else
    let g := s.sys.glob
    let e := patternError s.boot.rootKey g.part g.step g.stallEn s.boot.duoMode s.boot.image
    if e ≠ 0 then .next (s.modBoot fun b => { b with phase := .waitPattern, error := e, image := [] })
    else match patParts s.boot.image with
      | none => .next s
      | some (msg, _) =>
        let sec := section_ msg
        let b := s.boot
        .next (({ s with boot :=
          { b with phase := .apply, error := 0, image := [], queueWords := sec 3, permitWords := sec 4, beamWords := sec 5, pinWords := sec 7,
                   clockWords := sec 8, duoWords := sec 9, memDone := false, stallsDone := false, pllDone := false,
                   keepMem := !b.oldClocks.isEmpty && memWord b.oldClocks == memWord (sec 8) } } : State).modSys (Sys.applyPattern msg))

/-! ### APPLY and READY (R42 steps 10 to 12) -/

/-- ARITH starts at BOOT_OP, its voltage written over AVSBus (R42 step 10, R443). -/
def Sys.startArith (y : Sys) : Sys :=
  let n := y.girth.bootOp
  (y.modGirth fun g => { g with op := n, priceOp := n, target := n, stepTo := n, step := .idle }).avsWrite (opMv.getD n 620)

/-- APPLY_PLL_LOCK_DONE (step 10): the domains of CLOCKS.START run; in SOLO bit 4 waits for module 1 (R319), bit 17 is the TAP's. PINS acts
from here (R447). -/
def execApplyPllLockDone (ok : Bool) (s : State) : Res :=
  if s.boot.phase ≠ .apply ∨ s.boot.pllDone = true then .next s
  else if !ok then .next (s.halt 0x31)
  else
    let start := (maskList 17 (s.boot.clockWords.getD 2 0)).filter fun n => n != 4 || s.sys.glob.config != 0
    .next ((s.modBoot fun b => { b with pinsOn := true, pllDone := true }).modSys fun y => (y.runDomains start).startArith)

/-- The stalls of the domains. -/
def Sys.placed (y : Sys) : List Nat := (List.range 64).filter fun k => y.enabled k && (y.domOfStall k).isSome

/-- Pools are counted from the Pattern and the record (R310, R311, R386). -/
def Sys.countPools (y : Sys) : Sys :=
  let en := maskList 64 y.glob.stallEn
  let fixed := [(poolKey 0 0, y.girth.pool), (poolKey 3 0, 8192), (poolKey 3 1, 64), (poolKey 3 2, 2)] ++
    (if y.glob.config = 0 then [] else [(poolKey 2 4, 256 * en.length)]) ++ en.map fun k => (poolKey 7 k, 256)
  fixed.foldl (fun y p => y.modCons fun c => { c with pools := tset c.pools p.1 (Pool.init p.2) }) y

/-- An ungated stall takes its awake holdings when Girth can grant them; else it is gated (R358, R376). -/
def Sys.takeAwake (k : Nat) (y : Sys) : Sys :=
  let hs := y.awakeHolds k
  if y.canGrant { holds := hs, prio := 7, act := .wake k } then y.takeHolds hs else y.modStall k fun t => { t with gated := true }

/-- The Beam unit starts from BEAM, on the ghost beam at line 0, tick 0, no frame started yet; it moves to a pipe whose timing runs already at that
pipe's next frame start (R42 step 12, R69, R70). -/
def Sys.startBeam (be : List Nat) (y : Sys) : Sys :=
  let g := beamGhost be
  let y := y.modBeam fun b =>
    { b with on := true, master := beamMaster be, period := beamPeriod be, band := beamBand be, lead := beamLead be, ghostTick := g.1, ghostVtotal := g.2.1,
             ghostVactive := g.2.2, table := beamTable be, line := 0, tick := 0, phase := 0, next := 0, frame := 0, acc := 0,
             moveTo := if beamMaster be < 2 ∧ (y.pipe (beamMaster be)).runs = true then some (beamMaster be) else none }
  if y.beamFollows then y else y.atPosition

/-- Module 1 starts training at READY (R319, R383): in SOLO when CLOCKS.START sets bit 4; as the Harness else, the die in DUO_HOLD. -/
def Sys.startModule1 (start : Nat) (y : Sys) : Sys :=
  if y.glob.config = 0 then
    if bitAt start 4 ∧ y.link.m1.st = 0 then y.modModule 1 fun m => { m with st := 1 } else y
  else
    let y := y.modModule 1 fun m => { m with st := 5 }
    (y.modDuo fun u => { u with st := 1, role := if y.glob.duoId then 1 else 2 }).enterHold

/-- READY (step 12): pools counted, the Beam unit started, contexts open. -/
def Sys.readyUp (be cl : List Nat) (y : Sys) : Sys :=
  let y := y.modGlob fun g => { g with ready := true, memUp := true }
  let y := (y.countPools).newLimit
  let y := y.placed.foldl (fun y k => y.takeAwake k) y
  let y := y.startModule1 (cl.getD 2 0)
  y.startBeam be

/-- Steps 11a and 11b have both ended. -/
def State.tryReady (s : State) : State :=
  if s.boot.memDone && s.boot.stallsDone then (s.enter .ready).modSys (Sys.readyUp s.boot.beamWords s.boot.clockWords) else s

/-- Step 10 has ended and steps 11a, 11b run. -/
def State.inStep11 (s : State) : Bool := s.boot.phase == .apply && s.boot.pllDone

/-- STALL_INIT_DONE (step 11b): the stalls are ungated, their pools cleared, the loft cache invalidated, epochs set to 0x0001 (R50, R52). -/
def execStallInitDone (s : State) : Res :=
  if !s.inStep11 || s.boot.stallsDone then .next s
  else
    let s := s.modSys fun y =>
      let y := y.placed.foldl (fun y k => y.modStall k fun t => { t with gated := false, waking := false, epoch := 1, pool := {}, badPool := [] }) y
      let y := y.modCores fun _ => []
      y.modMem fun m => { m with loft := [] }
    .next ((s.modBoot fun b => { b with stallsDone := true }).tryReady)

/-- MEM_TRAIN_DONE (step 11a, R338, R342, R343): failed is a mask of channels whose training fails, densities the codes the devices report. After a
RELOAD with unchanged settings the channels only leave self-refresh (R45); otherwise the contents are lost. -/
def execMemTrainDone (failed : Nat) (densities : List Nat) (s : State) : Res :=
  if !s.inStep11 || s.boot.memDone then .next s
  else
    let m := s.sys.mem
    let mapped := m.domChans.foldl Nat.lor 0
    let chs := maskList 16 mapped
    let den := fun (c : Nat) => if s.boot.keepMem then (tget {} m.chans c).density else densities.getD c 3
    let c0 := den (chs.headD 0)
    let chans : Tab Chan := (List.range 16).map fun c =>
      (c, ({ st := if bitAt failed c then 4 else if bitAt mapped c then 2 else 3, density := if den c ≤ 2 then den c else 0 } : Chan))
    let s := s.modSys fun y => y.modMem fun m => { m with chans := chans }
    if Nat.land (failed % 2 ^ 16) mapped ≠ 0 ∨ 2 < c0 ∨ chs.any (fun c => den c != c0) = true then .next (s.halt 0x30)
    else
      let s := s.modSys fun y =>
        let y := y.modMem fun m => { m with density := c0 }
        let y := if s.boot.keepMem then y else y.modMem fun m => { m with dram := [], bad := [], shelf := [], shelfBad := [] }
        if failed % 2 ^ 16 ≠ 0 then y.memEvent 0 else y
      .next ((s.modBoot fun b => { b with memDone := true }).tryReady)

/-! ### Resets (R45, R46, R70, R100, R311, R336, R406, R408, R431) -/

/-- The host link under WARM or RELOAD: reads end with their space returned, what waits to be sent goes, CTX_PT, vectors and TLBs are reset;
training, INIT credits and ledgers stay (R336). -/
def Sys.linkReset (y : Sys) : Sys :=
  let y := [0, 1].foldl (fun y m => (y.module m).reads.foldl (fun y r => y.endRead m r) y) y
  let keep := fun (p : OutPkt) => match p with | .cpl _ _ _ | .cple _ _ _ => true | _ => false
  let y := y.modLink fun l => { l with m0 := { l.m0 with txq := l.m0.txq.filter keep },
                                       m1 := if y.glob.config = 0 then { l.m1 with txq := l.m1.txq.filter keep } else {},
                                       ctxPt := [], vecs := [], stillHeld := [], l1 := false, invBusy := false }
  let y := y.modMem fun m => { m with tlb := [], stallTlb := [] }
  (y.flush 0).flush 1

/-- Girth's registers at reset, G kept, the die held at BOOT_OP (R382). -/
def Girth.cleared (g : Girth) : Girth :=
  { op := g.bootOp, priceOp := g.bootOp, target := g.bootOp, stepTo := g.bootOp, mv := opMv.getD g.bootOp 620, bootOp := g.bootOp, opMask := 2 ^ g.bootOp,
    gain := g.gain, squallLow := g.squallLow, thermtrip := g.thermtrip }

/-- The Beam unit under WARM and RELOAD: its registers are cleared; the ghost beam, in the AON domain, restarts at line 0, tick 0 with the period and
lines it had (R56, R70, log entry 61). -/
def Beam.cleared (b : Beam) : Beam := { ghostTick := b.ghostTick, ghostVtotal := b.ghostVtotal, ghostVactive := b.ghostVactive }

/-- What WARM and RELOAD both clear: the Pattern, contexts, queues, pools, stalls, local stores, Girth, the Beam unit and its board, the Harness
registers, model slots. -/
def Sys.clearRun (y : Sys) : Sys :=
  let y := y.linkReset
  let mv := y.girth.mv
  let busy := y.glob.amendState == 1
  let y : Sys :=
    { y with
      bridle := {}, work := {}, beam := y.beam.cleared, fg := {}, raster := {}, vision := {}, kv := {}, cores := []
      dma := { next := y.dma.next }
      stalls := tmap y.stalls fun _ k => ({ slotMap := k.slotMap, failedPhys := k.failedPhys, failed := k.failed } : Stall)
      cons := { pools := y.cons.pools.filter fun p => p.1 / 64 == 1 }
      girth := y.girth.cleared
      duo := {}
      flt := { y.flt with dieCalm := false, cause := 0 }
      sec := { y.sec with models := [], modelSel := 0, brands := [], hashes := [], eng0 := none, eng1 := none, attSt := 0, attBody := [] }
      glob := { y.glob with ready := false, memUp := false, heldDomains := 0, config := 0, patternDigest := List.replicate 32 0, amendCount := 0,
                            amendState := if busy then 3 else 0, amendReason := if busy then 7 else 0, hiHeld := [], hiLatch := [] } }
  if y.girth.mv = mv then y else y.emit (.avs y.girth.mv)

/-- The bring-up block under WARM and RELOAD: the staged image and the Pattern's sections go. -/
def Boot.cleared (b : Boot) : Boot :=
  { b with error := 0, image := [], amendIdle := true, amendDoms := 0, queueWords := [], permitWords := [], beamWords := [], duoWords := [], memDone := false,
           stallsDone := false, pllDone := false, keepMem := false }

/-- WARM (R45, R46): bit k of GLOBAL_RESET_CAUSE; from the reset bump a module 0 that is DOWN trains again (R328); before step 6 bring-up restarts at
step 2 with the straps as sampled. Without power there is nothing to reset. -/
def State.warm (k : Nat) (pin pll : Bool) (s : State) : State :=
  if s.boot.power = false then s else
  let s := s.modSys fun y =>
    let y := y.clearRun
    let run := maskList 17 y.glob.domainsRun
    { y with mem := { host := y.mem.host }, pipe0 := { hpd := y.pipe0.hpd }, pipe1 := { hpd := y.pipe1.hpd },
             glob := { y.glob with domainsRun := maskOf ([2, 14, 15, 16] ++ run.filter fun n => n == 3 || n == 4) } }
  let s := s.modBoot fun b =>
    { b.cleared with cause := setBit b.cause k, pinsOn := false, pinWords := [], clockWords := [], oldClocks := [] }
  if s.boot.linked then
    let s := if pin ∧ s.sys.link.m0.st = 0 then s.modSys fun y => y.modModule 0 fun m => { m with st := 1 } else s
    s.enter .waitFirmware
  else
    let s := s.modBoot fun b => { b with recordRead := false, recordOk := false }
    (s.modSys fun y => { y with link := { y.link with m0 := {} }, glob := { y.glob with domainsRun := 2 ^ 14 } }).step2 pll

/-- Jobs that live are cancelled with 0x01 and end FAILED (R45). -/
def Sys.cancelAll (y : Sys) : Sys := y.aliveJobs.foldl (fun y j => y.finishJob j 7 (statusJoin (y.job j).status 0x01)) y

/-- The loft cache is written back, then invalidated; the channels hold their contents in self-refresh (R45, R354). -/
def MemSys.shelve (m : MemSys) : MemSys :=
  let m := (List.range m.domChans.length).foldl (fun m d => m.cleanDom d true) m
  { m with loft := [], loftBusy := 0, loftInval := 0, chans := tmap m.chans fun _ c => if c.st = 2 then { c with st := 3 } else c }

/-- Phases in which a RELOAD is accepted: from step 8 on, not HALTED (R43, R46). -/
def Phase.reloads : Phase → Bool
  | .waitPattern | .pattern | .apply | .ready => true
  | _ => false

/-- RELOAD (R45): bit k of GLOBAL_RESET_CAUSE. -/
def State.reload (k : Nat) (s : State) : State :=
  if !s.boot.phase.reloads then s.rejected
  else
    let b := s.boot
    let old := if b.memDone then b.clockWords else if b.phase = .apply ∧ b.keepMem = false then [] else b.oldClocks
    let s := s.modSys fun y =>
      let y := (y.cancelAll).modMem MemSys.shelve
      let y := y.clearRun
      let y := [0, 1].foldl (fun y n => (((y.calmCause n 4).calmClear n 1).calmClear n 2).calmClear n 3) y
      y.modGlob fun g => { g with domainsRun := setBit ([0, 10, 11].foldl clrBit g.domainsRun) 15 }
    s.modBoot fun b => { b.cleared with cause := setBit b.cause k, phase := .waitPattern, oldClocks := old }

/-- Bring-up is HALTED with no record accepted: no host link has trained, so no register can be written (R42, R455). -/
def State.recordHalt (s : State) : Bool := s.boot.phase == .halted && !s.boot.recordOk

/-- POWER_ON (R45): everything is cleared, the host's memory and what has been sent apart; the outputs are safe (R443). -/
def State.powerOn (s : State) : State :=
  { pending := s.pending, sys := { mem := { host := s.sys.mem.host }, out := s.sys.out, flits := s.sys.flits, chance := s.sys.chance } }

/-- GLOBAL_RESET_WARM (R44): a bring-up that a record has halted is left by the reset bump or POWER_ON alone (R455). -/
def execGlobalResetWarm (s : State) : Res := .next (if s.recordHalt then s else s.warm 1 false true)

/-- GLOBAL_RESET_RELOAD (R44). -/
def execGlobalResetReload (s : State) : Res := .next (s.reload 3)

/-- RESET_PIN_LOW (R439): pll tells whether the PLLs of step 2 lock, when bring-up restarts there. -/
def execResetPinLow (pll : Bool) (s : State) : Res := .next (s.warm 2 true pll)

/-- PWRGOOD_FALL (R45, R443). -/
def execPwrgoodFall (s : State) : Res := .next s.powerOn

/-- SUPPLY_FAULT (R444): a rail out of limits or a stopped REFCLK; power-good is waited for again. -/
def execSupplyFault (s : State) : Res := .next s.powerOn

/-- AUTO_RELOAD_EXPIRE (R403): 1 ms after die Calm with AUTO_RELOAD=1. -/
def execAutoReloadExpire (s : State) : Res := .next (if s.sys.flt.dieCalm && s.sys.flt.autoReload then s.reload 4 else s)

/-! ### Run-time amendments (R47 to R49, R456) -/

/-- What an amendment is checked against. -/
def State.loaded (s : State) : Loaded :=
  { digest := s.sys.glob.patternDigest, doms := s.sys.bridle.doms, queues := s.boot.queueWords, permits := s.boot.permitWords, beam := s.boot.beamWords,
    display := s.sys.pipe0.words ++ s.sys.pipe1.words, team := s.sys.glob.config == 1 }

/-- A domain is idle: none of its jobs is RUNNING, SUSPENDING or CANCELLING (R47). -/
def Sys.domIdle (y : Sys) (d : Nat) : Bool := !(y.work.jobs.any fun j => [2, 3, 5].contains j.2.st && (y.ctx j.2.ctx).domain == d)

/-- GLOBAL_LOAD.AMEND: the amendment is BUSY and its affected domains are held, be it accepted or rejected in the end; the idle check is made now (R48).
Written while an amendment is BUSY it is rejected and counted, as outside its phase (DESIGN CHOICE, log entry 66). -/
def State.amend (image : List Byte) (s : State) : State :=
  if s.boot.phase ≠ .ready ∨ s.sys.glob.amendState = 1 then s.rejected
  else
    let s := s.stage image
    let l := s.loaded
    let ds := match patParts s.boot.image with
      | some (msg, _) => affected l (l.amended msg)
      | none => []
    let idle := ds.all s.sys.domIdle
    (s.modBoot fun b => { b with amendIdle := idle, amendDoms := maskOf ds }).modSys fun y =>
      y.modGlob fun g => { g with amendState := 1, amendReason := 0, heldDomains := maskOf ds }

/-- AMEND (R47): image is what host memory holds at GLOBAL_LOAD_ADDR. -/
def execAmend (image : List Byte) (s : State) : Res := .next (s.amend image)

/-- A queue head under new ranges: one that closes loses its pending doorbell (R49). -/
def Queue.underRanges (rs : List (Nat × Nat × Nat)) (q : Nat) (k : Queue) : Queue :=
  match rangeCtx rs q with
  | some c => { k with ctx := c, isOpen := true }
  | none => { k with isOpen := false, write := k.read }

/-- QUEUES of an amendment takes effect (R49). -/
def Sys.amendQueues (old new : List Nat) (y : Sys) : Sys :=
  let rs := queueRanges new
  let lost := (y.bridle.queues.filter fun q => q.2.isOpen && q.2.read != q.2.write && (rangeCtx rs q.1).isNone).length
  let y := ((List.range 64).filter fun c => old.getD c 0 != new.getD c 0).foldl (fun y c => y.modCtx c (Ctx.underWord (new.getD c 0))) y
  let y := y.modBridle fun b => { b with ranges := rs, queues := tmap b.queues (Queue.underRanges rs) }
  if lost = 0 then y else (y.modLink fun l => { l with dbDropped := satAdd l.dbDropped lost }).linkEvent 6

/-- PERMITS of an amendment takes effect: WITHHELD returns first, TOTAL and FREE change by new POOL − old POOL (R49, R362). -/
def Sys.amendPermits (pe : List Nat) (y : Sys) : Sys :=
  let n := fld (pe.getD 0 0) 0 18
  let y := y.modPool 0 0 fun p => { total := n, free := n - (p.held - y.girth.withheld), held := p.held - y.girth.withheld }
  (y.modGirth fun g => { g with withheld := 0, pool := n, compReserve := fld (pe.getD 1 0) 0 18, costs := costsOf pe }).newLimit

/-- BEAM of an amendment waits for the next frame start; old entries on contexts of affected domains are held back (R49). -/
def Sys.amendBeam (be : List Nat) (ctxs : Nat) (y : Sys) : Sys :=
  y.modBeam fun b => { b with newMaster := some (beamMaster be), newPeriod := beamPeriod be, newBand := beamBand be, newLead := beamLead be, newGhost := beamGhost be,
                              newTable := beamTable be, heldBack := ctxs }

/-- Contexts, before or after, of the domains of a mask. -/
def ctxsOf (doms : Nat) (old new : List Nat) : Nat :=
  maskOf ((List.range 64).filter fun c => (wordDom old c).any (bitAt doms) || (wordDom new c).any (bitAt doms))

/-- An accepted amendment takes effect completely (R38, R49). -/
def State.amended (msg : List Byte) (s : State) : State :=
  let old := s.loaded
  let new := old.amended msg
  let ctxs := ctxsOf s.boot.amendDoms old.queues new.queues
  let s := s.modSys fun y =>
    let y := if secLen msg 3 = 0 then y else y.amendQueues old.queues new.queues
    let y := if secLen msg 4 = 0 then y else y.amendPermits new.permits
    let y := if secLen msg 5 = 0 then y else y.amendBeam new.beam ctxs
    let y := y.modGlob fun g =>
      { g with patternDigest := Shake.shake256 32 (g.patternDigest ++ Shake.shake256 32 msg), amendCount := satInc g.amendCount }
    y.fgRecheck
  s.modBoot fun b => { b with queueWords := new.queues, permitWords := new.permits, beamWords := new.beam }

/-- The amendment ends with a REASON, 0 for DONE; the hold ends (R48). -/
def State.amendEnd (reason : Nat) (s : State) : State :=
  (s.modBoot fun b => { b with image := [], amendDoms := 0, amendIdle := true }).modSys fun y =>
    (y.modGlob fun g => { g with amendState := if reason = 0 then 2 else 3, amendReason := reason, heldDomains := 0 }).grantAll y.girth.reqs.length

/-- AMENDMENT_END (R381, R456): the verification ends; a change of PERMITS waits for a step of the operating point to end. -/
def execAmendmentEnd (s : State) : Res :=
  if s.sys.glob.amendState ≠ 1 then .next s
  else
    let l := s.loaded
    let e := amendError s.boot.rootKey l s.boot.image
    match patParts s.boot.image with
    | none => .next (s.amendEnd 4)
    | some (msg, _) =>
      let pool := fld ((l.amended msg).permits.getD 0 0) 0 18
      if e ≠ 0 then .next (s.amendEnd e)
      else if !s.boot.amendIdle then .next (s.amendEnd 3)
      else if secLen msg 4 ≠ 0 ∧ s.sys.girth.step ≠ .idle ∧ s.sys.girth.step ≠ .forced then .next s
      else if secLen msg 4 ≠ 0 ∧ pool < (s.sys.pool 0 0).held - s.sys.girth.withheld then .next (s.amendEnd 6)
      else .next ((s.amended msg).amendEnd 0)

end Sys2Proof.Machine
end

