-- ==== Sys2Proof/Machine/Pins.lean ====
section
/-! DEFINITION. The GPIO bumps (R446, R447) and the JTAG TAP (R450). -/

namespace Sys2Proof.Machine

/-- What a GPIO bump does: high impedance, a level, or a PWM of a frequency and a high time in 1/1,000. -/
inductive Drive where
  | z
  | level (high : Bool)
  | pwm (hz duty : Nat)
  deriving DecidableEq, Repr

/-- BL_EN of R447: pipe 0 is ACTIVE, STILL, CALM_PANEL or CALM_HOLD. -/
def Pipe.backlight (p : Pipe) : Bool :=
  if p.calm then (p.runs || p.st == .still) && !p.black && (p.calmSrc == 0 || (p.calmSrc == 1 && p.holdValid)) else p.st == .active || p.st == .still

/-- What GPIO i drives (R443, R446, R447). -/
def State.gpio (s : State) (i : Nat) : Drive :=
  let w := s.boot.pinWords.getD i 0
  let bl := s.sys.pipe0.backlight
  let pwm := fun (k : Nat) =>
    let g := s.boot.pinWords.getD (8 + k) 0
    if bl then Drive.pwm (fld g 0 20) (fld g 20 10) else .level (bitAt w 6)
  if s.boot.safe || !s.boot.pinsOn then .z
  else match fld w 0 4 with
    | 3 => .level (bl != bitAt w 6)
    | 4 => pwm 0
    | 5 => pwm 1
    | 6 => .level ((s.sys.pipe0.st != .off) != bitAt w 6)
    | _ => .z

/-- The TAP answers: power-good is high and it is out of Test-Logic-Reset. -/
def State.tapOn (s : State) : Bool := s.boot.power && !s.tap.reset

/-- TAP_RESET (R450): TRST_N low, or five TCK cycles with TMS high. -/
def execTapReset (s : State) : Res := .next { s with tap := {} }

/-- TAP_EXIT_TEST_LOGIC_RESET (R450): TCK with TMS low; with TRST_N low the TAP stays where it is. -/
def execTapExitTestLogicReset (trst : Bool) (s : State) : Res :=
  .next (if s.boot.power ∧ trst = true then { s with tap := { s.tap with reset := false } } else s)

/-- Bits leave on TDO. -/
def State.tdo (bits : List Bool) (s : State) : State := s.modSys (Sys.emit (.tdo bits))

/-- A register of the TAP shifts as many bits as arrive on TDI: what leaves, and what it then holds. -/
def shift (reg tdi : List Bool) : List Bool × List Bool := ((reg ++ tdi).take tdi.length, (reg ++ tdi).drop tdi.length)

/-- JTAG_BYPASS: the one-bit register captures 0. -/
def execJtagBypass (tdi : List Bool) (s : State) : Res :=
  .next (if s.tapOn then ({ s with tap := { s.tap with ir := 0, driving := false } } : State).tdo (shift [false] tdi).1 else s)

/-- Signals of the CTRL_IO group under boundary scan (R438, R450). -/
def ctrlIo : Nat := 29

/-- The boundary register captures the levels of the 29 signals and shifts. -/
def State.boundary (ir levels : Nat) (tdi : List Bool) (s : State) : State :=
  let r := shift ((List.range ctrlIo).map (bitAt levels)) tdi
  let cells := maskOf ((List.range ctrlIo).filter fun i => r.2.getD i false)
  ({ s with tap := { s.tap with ir := ir, cells := cells, driving := ir == 2 } } : State).tdo r.1

/-- JTAG_SAMPLE_PRELOAD: levels are those of the CTRL_IO signals as the surroundings and the die drive them. -/
def execJtagSamplePreload (levels : Nat) (tdi : List Bool) (s : State) : Res := .next (if s.tapOn then s.boundary 1 levels tdi else s)

/-- JTAG_EXTEST: the cells drive the CTRL_IO bumps. -/
def execJtagExtest (levels : Nat) (tdi : List Bool) (s : State) : Res := .next (if s.tapOn then s.boundary 2 levels tdi else s)

/-- The IDCODE word (R450; IEEE 1149.1 places the fields; the version is open). -/
def idcode (part : Nat) : Nat := 1 + put 0xAC 1 11 + put part 12 16 + put Config.idVersion 28 4

/-- JTAG_IDCODE. -/
def execJtagIdcode (s : State) : Res :=
  .next (if s.tapOn then
    ({ s with tap := { s.tap with ir := 3, driving := false } } : State).tdo ((List.range 32).map (bitAt (idcode s.sys.glob.part)))
  else s)

end Sys2Proof.Machine
end

