-- ==== Sys2Proof/Machine/RegRead.lean ====
section
/-! DEFINITION. Reading the registers (R4, R5, R9, R16, R432 to R437): each block's read table in the order of the register index, the 64-bit
registers, the latches. A table lists byte offsets within its block; what it does not list reads 0 (R433). -/

namespace Sys2Proof.Machine

/-- Consecutive words from an offset. -/
def wordsFrom (o : Nat) (vs : List Nat) : Tab Nat := vs.zipIdx.map fun p => (o + 4 * p.2, p.1)

/-- The k-th 32-bit word of a byte string kept in state. -/
def wordOf (bs : List Byte) (k : Nat) : Nat := wordAt (padTo 32 bs) k

/-! ### ID and global (R26, R44) -/

def State.globRead (s : State) : Tab Nat :=
  let g := s.sys.glob
  let n := popcount 64 g.stallEn
  [(0x00, put g.part 0 16 + put g.step 16 8 + put 0xAC 24 8),
   (0x04, put n 0 7 + put (64 * n) 7 13 + put g.config 20 2 + putb g.duoId 22),
   (0x10, put s.sys.domainsNow 0 17 + putb (!s.tap.reset) 17),
   (0x14, put g.rejects 0 32),
   (0x18, 0),
   (0x20, put s.boot.phase.code 0 4 + put s.boot.error 4 8),
   (0x2C, 0),
   (0x30, put g.amendState 0 2 + put g.amendReason 2 4),
   (0x34, 0),
   (0x38, put s.boot.cause 0 5)] ++
  wordsFrom 0x40 ((List.range 8).map (wordOf g.patternDigest)) ++
  [(0x60, put g.amendCount 0 32)]

/-! ### Bridle (R179, R293, R316) -/

/-- EFF: the highest effective priority among the context's slivers, those not yet dispatched included; its base priority while it has none (R293). -/
def Sys.ctxEff (y : Sys) (c : Nat) : Nat :=
  let ts := (y.bridle.tgs.filter fun t => t.2.ctx == c).map (·.1)
  (ts.flatMap fun t => (y.lentSlivers t).map (y.prioOf t)).foldl min (y.basePrio c)

/-- BRIDLE_CTX_PRIOc. -/
def Sys.ctxPrioWord (y : Sys) (c : Nat) : Nat :=
  let k := y.ctx c
  let lent := decide (y.ctxEff c < k.prio)
  put k.prio 0 3 + put (y.ctxEff c) 4 3 + putb lent 7 + put k.domain 8 3 + putb k.valid 11

/-- BRIDLE_CTX_MIXc. -/
def Sys.ctxMixWord (y : Sys) (c : Nat) : Nat := putb (y.ctx c).mixEn 0 + put (y.ctx c).prefillMax 1 3

/-- The selected semaphore's status. -/
def Sem.statusWord (k : Sem) : Nat := put k.free 0 8 + put k.held 8 8 + put k.waits.length 16 13

/-- JOB_CFG of a record. -/
def Job.cfgWord (j : Job) : Nat := put j.ctx 0 6 + putb j.exact 6 + putb j.brand 7 + putb j.irqDone 8 + put j.vector 9 8

/-- JOB_STATUS of a record; the status so far under R12 takes 0x02 in while the job is SUSPENDED (R11, R316, log entry 58). -/
def Job.statusWord (j : Job) : Nat := put j.st 0 4 + put (statusOf [j.status, if j.st = 4 then 0x02 else 0]) 4 8 + put j.opens 12 20

/-- KV pools of the selected domain. -/
def Sys.kvSel (y : Sys) : KvDom := tget {} y.kv.doms y.kv.sel

/-- Registers with a latch read their latch when one stands: CONS_FREE, CONS_HELD. -/
def Sys.consFree (y : Sys) : Nat := y.cons.latchFree.getD y.consPool.free
def Sys.consHeld (y : Sys) : Nat := y.cons.latchHeld.getD y.consPool.held

def Sys.bridleRead (y : Sys) : Tab Nat :=
  let b := y.bridle
  let c := y.cons
  let running := (y.cores.filter fun k => k.2.run.isSome).length
  let saved := (y.stalls.map fun k => k.2.saves.length).sum
  [(0x000, put running 0 13 + put saved 13 16), (0x004, put b.holdLimit 0 16), (0x008, 0), (0x00C, put b.events 0 3), (0x010, put b.irq 0 11)] ++
  wordsFrom 0x020 [b.preempts, b.preemptBlocked, b.lends, b.holdCancels, b.parks, b.affHits, b.affStale, b.drainCancels, put b.maxSwitch 0 16,
    put b.maxPreempt 0 16] ++
  [(0x800, put c.sel 0 9), (0x804, put y.consPool.total 0 32), (0x808, put y.consFree 0 32), (0x80C, put y.consHeld 0 32), (0x810, c.faults),
   (0x814, c.sweeps), (0x818, c.semAuto), (0x81C, put c.events 0 8), (0x820, put c.last 0 18), (0x824, 0),
   (0x900, put b.semSel 0 12), (0x904, put (y.sem b.semSel).total 0 8), (0x908, (y.sem b.semSel).statusWord),
   (0xA00, put b.jobSel 0 12), (0xA04, (y.job b.jobSel).cfgWord), (0xA10, 0), (0xA14, (y.job b.jobSel).statusWord),
   (0xB00, put b.qcfgSel 0 18), (0xB0C, put (y.queue b.qcfgSel).ringLog2 0 4), (0xB18, 0),
   (0xC00, put y.kv.sel 0 3), (0xC0C, 0), (0xC10, put y.kvSel.frames.total 0 24), (0xC14, put y.kvSel.frames.free.length 0 24),
   (0xC18, put y.kvSel.slots.total 0 24), (0xC1C, put y.kvSel.slots.free.length 0 24), (0xC20, put y.kv.wait 0 16), (0xC24, put y.kv.events 0 4),
   (0xC28, y.kvSel.spills), (0xC2C, y.kvSel.evicts), (0xC30, y.kvSel.pfLate), (0xC34, 0)]

/-- The Bridle block with its arrays. -/
def Sys.bridlePeek (o : Nat) (y : Sys) : Nat :=
  if 0x100 ≤ o ∧ o < 0x200 then y.ctxPrioWord ((o - 0x100) / 4)
  else if 0x400 ≤ o ∧ o < 0x500 then y.ctxMixWord ((o - 0x400) / 4)
  else tget 0 y.bridleRead o

/-! ### Girth (R382) -/

/-- GIRTH_STATUS.STEP. -/
def StepPh.code : StepPh → Nat
  | .idle | .forced => 0
  | .voltageUp | .voltageDown => 1
  | .frozenUp | .frozenDown => 3

/-- Stalls awake. -/
def Sys.awakeCount (y : Sys) : Nat := ((List.range 64).filter fun k => y.enabled k && !(y.stall k).gated).length

def Sys.girthRead (y : Sys) : Tab Nat :=
  let g := y.girth
  wordsFrom 0 [put g.op 0 3 + put g.target 3 3 + put g.step.code 6 2 + put g.state 8 2 + put y.awakeCount 10 7, put g.cap 0 17, put g.pool 0 18,
    put g.compReserve 0 18, put g.limit 0 18, put g.withheld 0 18, put y.compHeld 0 18, put g.gain 0 14, put g.rail 0 18, put g.other 0 17,
    putb g.fixed 0 + put g.fixedOp 1 3, put g.slew 0 8 + put g.settle 8 8, put g.squallHold 0 16,
    put g.thTarget 0 8 + put g.hottest 8 8 + put g.peak 16 8, put g.gateIdle 0 16, put g.memLevel 0 3 + put g.linkLevel 3 2, put y.reasonsNow 0 8,
    put g.events 0 7, put g.irq 0 15, 0] ++
  wordsFrom 0x50 ((List.range 8).map (tget 0 g.reasonUs) ++ [g.steps, g.droops, g.stretch])

/-- GIRTH_HINTc. -/
def Girth.hintWord (g : Girth) (c : Nat) : Nat := let h := tget (6, 0) g.hints c; put h.1 0 3 + put h.2 3 3

def Sys.girthPeek (o : Nat) (y : Sys) : Nat :=
  if 0x100 ≤ o ∧ o < 0x200 then y.girth.hintWord ((o - 0x100) / 4) else tget 0 y.girthRead o

/-! ### Beam and band board (R69, R241) -/

/-- BEAM_HOLD as it stands. -/
def Beam.holdWord (b : Beam) : Nat := put b.held 0 13 + put b.last 16 13

/-- BEAM_FG_CTRL. -/
def Fg.ctrlWord (g : Fg) : Nat := putb (g.en && !g.stopping) 0 + putb g.irqEn 1 + put g.vector 2 8 + put g.mask 10 5

/-- BEAM_FG_STATUS. -/
def Sys.fgStatus (y : Sys) : Nat :=
  put (if y.beam.on = false ∨ y.beam.band = 0 then 0 else y.bandCount) 0 9 + put (maskOf ((List.range 4).filter fun k => (tget {} y.fg.slots k).ready)) 9 4 +
  put (maskOf ((List.range 4).filter y.slotInUse)) 13 4 + put (y.readySlots.headD 0) 17 2

/-- The Beam block; what comes from BEAM reads 0 until it applies (R69, R70, log entries 36 and 61). The 12 bits of BEAM_CFG.NEXT show 0 once all 4,096 entries
of a full table have passed, for which the spec gives no value (DESIGN CHOICE, log entry 85). -/
def Sys.beamRead (y : Sys) : Tab Nat :=
  let b := y.beam
  let g := y.fg
  wordsFrom 0 [b.lineWord, b.latchFrame.getD b.frame % 2 ^ 32, b.latchHold.getD b.holdWord,
    if b.on then put b.master 0 2 + put b.period 2 4 + put b.table.length 6 13 + put b.next 19 12 else 0, if b.on then put b.ghostTick 0 24 else 0,
    if b.on then put b.ghostVtotal 0 13 + put b.ghostVactive 16 13 else 0, put b.gates 0 16, 0, b.misses, b.skips, b.holdTimeouts, put b.events 0 3, put b.mark 0 32,
    put b.markFrame 0 32, put b.irq 0 11] ++
  [(0x100, g.ctrlWord), (0x104, put g.genQ 0 18), (0x108, put g.warpQ 0 18)] ++
  wordsFrom 0x12C [put g.slotBytes 0 32, put g.interBytes 0 32, y.fgStatus, g.level1, g.level2, g.level3, g.genLate, g.warpLate, g.noSource,
    put g.minSlack 0 16, put g.last 0 27, put g.events 0 5, 0]

/-! ### Display pipes (R265) -/

/-- PIPEn_STATUS.STATE: the link's state, or what the pipe shows in Calm; in Still that is the panel's own picture (R262). -/
def Pipe.stateCode (p : Pipe) : Nat :=
  match p.st with
  | .off => 0
  | .training => 1
  | .linkDown => 6
  | k =>
    if p.calm then
      if p.black then 5 else if k = .still && p.suRun.isNone then 7 else match p.calmSrc with
      | 0 => 7
      | 1 => if p.holdValid then 4 else 5
      | _ => 5
    else if k = .still then 3 else 2

def Pipe.regs (p : Pipe) : Tab Nat :=
  [(0x00, put p.stateCode 0 3 + put p.cause 3 5 + put p.rate 8 4 + put p.lanes 12 2 + putb p.holdValid 14), (0x04, putb p.en 0 + putb p.hdrSend 5)] ++
  wordsFrom 0x08 ((List.range 6).map fun i => put (p.w i) 0 32) ++
  wordsFrom 0x28 [put p.fbPitch 0 24, put p.suFirst 0 13 + put p.suLast 13 13, p.underPx, p.underLines, p.calmFrames, put p.events 0 8, put p.irq 0 16,
    put p.auxCmd 0 26] ++
  wordsFrom 0x48 ((List.range 4).map fun i => put (p.auxData.getD i 0) 0 32) ++
  [(0x58, put p.auxSt 0 2 + put p.auxReply 2 2)] ++
  wordsFrom 0x60 ((List.range 7).map fun i => put (p.hdr.getD i 0) 0 32)

/-! ### Memory (R357) -/

/-- The domain that owns a channel. -/
def MemSys.owner (m : MemSys) (ch : Nat) : Option Nat := (List.range m.domChans.length).find? fun d => bitAt (m.domChans.getD d 0) ch

/-- MEM_CH_STATUS of the selected channel; without a Pattern it belongs to no domain. -/
def MemSys.chWord (loaded : Bool) (m : MemSys) : Nat :=
  let c := tget ({} : Chan) m.chans m.chSel
  let d := if loaded then m.owner m.chSel else none
  put c.st 0 3 + put (d.getD 0) 3 3 + putb d.isSome 6 + put c.mr4 7 5 + put c.debt 12 4

/-- A Pattern's DOMAINS are in force: none before a load and none after a WARM or RELOAD (R45, R357). -/
def Sys.hasDoms (y : Sys) : Bool := !y.bridle.doms.isEmpty

def MemSys.regs (loaded : Bool) (m : MemSys) : Tab Nat :=
  [(0x00, put m.rate 0 14 + putb m.lp5 14 + putb m.inlineEcc 15 + put m.density 16 2), (0x04, put m.chSel 0 4), (0x08, m.chWord loaded),
   (0x0C, put m.domSel 0 3), (0x20, put m.srIdle 0 16), (0x24, put m.scrub 0 8), (0x28, put m.events 0 5), (0x2C, put m.irq 0 13),
   (0x38, put m.errInfo 0 7)] ++
  wordsFrom 0x40 [m.linkCorr, m.inlineCorr, m.uncorr, m.loftCorr, tget 0 m.hits m.domSel, tget 0 m.misses m.domSel, 0, 0, put m.loftBusy 0 8]

/-! ### Raster (R201), vision (R222) -/

/-- RASTER_STATUS. -/
def Raster.statusWord (r : Raster) : Nat :=
  (match r.active with
   | none => 0
   | some p => (if p.stopping || p.ending then 3 else if p.growing then 2 else 1) + put p.ctx 3 6) +
  (match r.parked with
   | none => 0
   | some p => 4 + put p.ctx 9 6)

def Raster.regs (r : Raster) : Tab Nat :=
  let u := tget ({} : UnitPool) r.pools r.sel
  [(0x00, r.statusWord), (0x04, put r.sel 0 3)] ++
  wordsFrom 0x10 [0, put u.total 0 24, put u.free.length 0 24, put r.growWait 0 16, put r.irq 0 8, put r.events 0 2, r.grows, r.abandoned, r.quadStalls, 0]

/-- VISION_ENGn. Where a running or stopping engine stands between the commands that advance it is free (log entry 81); one that waits shows where its
command goes on. -/
def Vision.engWord (v : Vision) (chance n : Nat) : Nat :=
  match v.cmds.find? fun c => c.st != 0 && c.engine == n with
  | none => 0
  | some c =>
    if c.st = 3 then put 3 0 2 + put c.ctx 2 6 + put c.level 8 3 + putb c.dir 11 + put c.row 12 13
    else put c.st 0 2 + put c.ctx 2 6 + put (Config.freeNat chance % 6) 8 3 + put (Config.freeNat (chance + 1)) 11 1 + put (Config.freeNat (chance + 2)) 12 13

/-- VISION_STATUS: an engine is busy while its command runs or stops. -/
def Vision.statusWord (v : Vision) : Nat :=
  let busy := fun (n : Nat) => v.cmds.any fun c => (c.st == 1 || c.st == 2) && c.engine == n
  put (maskOf ((List.range 6).filter busy)) 0 6 + put v.cmds.length 6 7

def Vision.regs (v : Vision) (chance : Nat) : Tab Nat :=
  [(0x00, v.statusWord)] ++ wordsFrom 0x10 ((List.range 6).map (v.engWord chance)) ++
  wordsFrom 0x40 [v.notex, v.occl, v.refined, v.features, v.stops, put v.events 0 2, 0, put v.irq 0 10]

/-! ### Harness (R408), security (R431), faults (R407), host link (R337) -/

def Duo.regs (u : Duo) : Tab Nat :=
  wordsFrom 0 [put u.st 0 3 + put u.role 3 2 + putb u.peerLive 5 + putb u.hold 6 + putb u.split 7 + putb u.alone 8 + putb u.peerCalm 9, put u.epoch 0 32,
    put u.peerEpoch 0 32, 0, put u.digestWait 0 16, put u.events 0 8, put u.irq 0 16, u.mismatches, u.bandMismatches, u.hbMissed, u.roleChanges]

/-- SEC_MODEL_STATUS of the selected slot. -/
def Sys.modelStatus (y : Sys) : Nat :=
  let m := y.model y.sec.modelSel
  put m.st 0 2 + put (y.namers y.sec.modelSel).length 2 13 + put m.dom 15 3

def Sys.secRead (y : Sys) : Tab Nat :=
  let c := y.sec
  let m := y.model c.modelSel
  [(0x00, putb c.keyOk 0 + putb c.idOk 1 + putb c.eng0.isSome 2 + putb c.eng1.isSome 3), (0x04, put c.fwVersion 0 32)] ++
  wordsFrom 0x10 ((List.range 8).map (wordOf c.idPk)) ++
  [(0x40, put c.modelSel 0 4), (0x4C, put m.regLen 0 32), (0x50, 0), (0x54, y.modelStatus)] ++
  wordsFrom 0x60 ((List.range 8).map (wordOf m.digest)) ++
  [(0x80, put c.jobSel 0 12)] ++
  wordsFrom 0xA0 ((List.range 8).map fun i => put (c.nonce.getD i 0) 0 32) ++ wordsFrom 0xC0 ((List.range 8).map fun i => put (c.user.getD i 0) 0 32) ++
  wordsFrom 0xE8 [0, put c.attSt 0 2, put c.events 0 5, put c.irq 0 13, c.sealRejects, c.brandFails, 0]

/-- FAULT_LOG_DATA: the latch, or the selected entry while none stands. -/
def Fault0.data (f : Fault0) : List Nat := f.latch.getD f.selected

def Fault0.regs (f : Fault0) : Tab Nat :=
  [(0x00, putb f.dieCalm 0 + put f.cause 1 8), (0x04, put f.logSel 0 9), (0x08, f.logCount)] ++
  wordsFrom 0x10 ((List.range 8).map fun i => f.data.getD i 0) ++
  wordsFrom 0x30 [f.reexec, f.corrected, f.stallsLost, put f.events 0 5, put f.irq 0 13, putb f.autoReload 1 + put f.coreLimit 2 4]

/-- HOSTLINK_STATUS: module 1 reads 5 while it is the Harness. -/
def Sys.linkStatus (y : Sys) : Nat := put y.link.m0.st 0 3 + put (if y.glob.config = 0 then y.link.m1.st else 5) 3 3

def Sys.linkRead (y : Sys) : Tab Nat :=
  let l := y.link
  wordsFrom 0 [y.linkStatus, put l.m0.ph 0 10 + put l.m0.nph 10 10, put l.m0.pd 0 20, put l.m1.ph 0 10 + put l.m1.nph 10 10, put l.m1.pd 0 20,
    put l.cplTimeout 0 16, put l.events 0 10, put l.irq 0 18, put l.kvIrq 0 9, l.replays, l.retrains, l.dbDropped, l.dbRange, l.lateCpl, l.malformed, 0] ++
  [(0x48, put l.xlatInfo 0 10), (0x58, put l.invCtrl 0 8), (0x5C, putb l.invBusy 0 + putb l.invDone 1)]

/-- HOSTLINK_VECv. -/
def Vec.word (v : Vec) : Nat := putb v.mask 0 + putb v.pending 1

def Sys.linkPeek (o : Nat) (y : Sys) : Nat :=
  if 0x2000 ≤ o ∧ o < 0x2400 then (tget ({} : Vec) y.link.vecs ((o - 0x2000) / 4)).word else tget 0 y.linkRead o

/-! ### Stall windows (R103, R132, R294) -/

/-- A core runs a sliver, restores it, or saves another one for it: where the sliver's permit sum is held (R102). -/
def Sys.coreHas (y : Sys) (k : Core) (t n : Nat) : Bool :=
  (match k.run with | some r => r.tg == t && r.sliver == n | none => false) ||
  (match k.next with | some (t', n', _) => t' == t && n' == n | none => false) ||
  (match k.resume.bind y.findSave with | some v => v.run.tg == t && v.run.sliver == n | none => false)

/-- The stall whose slivers, core, dispatcher or DMA agent hold permits under a holding. -/
def Sys.holderStall (y : Sys) (w : Holder) : Option Nat :=
  match w with
  | .coreAwake k | .stallAwake k | .dma k => some k
  | .save c => some (stallOf c)
  | .sliver t n => (y.cores.find? fun c => y.coreHas c.2 t n).map fun c => stallOf c.1
  | _ => none

/-- STALL_PERMITS.HELD. -/
def Sys.stallHeld (y : Sys) (k : Nat) : Nat := ((y.girth.holds.filter fun h => y.holderStall h.who == some k).map Holding.now).sum

/-- STALL_STATUS.SPARES_FREE: physical slots neither bound nor failed. -/
def Stall.spares (k : Stall) : Nat := ((List.range 66).filter fun p => !k.slotMap.contains p && !k.failedPhys.contains p).length

/-- STALL_COREc.STATE; a core of a gated stall reads GATED. -/
def Sys.coreCode (y : Sys) (c : Nat) : Nat :=
  match (y.core c).st with
  | .failed => 6
  | k => if (y.stall (stallOf c)).gated then 5 else match k with
    | .idle => 0
    | .running => 1
    | .saving => 2
    | _ => 3

/-- STALL_COREc. -/
def Sys.coreWord (y : Sys) (c : Nat) : Nat := put (y.coreCode c) 0 3 + put (y.physOf c) 3 7 + put (y.core c).epoch 16 16

/-- STALL_SLOTMAPn. -/
def Stall.mapWord (k : Stall) (n : Nat) : Nat := (((List.range 64).map fun c => put (k.slotMap.getD c 0) (7 * c) 7).sum) / 2 ^ (32 * n) % 2 ^ 32

/-- STALL_MBOX (R294). -/
def Stall.mboxWord (k : Stall) : Nat :=
  let n := fun (f : Mbox → Bool) => (k.mbox.filter fun m => f m.2).length
  put (n fun m => m.pending || m.full) 0 9 + put (n Mbox.parked) 9 9 + put (n Mbox.orphan) 18 9

/-- STALL_QDATA without its latching. -/
def Sys.qdataWord (n : Nat) (y : Sys) : Nat :=
  let k := y.stall n
  let now := y.headWords (y.qselQueue n)
  if k.qselWord = 0 then now.getD 0 0 else (k.qlatch.getD now).getD k.qselWord 0

def Sys.stallRead (n : Nat) (y : Sys) : Tab Nat :=
  let k := y.stall n
  [(0x000, putb (y.enabled n) 0 + putb k.gated 1 + putb k.failed 2 + put k.spares 3 2 + put k.epoch 16 16)] ++
  wordsFrom 0x040 ((List.range 14).map k.mapWord) ++
  wordsFrom 0x200 [put k.qselHead 0 12 + put k.qselWord 12 3, y.qdataWord n, k.tileOverruns, k.gsRange, k.subst, put k.saveFree 0 11,
    put (y.stallHeld n) 0 18, 0, k.expSat, k.convSat, k.escapes, k.regauges, 0] ++
  [(0x240, k.mboxWord)]

/-- A stall window; that of a disabled stall reads 0 (R16). -/
def Sys.stallPeek (n o : Nat) (y : Sys) : Nat :=
  if y.enabled n = false then 0
  else if 0x100 ≤ o ∧ o < 0x200 then y.coreWord (64 * n + (o - 0x100) / 4)
  else tget 0 (y.stallRead n) o

/-! ### 64-bit registers (R5, R434) -/

/-- The value of the 64-bit register whose low word lies at an offset of the window; none where there is no such register. -/
def Sys.wideReg (o : Nat) (y : Sys) : Option Nat :=
  if 0x100200 ≤ o ∧ o < 0x100400 ∧ o % 8 = 0 then some (y.ctx ((o - 0x100200) / 8)).saveAddr
  else if 0xB01000 ≤ o ∧ o < 0xB01200 ∧ o % 8 = 0 then some (tget 0 y.link.ctxPt ((o - 0xB01000) / 8))
  else tfind
    [(0x8, y.glob.stallEn), (0x24, y.glob.loadAddr), (0x100A08, (y.job y.bridle.jobSel).complAddr), (0x100B04, (y.queue y.bridle.qcfgSel).ringBase),
     (0x100B10, maskOf ((y.bridle.ctxs.filter fun c => c.2.calm).map (·.1))), (0x100C04, y.kv.grantAddr), (0x30010C, y.fg.ticket), (0x300114, y.fg.outAddr),
     (0x30011C, y.fg.inter), (0x300124, y.fg.pose), (0x400020, y.pipe0.fbAddr), (0x410020, y.pipe1.fbAddr), (0x500010, if y.hasDoms then y.mem.domBase y.mem.domSel else 0),
     (0x500018, if y.hasDoms then y.mem.domSize y.mem.domSel else 0), (0x500030, y.mem.errAddr), (0x600008, y.raster.grantAddr), (0x900044, (y.model y.sec.modelSel).regAddr),
     (0x900084, (y.job y.sec.jobSel).manifest), (0x9000E0, y.sec.attAddr), (0xB00040, y.link.xlatAddr), (0xB00050, y.link.invAddr)] o

/-! ### The window (R432, R433) -/

/-- The word an aligned offset reads as, no latch of R5 taken into account. -/
def State.peek (o : Nat) (s : State) : Nat :=
  let y := s.sys
  match y.wideReg o with
  | some v => v % 2 ^ 32
  | none =>
  match if 4 ≤ o then y.wideReg (o - 4) else none with
  | some v => v / 2 ^ 32 % 2 ^ 32
  | none =>
    if o < 0x100000 then tget 0 s.globRead o
    else if o < 0x200000 then y.bridlePeek (o - 0x100000)
    else if o < 0x300000 then y.girthPeek (o - 0x200000)
    else if o < 0x400000 then tget 0 y.beamRead (o - 0x300000)
    else if o < 0x410000 then tget 0 y.pipe0.regs (o - 0x400000)
    else if o < 0x420000 then tget 0 y.pipe1.regs (o - 0x410000)
    else if o < 0x500000 then 0
    else if o < 0x600000 then tget 0 (y.mem.regs y.hasDoms) (o - 0x500000)
    else if o < 0x700000 then tget 0 y.raster.regs (o - 0x600000)
    else if o < 0x800000 then tget 0 (y.vision.regs y.chance) (o - 0x700000)
    else if o < 0x900000 then tget 0 y.duo.regs (o - 0x800000)
    else if o < 0xA00000 then tget 0 y.secRead (o - 0x900000)
    else if o < 0xB00000 then tget 0 y.flt.regs (o - 0xA00000)
    else if o < 0xC00000 then y.linkPeek (o - 0xB00000)
    else if o < 0x1000000 then 0
    else if o < 0x1400000 then y.stallPeek ((o - 0x1000000) / 0x10000) (o % 0x10000)
    else if 0x2000000 ≤ o ∧ o < 0x2200000 ∧ o % 8 = 0 then put (y.queue ((o - 0x2000000) / 8)).write 0 16
    else 0

/-- A read with its latches (R5, R69, R103, R316, R407, R436): the value, and the block after it. -/
def State.readWord (o : Nat) (s : State) : Nat × State :=
  let v := s.peek o
  let y := s.sys
  let mk := fun (z : Sys) => ({ s with sys := z } : State)
  match y.wideReg o with
  | some w => (v, mk (y.modGlob fun g => { g with hiLatch := tset g.hiLatch o (w / 2 ^ 32 % 2 ^ 32) }))
  | none =>
  match if 4 ≤ o then y.wideReg (o - 4) else none with
  | some _ =>
    match tfind y.glob.hiLatch (o - 4) with
    | some h => (h, mk (y.modGlob fun g => { g with hiLatch := tdel g.hiLatch (o - 4) }))
    | none => (v, s)
  | none =>
    if o = 0x300000 then (v, mk (y.modBeam fun b => { b with latchFrame := some b.frame, latchHold := some b.holdWord }))
    else if o = 0x300004 then (v, mk (y.modBeam fun b => { b with latchFrame := none }))
    else if o = 0x300008 then (v, mk (y.modBeam fun b => { b with latchHold := none }))
    else if o = 0x100804 then (v, mk y.consTotal)
    else if o = 0x100808 then (v, mk (y.modCons fun c => { c with latchFree := none }))
    else if o = 0x10080C then (v, mk (y.modCons fun c => { c with latchHeld := none }))
    else if o = 0xA00010 then (y.flt.selected.getD 0 0, mk (y.modFlt fun f => { f with latch := some f.selected }))
    else if 0x1000000 ≤ o ∧ o < 0x1400000 ∧ o % 0x10000 = 0x204 ∧ y.enabled ((o - 0x1000000) / 0x10000) = true then
      (v, mk (y.stallQdata ((o - 0x1000000) / 0x10000)))
    else (v, s)

/-- A read of size bytes at an offset: any other width or alignment returns 0 and changes nothing (R4). -/
def State.hostRead (o size : Nat) (s : State) : Nat × State :=
  if o % 4 ≠ 0 ∨ size ≠ 4 then (0, s) else s.readWord o

end Sys2Proof.Machine
end

