-- ==== Sys2Proof/Machine/RegWrite.lean ====
section
/-! DEFINITION. Writing the registers (R4 to R9, R16, R28, R432 to R437) and the rows that carry a host's register accesses: REGISTER_WRITE, the
64-bit rows, CLR_REJECTS, MIRROR, and the requests that waited for the exit from STILL (R379). -/

namespace Sys2Proof.Machine

/-- What a write does, by byte offset within a block; an offset not listed rejects the write (R433). -/
abbrev Writes := Tab (Sys → Sys)

/-! In the tables below `w` is the word written and `h` what hardware does in the same cycle: the RW1C bits it sets there (R8), or, for a write that
clears counters, the counters it counts in, as `cleared` numbers them. -/

/-- Consecutive words with one effect. -/
def sameFrom (o n : Nat) (f : Nat → Sys → Sys) : Writes := (List.range n).map fun i => (o + 4 * i, f i)

/-- RO: ignored (R6). -/
def roW : Sys → Sys := id

/-- RWP: ignored and counted (R6). -/
def rwpW : Sys → Sys := Sys.reject

/-- The effect a table gives, or a rejected write. -/
def Writes.run (t : Writes) (o : Nat) (y : Sys) : Sys :=
  match tfind t o with
  | some f => f y
  | none => y.reject

/-- The act of a CLR_COUNTS bit. -/
def clrIf (w k : Nat) (f : Sys → Sys) : Sys → Sys := if bitAt w k then f else id

/-- A new selection clears the read latch of its 64-bit register (R437). -/
def Sys.unlatch (changed : Bool) (o : Nat) (y : Sys) : Sys := if changed then y.modGlob fun g => { g with hiLatch := tdel g.hiLatch o } else y

/-! ### Bridle (R179, R293, R316) -/

/-- BRIDLE_CTX_PRIOc: PRIO is bounded by the domain's TOP_PRIO (R28, R266). -/
def Sys.ctxPrioWrite (c w : Nat) (y : Sys) : Sys :=
  let top := (y.dom (y.ctx c).domain).topPrio
  (y.modCtx c fun k => { k with prio := max top (w % 8) }).rejectIf (decide (w % 8 < top))

/-- JOB_CFG: taken only while the selected record is FREE. -/
def Sys.jobCfgWrite (w : Nat) (y : Sys) : Sys :=
  if (y.job y.bridle.jobSel).st = 0 then
    y.modJob y.bridle.jobSel fun j => { j with ctx := fld w 0 6, exact := bitAt w 6, brand := bitAt w 7, irqDone := bitAt w 8, vector := fld w 9 8 }
  else y.reject

def bridleWrites (h w : Nat) : Writes :=
  [(0x000, roW), (0x004, fun y => y.modBridle fun b => { b with holdLimit := w % 2 ^ 16 }), (0x008, clrIf w 0 (Sys.bridleClear h)),
   (0x00C, fun y => y.modBridle fun b => { b with events := rw1c b.events (w % 8) (h % 8) }), (0x010, fun y => y.modBridle fun b => { b with irq := w % 2 ^ 11 })] ++
  sameFrom 0x020 10 (fun _ => roW) ++
  [(0x800, fun y => y.modCons fun c => if w % 2 ^ 9 = c.sel then c else { c with sel := w % 2 ^ 9, latchFree := none, latchHeld := none }),
   (0x804, roW), (0x808, roW), (0x80C, roW), (0x810, roW), (0x814, roW), (0x818, roW),
   (0x81C, fun y => y.modCons fun c => { c with events := rw1c c.events (w % 2 ^ 8) (h % 2 ^ 8) }), (0x820, roW), (0x824, clrIf w 0 (Sys.consClear h)),
   (0x900, fun y => y.modBridle fun b => { b with semSel := w % 2 ^ 12 }), (0x904, Sys.semCfg (w % 2 ^ 8)), (0x908, roW),
   (0xA00, fun y => (y.unlatch (y.bridle.jobSel != w % 2 ^ 12) 0x100A08).modBridle fun b => { b with jobSel := w % 2 ^ 12 }),
   (0xA04, Sys.jobCfgWrite w), (0xA10, Sys.jobOp (w % 8)), (0xA14, roW),
   (0xB00, fun y => (y.unlatch (y.bridle.qcfgSel != w % 2 ^ 18) 0x100B04).modBridle fun b => { b with qcfgSel := w % 2 ^ 18 }),
   (0xB0C, Sys.qcfgRing w), (0xB18, Sys.ctxCalmExit w),
   (0xC00, fun y => (y.unlatch (y.kv.sel != w % 8) 0x100C04).modKv fun k => { k with sel := w % 8 }),
   (0xC0C, Sys.kvGrant (bitAt w 24) (w % 2 ^ 24)), (0xC10, roW), (0xC14, roW), (0xC18, roW), (0xC1C, roW),
   (0xC20, fun y => y.modKv fun k => { k with wait := w % 2 ^ 16 }), (0xC24, fun y => y.modKv fun k => { k with events := rw1c k.events (w % 16) (h % 16) }),
   (0xC28, roW), (0xC2C, roW), (0xC30, roW), (0xC34, clrIf w 0 (Sys.kvClear h))]

def Sys.bridleWriteAt (h o w : Nat) (y : Sys) : Sys :=
  if 0x100 ≤ o ∧ o < 0x200 then y.ctxPrioWrite ((o - 0x100) / 4) w
  else if 0x400 ≤ o ∧ o < 0x500 then y.modCtx ((o - 0x400) / 4) fun k => { k with mixEn := bitAt w 0, prefillMax := fld w 1 3 }
  else (bridleWrites h w).run o y

/-! ### Girth (R382) -/

/-- GIRTH_VR: SLEW is 1 to 255. -/
def Sys.girthVr (w : Nat) (y : Sys) : Sys :=
  (y.modGirth fun g => { g with slew := max 1 (w % 2 ^ 8), settle := fld w 8 8 }).rejectIf (w % 2 ^ 8 == 0)

/-- GIRTH_THERMAL: TARGET is 80 to 105. -/
def Sys.girthThermal (w : Nat) (y : Sys) : Sys :=
  let v := w % 2 ^ 8
  (y.modGirth fun g => { g with thTarget := clamp 80 105 v }).rejectIf (decide (v < 80 ∨ 105 < v))

def girthWrites (h w : Nat) : Writes :=
  [(0x00, roW), (0x04, Sys.girthCap w), (0x08, rwpW), (0x0C, rwpW), (0x10, roW), (0x14, roW), (0x18, roW), (0x1C, roW), (0x20, roW), (0x24, roW),
   (0x28, Sys.girthMode w), (0x2C, Sys.girthVr w), (0x30, fun y => y.modGirth fun g => { g with squallHold := w % 2 ^ 16 }), (0x34, Sys.girthThermal w),
   (0x38, fun y => y.modGirth fun g => { g with gateIdle := w % 2 ^ 16 }), (0x3C, roW), (0x40, roW),
   (0x44, fun y => y.modGirth fun g => { g with events := rw1c g.events (w % 2 ^ 7) (h % 2 ^ 7) }), (0x48, fun y => y.modGirth fun g => { g with irq := w % 2 ^ 15 }),
   (0x4C, clrIf w 0 (Sys.girthClear h))] ++ sameFrom 0x50 11 (fun _ => roW)

def Sys.girthWriteAt (h o w : Nat) (y : Sys) : Sys :=
  if 0x100 ≤ o ∧ o < 0x200 then y.girthHint ((o - 0x100) / 4) w else (girthWrites h w).run o y

/-! ### Beam and band board (R69, R241) -/

/-- BEAM_CMD: gates, phase slip, counters. -/
def Sys.beamCmd (h w : Nat) (y : Sys) : Sys :=
  let y := y.modBeam fun b => { b with gates := b.gates ||| w % 2 ^ 16, slip := b.slip || bitAt w 16 }
  clrIf w 17 (Sys.beamClear h) y

/-- BEAM_FG_CTRL: EN=1 or EN=0; a board that runs and is written EN=1 is not idle, so EN stays and the write is counted. -/
def Sys.fgCtrl (w : Nat) (y : Sys) : Sys := if bitAt w 0 then y.fgEnable w else y.fgDisableWrite w

/-- A field of the band board of type RWI: taken only while the board is idle (R241). -/
def Sys.fgRwi (f : Fg → Fg) (y : Sys) : Sys := if y.fgIdle then y.modFg f else y.reject

def beamWrites (h w : Nat) : Writes :=
  [(0x00, roW), (0x04, roW), (0x08, roW), (0x0C, rwpW), (0x10, rwpW), (0x14, rwpW), (0x18, roW), (0x1C, Sys.beamCmd h w), (0x20, roW), (0x24, roW),
   (0x28, roW), (0x2C, fun y => y.modBeam fun b => { b with events := rw1c b.events (w % 8) (h % 8) }), (0x30, roW), (0x34, roW),
   (0x38, fun y => y.modBeam fun b => { b with irq := w % 2 ^ 11 }),
   (0x100, Sys.fgCtrl w), (0x104, Sys.fgRwi fun g => { g with genQ := w % 2 ^ 18 }), (0x108, Sys.fgRwi fun g => { g with warpQ := w % 2 ^ 18 }),
   (0x12C, Sys.fgRwi fun g => { g with slotBytes := w % 2 ^ 32 }), (0x130, Sys.fgRwi fun g => { g with interBytes := w % 2 ^ 32 })] ++
  sameFrom 0x134 9 (fun _ => roW) ++
  [(0x158, fun y => y.modFg fun g => { g with events := rw1c g.events (w % 2 ^ 5) (h % 2 ^ 5) }), (0x15C, clrIf w 0 (Sys.fgClear h))]

/-! ### Display pipes (R254 to R265) -/

/-- PIPEn_CTRL: EN and HDR_SEND as written; each command bit that is 1 acts. CALM_EXIT goes before CALM_ENTER: a new cause in its cycle stays (R262). -/
def Sys.pipeCtrl (n h w : Nat) (y : Sys) : Sys :=
  let y := y.modPipe n fun p => { p with hdrSend := bitAt w 5 }
  let y := if bitAt w 0 then y.pipeEnable n else y.pipeDisable n
  let y := clrIf w 2 (fun y => y.calmClear n 0) y
  let y := clrIf w 1 (fun y => y.calmCause n 0) y
  let y := clrIf w 3 (Sys.stillEnter n) y
  let y := clrIf w 4 (Sys.stillExit n) y
  clrIf w 6 (Sys.pipeClear n h) y

/-- PIPEn_SU: FIRST and LAST, and the update with ARM. -/
def Sys.suWrite (n w : Nat) (y : Sys) : Sys :=
  if bitAt w 26 then y.suArm n (fld w 0 13) (fld w 13 13) else y.modPipe n fun p => { p with suFirst := fld w 0 13, suLast := fld w 13 13 }

/-- PIPEn_AUX_CMD: with GO=0 only its fields; rejected while BUSY (R264). -/
def Sys.auxWrite (n w : Nat) (y : Sys) : Sys :=
  if (y.pipe n).auxSt = 1 then y.reject else if bitAt w 31 then y.auxGo n w else y.modPipe n fun p => { p with auxCmd := w % 2 ^ 26 }

def pipeWrites (n h w : Nat) : Writes :=
  [(0x00, roW), (0x04, Sys.pipeCtrl n h w)] ++ sameFrom 0x08 6 (fun _ => rwpW) ++
  [(0x28, Sys.modPipe n fun p => { p with fbPitch := w % 2 ^ 24 }), (0x2C, Sys.suWrite n w), (0x30, roW), (0x34, roW), (0x38, roW),
   (0x3C, Sys.modPipe n fun p => { p with events := rw1c p.events (w % 2 ^ 8) (h % 2 ^ 8) }), (0x40, Sys.modPipe n fun p => { p with irq := w % 2 ^ 16 }),
   (0x44, Sys.auxWrite n w)] ++
  sameFrom 0x48 4 (fun i => Sys.modPipe n fun p => { p with auxData := p.auxData.set i (w % 2 ^ 32) }) ++ [(0x58, roW)] ++
  sameFrom 0x60 7 (fun i => Sys.modPipe n fun p => { p with hdr := p.hdr.set i (w % 2 ^ 32) })

/-! ### Memory (R357) -/

/-- MEM_ERR_INFO: VALID is the one RW1C bit. -/
def Sys.errInfoWrite (h w : Nat) (y : Sys) : Sys := if bitAt w 6 && !bitAt h 6 then y.modMem fun m => { m with errInfo := clrBit m.errInfo 6 } else y

def memWrites (h w : Nat) : Writes :=
  [(0x00, rwpW), (0x04, fun y => y.modMem fun m => { m with chSel := w % 16 }), (0x08, roW),
   (0x0C, fun y => ((y.unlatch (y.mem.domSel != w % 8) 0x500010).unlatch (y.mem.domSel != w % 8) 0x500018).modMem fun m => { m with domSel := w % 8 }),
   (0x20, fun y => y.modMem fun m => { m with srIdle := w % 2 ^ 16 }), (0x24, fun y => y.modMem fun m => { m with scrub := w % 2 ^ 8 }),
   (0x28, fun y => y.modMem fun m => { m with events := rw1c m.events (w % 2 ^ 5) (h % 2 ^ 5) }), (0x2C, fun y => y.modMem fun m => { m with irq := w % 2 ^ 13 }),
   (0x38, Sys.errInfoWrite h w)] ++ sameFrom 0x40 6 (fun _ => roW) ++ [(0x58, clrIf w 0 (Sys.memClear h)), (0x5C, Sys.loftCmd w), (0x60, roW)]

/-! ### Raster (R201), vision (R222), Harness (R408) -/

def rasterWrites (h w : Nat) : Writes :=
  [(0x00, roW), (0x04, fun y => (y.unlatch (y.raster.sel != w % 8) 0x600008).modRaster fun r => { r with sel := w % 8 }), (0x10, Sys.rasterGrant w),
   (0x14, roW), (0x18, roW), (0x1C, fun y => y.modRaster fun r => { r with growWait := w % 2 ^ 16 }), (0x20, fun y => y.modRaster fun r => { r with irq := w % 2 ^ 8 }),
   (0x24, fun y => y.modRaster fun r => { r with events := rw1c r.events (w % 4) (h % 4) }), (0x28, roW), (0x2C, roW), (0x30, roW), (0x34, clrIf w 0 (Sys.rasterClear h))]

def visionWrites (h w : Nat) : Writes :=
  [(0x00, roW)] ++ sameFrom 0x10 6 (fun _ => roW) ++ sameFrom 0x40 5 (fun _ => roW) ++
  [(0x54, fun y => y.modVision fun v => { v with events := rw1c v.events (w % 4) (h % 4) }), (0x58, clrIf w 0 (Sys.visionClear h)),
   (0x5C, fun y => y.modVision fun v => { v with irq := w % 2 ^ 10 })]

def duoWrites (h w : Nat) : Writes :=
  [(0x00, roW), (0x04, roW), (0x08, roW), (0x0C, Sys.harnessCmd h w), (0x10, fun y => y.modDuo fun u => { u with digestWait := w % 2 ^ 16 }),
   (0x14, fun y => y.modDuo fun u => { u with events := rw1c u.events (w % 2 ^ 8) (h % 2 ^ 8) }), (0x18, fun y => y.modDuo fun u => { u with irq := w % 2 ^ 16 })] ++
  sameFrom 0x1C 4 (fun _ => roW)

/-! ### Security (R431), faults (R407), host link (R337) -/

def secWrites (cause h w : Nat) : Writes :=
  [(0x00, roW), (0x04, roW)] ++ sameFrom 0x10 8 (fun _ => roW) ++
  [(0x40, fun y => (y.unlatch (y.sec.modelSel != w % 16) 0x900044).modSec fun c => { c with modelSel := w % 16 }),
   (0x4C, fun y => y.modModel y.sec.modelSel (fun m => { m with regLen := w % 2 ^ 32 })), (0x50, Sys.modelCmd w), (0x54, roW)] ++
  sameFrom 0x60 8 (fun _ => roW) ++
  [(0x80, fun y => (y.unlatch (y.sec.jobSel != w % 2 ^ 12) 0x900084).modSec fun c => { c with jobSel := w % 2 ^ 12 })] ++
  sameFrom 0xA0 8 (fun i y => y.modSec fun c => { c with nonce := c.nonce.set i (w % 2 ^ 32) }) ++
  sameFrom 0xC0 8 (fun i y => y.modSec fun c => { c with user := c.user.set i (w % 2 ^ 32) }) ++
  [(0xE8, clrIf w 0 (Sys.attGo cause)), (0xEC, roW), (0xF0, fun y => y.modSec fun c => { c with events := rw1c c.events (w % 2 ^ 5) (h % 2 ^ 5) }),
   (0xF4, fun y => y.modSec fun c => { c with irq := w % 2 ^ 13 }), (0xF8, roW), (0xFC, roW), (0x100, clrIf w 0 (Sys.secClear h))]

def faultWrites (h w : Nat) : Writes :=
  [(0x00, roW), (0x04, fun y => y.modFlt fun f => if w % 2 ^ 9 = f.logSel then f else { f with logSel := w % 2 ^ 9, latch := none }), (0x08, roW)] ++
  sameFrom 0x10 8 (fun _ => roW) ++ sameFrom 0x30 3 (fun _ => roW) ++
  [(0x3C, fun y => y.modFlt fun f => { f with events := rw1c f.events (w % 2 ^ 5) (h % 2 ^ 5) }), (0x40, fun y => y.modFlt fun f => { f with irq := w % 2 ^ 13 }),
   (0x44, fun y => (clrIf w 0 (Sys.faultClear h) y).modFlt fun f => { f with autoReload := bitAt w 1, coreLimit := fld w 2 4 })]

def linkWrites (h w : Nat) : Writes :=
  sameFrom 0 5 (fun _ => roW) ++
  [(0x14, fun y => y.modLink fun l => { l with cplTimeout := w % 2 ^ 16 }), (0x18, fun y => y.modLink fun l => { l with events := rw1c l.events (w % 2 ^ 10) (h % 2 ^ 10) }),
   (0x1C, fun y => y.modLink fun l => { l with irq := w % 2 ^ 18 }), (0x20, fun y => y.modLink fun l => { l with kvIrq := w % 2 ^ 9 })] ++
  sameFrom 0x24 6 (fun _ => roW) ++
  [(0x3C, clrIf w 0 (Sys.linkClear h)), (0x48, fun y => if bitAt w 9 && !bitAt h 9 then y.modLink fun l => { l with xlatInfo := clrBit l.xlatInfo 9 } else y),
   (0x58, Sys.invWrite w), (0x5C, fun y => if bitAt w 1 && !bitAt h 1 then y.modLink fun l => { l with invDone := false } else y)]

def Sys.linkWriteAt (h o w : Nat) (y : Sys) : Sys :=
  if 0x2000 ≤ o ∧ o < 0x2400 then y.vecWrite ((o - 0x2000) / 4) (w % 8) else (linkWrites h w).run o y

/-! ### Stall windows (R16, R103, R132, R294) -/

def stallWrites (n h w : Nat) : Writes :=
  [(0x000, roW)] ++ sameFrom 0x040 14 (fun _ => roW) ++ sameFrom 0x100 64 (fun _ => roW) ++
  [(0x200, Sys.stallQsel n w)] ++ sameFrom 0x204 6 (fun _ => roW) ++ [(0x21C, clrIf w 0 (Sys.stallClear n h))] ++
  sameFrom 0x220 4 (fun _ => roW) ++ [(0x230, clrIf w 0 (Sys.stallQclear n h)), (0x240, roW)]

def Sys.stallWriteAt (h n o w : Nat) (y : Sys) : Sys := if y.enabled n then (stallWrites n h w).run o y else y.reject

/-! ### 64-bit registers (R5, R434) -/

/-- HOSTLINK_CTX_PTc may be written: no job of c is QUEUED, RUNNING, SUSPENDING or CANCELLING (R336). -/
def Sys.ptIdle (c : Nat) (y : Sys) : Bool := !(y.work.jobs.any fun j => [1, 2, 3, 5].contains j.2.st && j.2.ctx == c)

/-- BRIDLE_CTX_SAVE_ADDRc may be written: no job of c is SUSPENDING or SUSPENDED (R293). -/
def Sys.saveIdle (c : Nat) (y : Sys) : Bool := !(y.work.jobs.any fun j => [3, 4].contains j.2.st && j.2.ctx == c)

/-- Both halves of the 64-bit register at an offset are committed. -/
def Sys.wideWrite (o v : Nat) (y : Sys) : Sys :=
  if 0x100200 ≤ o ∧ o < 0x100400 then
    let c := (o - 0x100200) / 8
    if y.saveIdle c then y.modCtx c fun k => { k with saveAddr := v } else y.reject
  else if 0xB01000 ≤ o ∧ o < 0xB01200 then
    let c := (o - 0xB01000) / 8
    if y.ptIdle c then y.modLink fun l => { l with ctxPt := tset l.ctxPt c (put v 0 1 + put (fld v 12 40) 12 40) } else y.reject
  else Writes.run
    [(0x8, roW), (0x24, fun y => y.modGlob fun g => { g with loadAddr := v }),
     (0x100A08, fun y => if (y.job y.bridle.jobSel).st = 0 then y.modJob y.bridle.jobSel fun j => { j with complAddr := v } else y.reject),
     (0x100B04, Sys.qcfgBase v), (0x100B10, roW), (0x100C04, fun y => y.modKv fun k => { k with grantAddr := v }),
     (0x30010C, Sys.fgRwi fun g => { g with ticket := v }), (0x300114, Sys.fgRwi fun g => { g with outAddr := v }),
     (0x30011C, Sys.fgRwi fun g => { g with inter := v }), (0x300124, Sys.fgRwi fun g => { g with pose := v }),
     (0x400020, Sys.modPipe 0 fun p => { p with fbAddr := v }), (0x410020, Sys.modPipe 1 fun p => { p with fbAddr := v }), (0x500010, roW),
     (0x500018, roW), (0x500030, roW), (0x600008, fun y => y.modRaster fun r => { r with grantAddr := v }),
     (0x900044, fun y => y.modModel y.sec.modelSel (fun m => { m with regAddr := v })),
     (0x900084, fun y => if (y.job y.sec.jobSel).st = 0 then y.modJob y.sec.jobSel fun j => { j with manifest := v } else y.reject),
     (0x9000E0, fun y => y.modSec fun c => { c with attAddr := v }), (0xB00040, roW), (0xB00050, fun y => y.modLink fun l => { l with invAddr := v })] o y

/-- A write of the high word is held until the low word is written (R5). -/
def Sys.highWrite (o w : Nat) (y : Sys) : Sys := y.modGlob fun g => { g with hiHeld := tset g.hiHeld o (w % 2 ^ 32) }

/-- A write of the low word commits the held high word with it, or leaves the high half unchanged (R5). -/
def Sys.lowWrite (o w : Nat) (y : Sys) : Sys :=
  match y.wideReg o with
  | none => y
  | some old =>
    let h := (tfind y.glob.hiHeld o).getD (old / 2 ^ 32)
    (y.modGlob fun g => { g with hiHeld := tdel g.hiHeld o }).wideWrite o (w % 2 ^ 32 + 2 ^ 32 * h)

/-! ### The window -/

/-- A write of an aligned word, the global block's commands and CLR_REJECTS apart. -/
def Sys.writeAt (cause h o w : Nat) (y : Sys) : Sys :=
  if (y.wideReg o).isSome then y.lowWrite o w
  else if 4 ≤ o ∧ (y.wideReg (o - 4)).isSome = true then y.highWrite (o - 4) w
  else if o < 0x100000 then
    Writes.run ([(0x00, roW), (0x04, roW), (0x10, roW), (0x14, roW), (0x20, roW), (0x30, roW)] ++ sameFrom 0x40 9 (fun _ => roW)) o y
  else if o < 0x200000 then y.bridleWriteAt h (o - 0x100000) w
  else if o < 0x300000 then y.girthWriteAt h (o - 0x200000) w
  else if o < 0x400000 then (beamWrites h w).run (o - 0x300000) y
  else if o < 0x410000 then (pipeWrites 0 h w).run (o - 0x400000) y
  else if o < 0x420000 then (pipeWrites 1 h w).run (o - 0x410000) y
  else if o < 0x500000 then y.reject
  else if o < 0x600000 then (memWrites h w).run (o - 0x500000) y
  else if o < 0x700000 then (rasterWrites h w).run (o - 0x600000) y
  else if o < 0x800000 then (visionWrites h w).run (o - 0x700000) y
  else if o < 0x900000 then (duoWrites h w).run (o - 0x800000) y
  else if o < 0xA00000 then (secWrites cause h w).run (o - 0x900000) y
  else if o < 0xB00000 then (faultWrites h w).run (o - 0xA00000) y
  else if o < 0xC00000 then y.linkWriteAt h (o - 0xB00000) w
  else if o < 0x1000000 then y.reject
  else if o < 0x1400000 then y.stallWriteAt h ((o - 0x1000000) / 0x10000) (o % 0x10000) w
  else if 0x2000000 ≤ o ∧ o < 0x2200000 then if o % 8 = 0 then y.stillWake.doorbell ((o - 0x2000000) / 8) w else y
  else y.reject

/-- The image at GLOBAL_LOAD_ADDR, as long as its header says and at most 1 MiB (R29, R425). -/
def State.hostImage (s : State) : List Byte :=
  let a := s.sys.glob.loadAddr
  let c := s.sys.hostCells
  Cells.read c a (max 12 (min (2 ^ 20) (wordAt (Cells.read c a 12) 2)))

/-- GLOBAL_LOAD: each bit acts in its phase; a write with a bit outside its phase counts once (R28, R44). -/
def State.loadWrite (w : Nat) (s : State) : State :=
  let r := s.sys.glob.rejects
  let bad := (bitAt w 0 && s.boot.phase != .waitFirmware) || (bitAt w 1 && s.boot.phase != .waitPattern) ||
    (bitAt w 2 && (s.boot.phase != .ready || s.sys.glob.amendState == 1))
  let t := if s.boot.phase = .waitFirmware ∧ bitAt w 0 then s.loadFw s.hostImage
    else if s.boot.phase = .waitPattern ∧ bitAt w 1 then s.loadPattern s.hostImage
    else if s.boot.phase = .ready ∧ bitAt w 2 then s.amend s.hostImage
    else s
  t.modSys fun y => y.modGlob fun g => { g with rejects := if bad then satInc r else r }

/-- GLOBAL_RESET: WARM goes before RELOAD (R45); not while a record halts bring-up (R455). -/
def State.resetWrite (w : Nat) (s : State) : State := if s.recordHalt then s else if bitAt w 0 then s.warm 1 false true else if bitAt w 1 then s.reload 3 else s

/-- A write counts once, however many of its fields are rejected or clamped (R26, R28); r is the count before it. -/
def Sys.countOnce (r : Nat) (y : Sys) : Sys := if y.glob.rejects ≤ r then y else y.modGlob fun g => { g with rejects := satInc r }

/-- A write of an aligned word takes effect (R6). -/
def State.writeWord (h o w : Nat) (s : State) : State :=
  match o with
  | 0x18 => if bitAt w 0 then s.modSys fun y => y.modGlob fun g => { g with rejects := cleared h 0 } else s
  | 0x2C => s.loadWrite w
  | 0x34 => s.resetWrite w
  | 0x38 => s.modBoot fun b => { b with cause := rw1c b.cause (w % 2 ^ 5) (h % 2 ^ 5) }
  | _ => s.modSys fun y => (y.writeAt s.boot.cause h o w).countOnce y.glob.rejects

/-- Registers whose host writes the TANDEM manager forwards (R391). -/
def forwarded (o : Nat) : Bool :=
  (decide (0x2000000 ≤ o ∧ o < 0x2200000)) || decide (0x100100 ≤ o ∧ o < 0x100500) || decide (0x100900 ≤ o ∧ o < 0x100B10) ||
  decide (0x100C00 ≤ o ∧ o < 0x100C38) || decide (0x600004 ≤ o ∧ o < 0x600014) || decide (0xB00050 ≤ o ∧ o < 0xB00060) ||
  decide (0xB01000 ≤ o ∧ o < 0xB01200) || o == 0x30001C || decide (0x300100 ≤ o ∧ o < 0x300160)

/-- A host write of size bytes at an offset of the window (R4, R391): the TANDEM worker rejects what its manager forwards. -/
def State.hostWriteReg (h o w size : Nat) (s : State) : State :=
  if o % 4 ≠ 0 ∨ size ≠ 4 then s.rejected
  else if forwarded o then
    if s.sys.mirrorWorker then s.rejected
    else (s.writeWord h o w).modSys (Sys.mirrored o w id)
  else s.writeWord h o w

/-! ### Host requests (R322, R323, R379) -/

/-- A host's register write arrives on a module that is UP; in STILL it waits for the exit (R379). `word.same` says which events fall in its cycle (R8). -/
def execRegisterWrite (module offset : Nat) (word : Written) (size : Nat) (s : State) : Res :=
  let m := module % 2
  let o := offset % 2 ^ 26
  if (s.sys.module m).st ≠ 3 then .next s
  else
    let s := s.modSys (Sys.emit (.crd m 1 0 1))
    .next (if s.sys.inStill then
        s.modSys fun y => y.stillWake.modLink fun l => { l with stillHeld := l.stillHeld ++ [{ kind := 0, module := m, addr := o, tag := size, n := word.word % 2 ^ 32 }] }
      else s.hostWriteReg word.same o (word.word % 2 ^ 32) size)

/-- A register read is answered on its module. -/
def State.answerRead (m tag o size : Nat) (s : State) : State :=
  let r := s.hostRead o size
  r.2.modSys fun y => (y.readVal r.1).sendCpl m (.cpl m tag (leBytes (max 4 size) r.1))

/-- REG64_LOW_READ (R5): a host reads a word of the window; the low word of a 64-bit register latches its high word. The row stands for every
register read (log entry 34). -/
def execReg64LowRead (module tag offset size : Nat) (s : State) : Res :=
  let m := module % 2
  let o := offset % 2 ^ 26
  if (s.sys.module m).st ≠ 3 then .next s
  else
    let s := s.modSys (Sys.emit (.crd m 0 1 0))
    .next (if s.sys.inStill then
        s.modSys fun y => y.stillWake.modLink fun l => { l with stillHeld := l.stillHeld ++ [{ kind := 1, module := m, addr := o, tag := tag % 1024, n := size }] }
      else s.answerRead m (tag % 1024) o size)

/-- REG64_HIGH_WRITE (R5): offset is the low word's. An offset with no 64-bit register is that of another register's word. -/
def execReg64HighWrite (offset word : Nat) (s : State) : Res := .next (s.hostWriteReg 0 (offset % 2 ^ 26 + 4) (word % 2 ^ 32) 4)

/-- REG64_LOW_WRITE (R5). -/
def execReg64LowWrite (offset word : Nat) (s : State) : Res := .next (s.hostWriteReg 0 (offset % 2 ^ 26) (word % 2 ^ 32) 4)

/-- CLR_REJECTS (R26, R27): a rejection in the same cycle leaves the count at 1. -/
def execClrRejects (sameCycle : Bool) (s : State) : Res :=
  .next (s.modSys fun y => y.modGlob fun g => { g with rejects := clrCount sameCycle })

/-- MIRROR (R391): the worker applies a forwarded write; data and its byte enables for device memory, none for a register. -/
def execMirror (addr value : Nat) (data : List Byte) (s : State) : Res :=
  .next (if s.sys.glob.config = 2 ∧ s.sys.duo.role = 1 ∧ s.sys.duo.st = 3 then
    if data.isEmpty then s.writeWord 0 addr (value % 2 ^ 32)
    else s.modSys (Sys.hostStore addr ((List.range data.length).map (bitAt value)) data)
  else s)

/-- A request that waited for the exit from STILL goes on (R379). -/
def HeldReq.apply (h : HeldReq) (s : State) : State :=
  match h.kind with
  | 0 => s.hostWriteReg 0 h.addr h.n h.tag
  | 1 => s.answerRead h.module h.tag h.addr h.n
  | 2 => s.modSys (Sys.hostStore h.addr h.mask h.data)
  | _ => s.modSys (Sys.hostLoad h.module h.tag h.addr h.n)

/-- The die is in LULL again: module 0 out of L1, the mapped channels out of self-refresh, the domains that stopped run (R377, R379). -/
def Sys.stillLeft (y : Sys) : Sys :=
  let y := (y.modGirth fun g => { g with state := 1, moving := 0 }).modLink fun l => { l with l1 := false }
  y.modMem fun m => { m with chans := tmap m.chans fun k c => if c.st = 3 ∧ (m.owner k).isSome = true then { c with st := 2 } else c }

/-- DIE_STILL_EXIT_DONE (R379). -/
def execDieStillExitDone (s : State) : Res :=
  if s.sys.girth.state = 2 ∧ s.sys.girth.moving = 3 then
    let held := s.sys.link.stillHeld
    .next (held.foldl (fun s h => h.apply s) (s.modSys fun y => (y.stillLeft).modLink fun l => { l with stillHeld := [] }))
  else .next s

end Sys2Proof.Machine
end

