-- ==== Sys2Proof/Machine/Dispatch.lean ====
section
/-! DEFINITION. One arm per command: a direct call of its meaning. -/

namespace Sys2Proof.Machine

/-- The effect of a command on everything but the queue. -/
def exec (i : Instr) (s : State) : Host.Outcome State Fault Refusal :=
  match i with
  | .registerWrite module offset word size => Sys2Proof.Machine.execRegisterWrite module offset word size s
  | .reg64LowRead module tag offset size => Sys2Proof.Machine.execReg64LowRead module tag offset size s
  | .reg64HighWrite offset word => Sys2Proof.Machine.execReg64HighWrite offset word s
  | .reg64LowWrite offset word => Sys2Proof.Machine.execReg64LowWrite offset word s
  | .clrRejects sameCycle => Sys2Proof.Machine.execClrRejects sameCycle s
  | .pwrgoodRise duoId duoMode pll => Sys2Proof.Machine.execPwrgoodRise duoId duoMode pll s
  | .recordReadDone ok record => Sys2Proof.Machine.execRecordReadDone ok record s
  | .pufIdentityDone ok secret => Sys2Proof.Machine.execPufIdentityDone ok secret s
  | .linkTrainDone ok pll => Sys2Proof.Machine.execLinkTrainDone ok pll s
  | .loadFw image => Sys2Proof.Machine.execLoadFw image s
  | .firmwareVerifyDone => Sys2Proof.Machine.execFirmwareVerifyDone s
  | .loadPattern image => Sys2Proof.Machine.execLoadPattern image s
  | .patternCheckDone => Sys2Proof.Machine.execPatternCheckDone s
  | .applyPllLockDone ok => Sys2Proof.Machine.execApplyPllLockDone ok s
  | .stallInitDone => Sys2Proof.Machine.execStallInitDone s
  | .memTrainDone failed densities => Sys2Proof.Machine.execMemTrainDone failed densities s
  | .amend image => Sys2Proof.Machine.execAmend image s
  | .amendmentEnd => Sys2Proof.Machine.execAmendmentEnd s
  | .globalResetWarm => Sys2Proof.Machine.execGlobalResetWarm s
  | .globalResetReload => Sys2Proof.Machine.execGlobalResetReload s
  | .resetPinLow pll => Sys2Proof.Machine.execResetPinLow pll s
  | .pwrgoodFall => Sys2Proof.Machine.execPwrgoodFall s
  | .supplyFault => Sys2Proof.Machine.execSupplyFault s
  | .tapReset => Sys2Proof.Machine.execTapReset s
  | .jtagBypass tdi => Sys2Proof.Machine.execJtagBypass tdi s
  | .jtagSamplePreload levels tdi => Sys2Proof.Machine.execJtagSamplePreload levels tdi s
  | .jtagExtest levels tdi => Sys2Proof.Machine.execJtagExtest levels tdi s
  | .jtagIdcode => Sys2Proof.Machine.execJtagIdcode s
  | .beamTick => Sys2Proof.Machine.execBeamTick s
  | .ghostTick => Sys2Proof.Machine.execGhostTick s
  | .beamLineRead => Sys2Proof.Machine.execBeamLineRead s
  | .beamGateOpen mask => Sys2Proof.Machine.execBeamGateOpen mask s
  | .beamPhaseSlip => Sys2Proof.Machine.execBeamPhaseSlip s
  | .beamClrCounts => Sys2Proof.Machine.execBeamClrCounts s
  | .heldFireRelease => Sys2Proof.Machine.execHeldFireRelease s
  | .fgEnable word => Sys2Proof.Machine.execFgEnable word s
  | .fgDisable word => Sys2Proof.Machine.execFgDisable word s
  | .fgClrCounts => Sys2Proof.Machine.execFgClrCounts s
  | .sourceRegister queue => Sys2Proof.Machine.execSourceRegister queue s
  | .add core d a b => Sys2Proof.Machine.execAdd core d a b s
  | .sub core d a b => Sys2Proof.Machine.execSub core d a b s
  | .and core d a b => Sys2Proof.Machine.execAnd core d a b s
  | .or core d a b => Sys2Proof.Machine.execOr core d a b s
  | .xor core d a b => Sys2Proof.Machine.execXor core d a b s
  | .shl core d a b => Sys2Proof.Machine.execShl core d a b s
  | .shr core d a b => Sys2Proof.Machine.execShr core d a b s
  | .sra core d a b => Sys2Proof.Machine.execSra core d a b s
  | .mul core d a b => Sys2Proof.Machine.execMul core d a b s
  | .mulh core d a b => Sys2Proof.Machine.execMulh core d a b s
  | .mulhu core d a b => Sys2Proof.Machine.execMulhu core d a b s
  | .slt core d a b => Sys2Proof.Machine.execSlt core d a b s
  | .sltu core d a b => Sys2Proof.Machine.execSltu core d a b s
  | .min core d a b => Sys2Proof.Machine.execMin core d a b s
  | .max core d a b => Sys2Proof.Machine.execMax core d a b s
  | .clz core d a => Sys2Proof.Machine.execClz core d a s
  | .popc core d a => Sys2Proof.Machine.execPopc core d a s
  | .addi core d a imm => Sys2Proof.Machine.execAddi core d a imm s
  | .andi core d a imm => Sys2Proof.Machine.execAndi core d a imm s
  | .ori core d a imm => Sys2Proof.Machine.execOri core d a imm s
  | .xori core d a imm => Sys2Proof.Machine.execXori core d a imm s
  | .shli core d a imm => Sys2Proof.Machine.execShli core d a imm s
  | .shri core d a imm => Sys2Proof.Machine.execShri core d a imm s
  | .srai core d a imm => Sys2Proof.Machine.execSrai core d a imm s
  | .slti core d a imm => Sys2Proof.Machine.execSlti core d a imm s
  | .lui core d imm19 => Sys2Proof.Machine.execLui core d imm19 s
  | .ldw core d a imm => Sys2Proof.Machine.execLdw core d a imm s
  | .ldh core d a imm => Sys2Proof.Machine.execLdh core d a imm s
  | .ldb core d a imm => Sys2Proof.Machine.execLdb core d a imm s
  | .stw core d a imm => Sys2Proof.Machine.execStw core d a imm s
  | .sth core d a imm => Sys2Proof.Machine.execSth core d a imm s
  | .stb core d a imm => Sys2Proof.Machine.execStb core d a imm s
  | .ldp core d a imm => Sys2Proof.Machine.execLdp core d a imm s
  | .stp core d a imm => Sys2Proof.Machine.execStp core d a imm s
  | .beq core a b off => Sys2Proof.Machine.execBeq core a b off s
  | .bne core a b off => Sys2Proof.Machine.execBne core a b off s
  | .blt core a b off => Sys2Proof.Machine.execBlt core a b off s
  | .bge core a b off => Sys2Proof.Machine.execBge core a b off s
  | .bltu core a b off => Sys2Proof.Machine.execBltu core a b off s
  | .bgeu core a b off => Sys2Proof.Machine.execBgeu core a b off s
  | .jmp core off24 => Sys2Proof.Machine.execJmp core off24 s
  | .call core off24 => Sys2Proof.Machine.execCall core off24 s
  | .jr core a => Sys2Proof.Machine.execJr core a s
  | .illegalInstruction core => Sys2Proof.Machine.execIllegalInstruction core s
  | .emma core a => Sys2Proof.Machine.execEmma core a s
  | .emmaEnd core => Sys2Proof.Machine.execEmmaEnd core s
  | .econvMacMain core a => Sys2Proof.Machine.execEconvMacMain core a s
  | .econvMacEdge core a => Sys2Proof.Machine.execEconvMacEdge core a s
  | .econvMax core a => Sys2Proof.Machine.execEconvMax core a s
  | .econvAvg core a => Sys2Proof.Machine.execEconvAvg core a s
  | .econvEnd core => Sys2Proof.Machine.execEconvEnd core s
  | .ezero core mask => Sys2Proof.Machine.execEzero core mask s
  | .ezeroApply core engine => Sys2Proof.Machine.execEzeroApply core engine s
  | .eswap core mask => Sys2Proof.Machine.execEswap core mask s
  | .eswapApply core engine => Sys2Proof.Machine.execEswapApply core engine s
  | .edrain core a mask => Sys2Proof.Machine.execEdrain core a mask s
  | .edrainEnd core => Sys2Proof.Machine.execEdrainEnd core s
  | .ewait core mask => Sys2Proof.Machine.execEwait core mask s
  | .vadd core d a b => Sys2Proof.Machine.execVadd core d a b s
  | .vsub core d a b => Sys2Proof.Machine.execVsub core d a b s
  | .vmul core d a b => Sys2Proof.Machine.execVmul core d a b s
  | .vmin core d a b => Sys2Proof.Machine.execVmin core d a b s
  | .vmax core d a b => Sys2Proof.Machine.execVmax core d a b s
  | .vfma core a b => Sys2Proof.Machine.execVfma core a b s
  | .vlda core a => Sys2Proof.Machine.execVlda core a s
  | .vsta core d => Sys2Proof.Machine.execVsta core d s
  | .vexp2 core d a => Sys2Proof.Machine.execVexp2 core d a s
  | .vrcp core d a => Sys2Proof.Machine.execVrcp core d a s
  | .vrsq core d a => Sys2Proof.Machine.execVrsq core d a s
  | .vdiv core d a b => Sys2Proof.Machine.execVdiv core d a b s
  | .vcvti core d a => Sys2Proof.Machine.execVcvti core d a s
  | .vcvtf core d a => Sys2Proof.Machine.execVcvtf core d a s
  | .viadd core d a b => Sys2Proof.Machine.execViadd core d a b s
  | .vimul core d a b => Sys2Proof.Machine.execVimul core d a b s
  | .vsum core d a => Sys2Proof.Machine.execVsum core d a s
  | .vmaxr core d a => Sys2Proof.Machine.execVmaxr core d a s
  | .sint core d a => Sys2Proof.Machine.execSint core d a s
  | .smrg core d a => Sys2Proof.Machine.execSmrg core d a s
  | .stopk core d a => Sys2Proof.Machine.execStopk core d a s
  | .scmp core d a => Sys2Proof.Machine.execScmp core d a s
  | .gath core a => Sys2Proof.Machine.execGath core a s
  | .scat core a => Sys2Proof.Machine.execScat core a s
  | .scadd core a => Sys2Proof.Machine.execScadd core a s
  | .dmaCopy core d a => Sys2Proof.Machine.execDmaCopy core d a s
  | .dmaConvert core d a => Sys2Proof.Machine.execDmaConvert core d a s
  | .dmaZcStore core d a => Sys2Proof.Machine.execDmaZcStore core d a s
  | .dmaZcLoad core d a => Sys2Proof.Machine.execDmaZcLoad core d a s
  | .dmaTicketEnd core ticket => Sys2Proof.Machine.execDmaTicketEnd core ticket s
  | .dwait core a => Sys2Proof.Machine.execDwait core a s
  | .tile core => Sys2Proof.Machine.execTile core s
  | .tileOverrun core => Sys2Proof.Machine.execTileOverrun core s
  | .fence core => Sys2Proof.Machine.execFence core s
  | .semacq core a => Sys2Proof.Machine.execSemacq core a s
  | .semrel core a => Sys2Proof.Machine.execSemrel core a s
  | .semGrant sem => Sys2Proof.Machine.execSemGrant sem s
  | .rwait core d a b => Sys2Proof.Machine.execRwait core d a b s
  | .csrr core d imm => Sys2Proof.Machine.execCsrr core d imm s
  | .csrw core a imm => Sys2Proof.Machine.execCsrw core a imm s
  | .exit core a => Sys2Proof.Machine.execExit core a s
  | .stallQselWrite stall word => Sys2Proof.Machine.execStallQselWrite stall word s
  | .stallQdataRead stall => Sys2Proof.Machine.execStallQdataRead stall s
  | .stallClrCounts stall => Sys2Proof.Machine.execStallClrCounts stall s
  | .stallQclrCounts stall => Sys2Proof.Machine.execStallQclrCounts stall s
  | .taskPacket queue => Sys2Proof.Machine.execTaskPacket queue s
  | .attn queue => Sys2Proof.Machine.execAttn queue s
  | .attnBwd queue => Sys2Proof.Machine.execAttnBwd queue s
  | .kappend queue => Sys2Proof.Machine.execKappend queue s
  | .klistEvict queue => Sys2Proof.Machine.execKlistEvict queue s
  | .klistPin queue => Sys2Proof.Machine.execKlistPin queue s
  | .klistUnpin queue => Sys2Proof.Machine.execKlistUnpin queue s
  | .klistSpill queue => Sys2Proof.Machine.execKlistSpill queue s
  | .klistCommit queue => Sys2Proof.Machine.execKlistCommit queue s
  | .listLockGrant sem => Sys2Proof.Machine.execListLockGrant sem s
  | .prefetchLanded queue late => Sys2Proof.Machine.execPrefetchLanded queue late s
  | .kvWaitExpire queue => Sys2Proof.Machine.execKvWaitExpire queue s
  | .kvGrantDevice count => Sys2Proof.Machine.execKvGrantDevice count s
  | .kvGrantHost count => Sys2Proof.Machine.execKvGrantHost count s
  | .kvClrCounts => Sys2Proof.Machine.execKvClrCounts s
  | .nopPacket queue => Sys2Proof.Machine.execNopPacket queue s
  | .rasterPacket queue => Sys2Proof.Machine.execRasterPacket queue s
  | .visionFlow queue => Sys2Proof.Machine.execVisionFlow queue s
  | .visionStereo queue => Sys2Proof.Machine.execVisionStereo queue s
  | .visionFeature queue => Sys2Proof.Machine.execVisionFeature queue s
  | .sourcePacket queue => Sys2Proof.Machine.execSourcePacket queue s
  | .semAcquirePacket queue => Sys2Proof.Machine.execSemAcquirePacket queue s
  | .semReleasePacket queue => Sys2Proof.Machine.execSemReleasePacket queue s
  | .writePacket queue => Sys2Proof.Machine.execWritePacket queue s
  | .reservedPacket queue => Sys2Proof.Machine.execReservedPacket queue s
  | .doorbell queue word => Sys2Proof.Machine.execDoorbell queue word s
  | .packetFetch queue => Sys2Proof.Machine.execPacketFetch queue s
  | .sliverDispatch domain => Sys2Proof.Machine.execSliverDispatch domain s
  | .permitGrant => Sys2Proof.Machine.execPermitGrant s
  | .preemptRequest domain => Sys2Proof.Machine.execPreemptRequest domain s
  | .saveComplete core => Sys2Proof.Machine.execSaveComplete core s
  | .restoreComplete core => Sys2Proof.Machine.execRestoreComplete core s
  | .drainWindowClose core => Sys2Proof.Machine.execDrainWindowClose core s
  | .holdLimitExpire sem k => Sys2Proof.Machine.execHoldLimitExpire sem k s
  | .suspendCopyLanded job => Sys2Proof.Machine.execSuspendCopyLanded job s
  | .breezeInStep => Sys2Proof.Machine.execBreezeInStep s
  | .stallWake stall => Sys2Proof.Machine.execStallWake stall s
  | .bridleClrCounts => Sys2Proof.Machine.execBridleClrCounts s
  | .jobOpen => Sys2Proof.Machine.execJobOpen s
  | .jobSuspend => Sys2Proof.Machine.execJobSuspend s
  | .jobResume => Sys2Proof.Machine.execJobResume s
  | .jobCancel => Sys2Proof.Machine.execJobCancel s
  | .jobClose => Sys2Proof.Machine.execJobClose s
  | .jobCancelEnd job => Sys2Proof.Machine.execJobCancelEnd job s
  | .semCfgWrite word => Sys2Proof.Machine.execSemCfgWrite word s
  | .qcfgBaseWrite base => Sys2Proof.Machine.execQcfgBaseWrite base s
  | .qcfgRingWrite word => Sys2Proof.Machine.execQcfgRingWrite word s
  | .ctxCalmExit word => Sys2Proof.Machine.execCtxCalmExit word s
  | .consTotalRead => Sys2Proof.Machine.execConsTotalRead s
  | .consClrCounts => Sys2Proof.Machine.execConsClrCounts s
  | .auditSweep => Sys2Proof.Machine.execAuditSweep s
  | .rasterPassStart => Sys2Proof.Machine.execRasterPassStart s
  | .primitiveProcess => Sys2Proof.Machine.execPrimitiveProcess s
  | .growWaitExpire => Sys2Proof.Machine.execGrowWaitExpire s
  | .tileSliceConsume owner => Sys2Proof.Machine.execTileSliceConsume owner s
  | .fragmentRetire owner qx qy colors keep depths => Sys2Proof.Machine.execFragmentRetire owner qx qy colors keep depths s
  | .textureSample unit draw idx uv => Sys2Proof.Machine.execTextureSample unit draw idx uv s
  | .rasterGrant count => Sys2Proof.Machine.execRasterGrant count s
  | .rasterClrCounts => Sys2Proof.Machine.execRasterClrCounts s
  | .visionCommandStart engine => Sys2Proof.Machine.execVisionCommandStart engine s
  | .flagStripeAdvance engine => Sys2Proof.Machine.execFlagStripeAdvance engine s
  | .visionStop engine row level dir final => Sys2Proof.Machine.execVisionStop engine row level dir final s
  | .visionClrCounts => Sys2Proof.Machine.execVisionClrCounts s
  | .pipeEnable pipe => Sys2Proof.Machine.execPipeEnable pipe s
  | .linkTrainingEnd pipe ok => Sys2Proof.Machine.execLinkTrainingEnd pipe ok s
  | .pipeFrameStart pipe => Sys2Proof.Machine.execPipeFrameStart pipe s
  | .lineFetchStart pipe line late => Sys2Proof.Machine.execLineFetchStart pipe line late s
  | .pipeCalmEnter pipe => Sys2Proof.Machine.execPipeCalmEnter pipe s
  | .pipeCalmExit pipe => Sys2Proof.Machine.execPipeCalmExit pipe s
  | .calmTimerExpire pipe => Sys2Proof.Machine.execCalmTimerExpire pipe s
  | .stillEnter => Sys2Proof.Machine.execStillEnter s
  | .stillExit pipe => Sys2Proof.Machine.execStillExit pipe s
  | .suArm first last => Sys2Proof.Machine.execSuArm first last s
  | .pipeClrCounts pipe => Sys2Proof.Machine.execPipeClrCounts pipe s
  | .auxNativeWrite pipe addr len => Sys2Proof.Machine.execAuxNativeWrite pipe addr len s
  | .auxNativeRead pipe addr len => Sys2Proof.Machine.execAuxNativeRead pipe addr len s
  | .auxI2cWrite pipe addr len => Sys2Proof.Machine.execAuxI2cWrite pipe addr len s
  | .auxI2cRead pipe addr len => Sys2Proof.Machine.execAuxI2cRead pipe addr len s
  | .auxReply pipe code data => Sys2Proof.Machine.execAuxReply pipe code data s
  | .auxDeferRetry pipe => Sys2Proof.Machine.execAuxDeferRetry pipe s
  | .auxTimeout pipe => Sys2Proof.Machine.execAuxTimeout pipe s
  | .hpdLowTimeout pipe => Sys2Proof.Machine.execHpdLowTimeout pipe s
  | .hpdPulse pipe => Sys2Proof.Machine.execHpdPulse pipe s
  | .laneLockLoss pipe => Sys2Proof.Machine.execLaneLockLoss pipe s
  | .hostDevmemWrite module addr fbe lbe data => Sys2Proof.Machine.execHostDevmemWrite module addr fbe lbe data s
  | .hostDevmemRead module tag addr len => Sys2Proof.Machine.execHostDevmemRead module tag addr len s
  | .hostCpl module tag data => Sys2Proof.Machine.execHostCpl module tag data s
  | .hostCple module tag => Sys2Proof.Machine.execHostCple module tag s
  | .hostCrd module ph pd nph => Sys2Proof.Machine.execHostCrd module ph pd nph s
  | .hostInit module ph nph pd => Sys2Proof.Machine.execHostInit module ph nph pd s
  | .malformedPacket module tag read => Sys2Proof.Machine.execMalformedPacket module tag read s
  | .flitCrcFail module again => Sys2Proof.Machine.execFlitCrcFail module again s
  | .moduleRetrainEnd module ok => Sys2Proof.Machine.execModuleRetrainEnd module ok s
  | .linkLaneLoss module => Sys2Proof.Machine.execLinkLaneLoss module s
  | .cplTimeout module tag => Sys2Proof.Machine.execCplTimeout module tag s
  | .module1TrainEnd ok => Sys2Proof.Machine.execModule1TrainEnd ok s
  | .vecRaiseCmd vector word => Sys2Proof.Machine.execVecRaiseCmd vector word s
  | .vecMaskClear vector => Sys2Proof.Machine.execVecMaskClear vector s
  | .invPage context => Sys2Proof.Machine.execInvPage context s
  | .invContext context => Sys2Proof.Machine.execInvContext context s
  | .invAll => Sys2Proof.Machine.execInvAll s
  | .invDone => Sys2Proof.Machine.execInvDone s
  | .hostlinkClrCounts => Sys2Proof.Machine.execHostlinkClrCounts s
  | .refreshInterval channel scanoutWaits => Sys2Proof.Machine.execRefreshInterval channel scanoutWaits s
  | .mr4Poll channel rate beyond => Sys2Proof.Machine.execMr4Poll channel rate beyond s
  | .wckDriftSample channel beyond => Sys2Proof.Machine.execWckDriftSample channel beyond s
  | .selfRefreshEntry channel => Sys2Proof.Machine.execSelfRefreshEntry channel s
  | .selfRefreshExit channel => Sys2Proof.Machine.execSelfRefreshExit channel s
  | .patrolScrub block found => Sys2Proof.Machine.execPatrolScrub block found s
  | .loftWriteBack domain => Sys2Proof.Machine.execLoftWriteBack domain s
  | .loftWriteBackInvalidate domain => Sys2Proof.Machine.execLoftWriteBackInvalidate domain s
  | .loftCmdDone domain => Sys2Proof.Machine.execLoftCmdDone domain s
  | .memClrCounts => Sys2Proof.Machine.execMemClrCounts s
  | .governorDecision => Sys2Proof.Machine.execGovernorDecision s
  | .powerMeasurement answered rail other => Sys2Proof.Machine.execPowerMeasurement answered rail other s
  | .thermalSample celsius => Sys2Proof.Machine.execThermalSample celsius s
  | .voltageSettled => Sys2Proof.Machine.execVoltageSettled s
  | .avsTimeout => Sys2Proof.Machine.execAvsTimeout s
  | .droopTrip detector => Sys2Proof.Machine.execDroopTrip detector s
  | .droopClear edges => Sys2Proof.Machine.execDroopClear edges s
  | .stepResume => Sys2Proof.Machine.execStepResume s
  | .squallFall => Sys2Proof.Machine.execSquallFall s
  | .squallRise => Sys2Proof.Machine.execSquallRise s
  | .squallHoldExpire => Sys2Proof.Machine.execSquallHoldExpire s
  | .gateIdleExpire stall => Sys2Proof.Machine.execGateIdleExpire stall s
  | .girthCapWrite word => Sys2Proof.Machine.execGirthCapWrite word s
  | .girthModeWrite word => Sys2Proof.Machine.execGirthModeWrite word s
  | .girthHintWrite ctx word => Sys2Proof.Machine.execGirthHintWrite ctx word s
  | .girthClrCounts => Sys2Proof.Machine.execGirthClrCounts s
  | .harnessTrainEnd => Sys2Proof.Machine.execHarnessTrainEnd s
  | .hello config duoId digest ctxs doms => Sys2Proof.Machine.execHello config duoId digest ctxs doms s
  | .duoFormTimeout => Sys2Proof.Machine.execDuoFormTimeout s
  | .hbeatSend => Sys2Proof.Machine.execHbeatSend s
  | .hbeat word0 epoch digest0 => Sys2Proof.Machine.execHbeat word0 epoch digest0 s
  | .peerSilenceTimeout => Sys2Proof.Machine.execPeerSilenceTimeout s
  | .duoHoldTimeout => Sys2Proof.Machine.execDuoHoldTimeout s
  | .beampos line tick held source phase frame => Sys2Proof.Machine.execBeampos line tick held source phase frame s
  | .sched words => Sys2Proof.Machine.execSched words s
  | .rreq tag stall entry addr len => Sys2Proof.Machine.execRreq tag stall entry addr len s
  | .rrsp tag stall entry status data => Sys2Proof.Machine.execRrsp tag stall entry status data s
  | .digest key digest => Sys2Proof.Machine.execDigest key digest s
  | .mirror addr value data => Sys2Proof.Machine.execMirror addr value data s
  | .digestWaitExpire key => Sys2Proof.Machine.execDigestWaitExpire key s
  | .bandDigestLate band kind frame => Sys2Proof.Machine.execBandDigestLate band kind frame s
  | .takeover => Sys2Proof.Machine.execTakeover s
  | .assume => Sys2Proof.Machine.execAssume s
  | .harnessClrCounts => Sys2Proof.Machine.execHarnessClrCounts s
  | .faultDetect site a b permanent => Sys2Proof.Machine.execFaultDetect site a b permanent s
  | .autoReloadExpire => Sys2Proof.Machine.execAutoReloadExpire s
  | .faultLogRead => Sys2Proof.Machine.execFaultLogRead s
  | .faultClrCounts => Sys2Proof.Machine.execFaultClrCounts s
  | .seal => Sys2Proof.Machine.execSeal s
  | .sealHashDone slot => Sys2Proof.Machine.execSealHashDone slot s
  | .unseal => Sys2Proof.Machine.execUnseal s
  | .regionHashDone job index atEnd => Sys2Proof.Machine.execRegionHashDone job index atEnd s
  | .attGo => Sys2Proof.Machine.execAttGo s
  | .attReportWritten ok => Sys2Proof.Machine.execAttReportWritten ok s
  | .secClrCounts => Sys2Proof.Machine.execSecClrCounts s
  | .recordVerifyDone block => Sys2Proof.Machine.execRecordVerifyDone block s
  | .textureUnitIdle unit => Sys2Proof.Machine.execTextureUnitIdle unit s
  | .stallWakeComplete stall => Sys2Proof.Machine.execStallWakeComplete stall s
  | .arithPllRelock => Sys2Proof.Machine.execArithPllRelock s
  | .dieStillEntryDone => Sys2Proof.Machine.execDieStillEntryDone s
  | .dieStillExitDone => Sys2Proof.Machine.execDieStillExitDone s
  | .hpdRise pipe => Sys2Proof.Machine.execHpdRise pipe s
  | .tapExitTestLogicReset trst => Sys2Proof.Machine.execTapExitTestLogicReset trst s
  | .peerWindowRequest write tag addr len data => Sys2Proof.Machine.execPeerWindowRequest write tag addr len data s
  | .peerWindowCompletion tag ok data => Sys2Proof.Machine.execPeerWindowCompletion tag ok data s
  | .harnessCreditReturn ph pd nph => Sys2Proof.Machine.execHarnessCreditReturn ph pd nph s

end Sys2Proof.Machine
end

