-- ==== Sys2Proof/Machine/Wire.lean ====
section
/-! DEFINITION. What the packets of the host link and the Harness are on the wire (R320, R321, R384): units of 16 bytes, 15 of them in the protocol bytes of
a flit. The 16 bytes of the UCIe adapter in each flit are its own (log entry 84). -/

namespace Sys2Proof.Machine

/-! ### Units (R320, R321) -/

/-- A header unit. -/
def headerUnit (type dwlen space fbe lbe tag ctx code addr : Nat) : List Byte :=
  wordsBytes [put type 0 4 + put dwlen 4 6 + put space 10 2 + put fbe 12 4 + put lbe 16 4 + put tag 20 10, put ctx 0 6 + put code 8 8,
    addr % 2 ^ 32, addr / 2 ^ 32 % 2 ^ 32]

/-- Dwords that n bytes at an address touch. -/
def dwords (a n : Nat) : Nat := (a + n + 3) / 4 - a / 4

/-- Byte enables of the dword that begins at b, for n bytes at an address. -/
def dwordEnables (b a n : Nat) : Nat := maskOf ((List.range 4).filter fun i => decide (a ≤ b + i ∧ b + i < a + n))

/-- The header unit of a request or of its completion: type, space, tag, context, address, bytes (R321: LBE is 0 when there is one dword). -/
def spanHeader (type space tag ctx a n : Nat) : List Byte :=
  let k := dwords a n
  headerUnit type (k - 1) space (dwordEnables (a / 4 * 4) a n) (if k = 1 then 0 else dwordEnables ((a + n - 1) / 4 * 4) a n) tag ctx 0 (a / 4 * 4)

/-- Data units: the dwords in address order. The bytes that no enable names, and the rest of the last unit, are free (log entry 84). -/
def dataUnits (seed a : Nat) (bs : List Byte) : List (List Byte) :=
  let n := cdiv (4 * dwords a bs.length) 16
  let l := freeBytes seed (a % 4) ++ bs
  let l := l ++ freeBytes (seed + a % 4) (16 * n - l.length)
  (List.range n).map fun i => (l.drop (16 * i)).take 16

/-- A Harness packet of a type the spec gives no layout for: its type, the rest of the header unit free, and its data (R384, log entry 84). -/
def harnessUnits (seed type : Nat) (bs : List Byte) : List (List Byte) :=
  let h := freeBytes seed 16
  let low := (h.getD 0 0).toNat / 16 * 16 + type
  (h.set 0 (BitVec.ofNat 8 low)) :: (if bs.isEmpty then [] else dataUnits (seed + 16) 0 bs)

/-- Type of a Harness message (R384). -/
def harnessType (kind : String) : Nat :=
  if kind = "HBEAT" then 8 else if kind = "BEAMPOS" then 9 else if kind = "SCHED" then 10 else if kind = "RREQ" then 11 else if kind = "RRSP" then 12
  else if kind = "DIGEST" then 13 else 14

/-- The credit words of CRD and INIT (R321). -/
def creditUnit (type ph nph pd version : Nat) : List Byte := wordsBytes [type, put ph 0 10 + put nph 10 10, put pd 0 20, version]

/-- The module a packet leaves on and its units; none for what is no packet of the link. -/
def OutPkt.units (seed : Nat) (p : OutPkt) : Option (Nat × List (List Byte)) :=
  match p with
  | .mwr m c a bs => some (m, spanHeader 1 2 0 c a bs.length :: dataUnits seed a bs)
  | .mrd m tag c a n => some (m, [spanHeader 2 2 tag c a n])
  | .cpl m tag bs => some (m, headerUnit 3 (dwords 0 bs.length - 1) 0 0 0 tag 0 0 0 :: dataUnits seed 0 bs)
  | .cple m tag code => some (m, [headerUnit 4 0 0 0 0 tag 0 code 0])
  | .msg m v => some (m, [headerUnit 5 0 0 0 0 0 0 v 0])
  | .crd m ph nph pd => some (m, [creditUnit 6 ph nph pd 0])
  | .init m ph nph pd => some (m, [creditUnit 7 ph nph pd 1])
  | .harness "MWR" [c, a] bs => some (1, spanHeader 1 1 0 c a bs.length :: dataUnits seed a bs)
  | .harness "MRD" [tag, c, a, n] _ => some (1, [spanHeader 2 1 tag c a n])
  | .harness "CPL" (tag :: _) bs => some (1, headerUnit 3 (dwords 0 bs.length - 1) 0 0 0 tag 0 0 0 :: dataUnits seed 0 bs)
  | .harness "CPLE" [tag, code] _ => some (1, [headerUnit 4 0 0 0 0 tag 0 code 0])
  | .harness kind _ bs => some (1, harnessUnits seed (harnessType kind) bs)
  | _ => none

/-! ### Flits (R320) -/

/-- Units packed into flits without gaps, 15 to a flit; NOP units fill the last. -/
def packFlits (us : List (List Byte)) : List (List Byte) :=
  (List.range (cdiv us.length 15)).map fun i => padTo 240 ((us.drop (15 * i)).take 15).flatten

/-- The units of packets that leave on a module, in the order they were sent. -/
def unitsOn (m seed : Nat) (ps : List OutPkt) : List (List Byte) :=
  ps.flatMap fun p => match p.units seed with | some (k, us) => if k = m then us else [] | none => []

/-- What was put on the links since the last call leaves in flits; each module's last flit of the burst is filled with NOPs (R320). A module that has nothing to
carry sends NOP flits, which are not listed. -/
def Sys.sendFlits (y : Sys) : Sys :=
  let ps := (y.out.take (y.out.length - y.flits.sent)).reverse
  { y with flits := { sent := y.out.length, m0 := (packFlits (unitsOn 0 y.chance ps)).reverse ++ y.flits.m0,
                      m1 := (packFlits (unitsOn 1 y.chance ps)).reverse ++ y.flits.m1 } }

end Sys2Proof.Machine
end

