-- ==== Sys2Proof/Machine/Step.lean ====
section
/-! DEFINITION. One step of the machine: the command at the front of the queue acts; with no command waiting one cycle of REFCLK passes. -/

namespace Sys2Proof.Machine

/-- One cycle of the 38.4 MHz reference clock passes with no command (R56, R366, R375, R405): nothing happens before power-good, and what was sent meanwhile has
left in flits (R320, log entry 35). -/
def State.idle (s : State) : State := if s.boot.power then s.modSys (Sys.ghostCycles 1) |>.modSys Sys.sendFlits else s

/-- One step. -/
def step (s : State) : Host.Outcome State Fault Refusal :=
  match s.pending with
  | [] => .next s.idle
  | c :: rest => exec c { s with pending := rest }

/-- The state with the command a table word spells put at the front of its queue; the table gives no row bits, so no word spells one. -/
def State.withFetchWord (s : State) (nbits w : Nat) : State :=
  match decodeTableWord nbits w with
  | some c => { s with pending := c :: s.pending }
  | none => s

end Sys2Proof.Machine
end

