-- ==== Sys2Proof/Machine/Fetch.lean ====
section
/-! DEFINITION. The instruction a core fetches next (R76 to R78): the word at its PC in the stall pool, decoded. The commands of the table name it; this file
says which of them the pool's code makes a core issue. -/

namespace Sys2Proof.Machine

/-- The row that the descriptor of an ECONV or a DMA at p names (R134, R308): ECONV by OP and MODE, DMA by OP. -/
def Sys.descForm (y : Sys) (c op p : Nat) : Nat :=
  if op = 0x41 then
    let d := econvFields (y.lsRead c p 64)
    if d.op = 0 then (if d.edge then 1 else 0) else d.op + 1
  else fld (wordAt (y.lsRead c p 64) 0) 0 3

/-- The instruction the sliver on a core fetches from its stall's pool. -/
def Sys.fetched (y : Sys) (c : Nat) : Option Instr :=
  (y.core c).run.map fun r =>
    let w := leNat (y.poolRead (stallOf c) r.pc 4)
    decodeAwl c w (y.descForm c (w / 2 ^ 24 % 256) (r.x (w / 2 ^ 14 % 32)).toNat)

end Sys2Proof.Machine
end

