-- ==== Sys2Proof/Safety.lean ====
section
/-! DEFINITION. What a safe run keeps, in the terms the statements use: the order of bring-up, the memories' canonical form. -/

namespace Sys2Proof.Machine

/-- The phases from LINK on: those that need an accepted die record (R42 step 4). -/
def Phase.afterRecord : Phase → Bool
  | .powerUp | .record | .halted => false
  | _ => true

/-- The phases from WAIT_FIRMWARE on: step 6 has been reached. -/
def Phase.afterLink : Phase → Bool
  | .waitFirmware | .firmware | .waitPattern | .pattern | .apply | .ready => true
  | _ => false

/-- The order of bring-up (R41 to R46): without power the die stands in POWER_UP; no phase after RECORD is reached without a record that passes
every check of R455 under the root key and the die's own identity; none after LINK without a trained link; READY only after steps 10, 11a and 11b. -/
structure State.BootOrder (s : State) : Prop where
  powered : s.boot.phase ≠ .powerUp → s.boot.power = true
  early : s.boot.phase = .powerUp ∨ s.boot.phase = .record → s.boot.recordOk = false ∧ s.boot.linked = false
  accepted : s.boot.phase.afterRecord = true → s.boot.recordOk = true
  genuine : s.boot.recordOk = true → recordError true s.boot.rootKey s.boot.record s.boot.idDigest = 0
  linked : s.boot.phase.afterLink = true → s.boot.linked = true
  linkedOk : s.boot.linked = true → s.boot.recordOk = true
  ready : s.boot.phase = .ready → s.boot.pllDone = true ∧ s.boot.memDone = true ∧ s.boot.stallsDone = true

/-- Host and device memory are in canonical form: addresses strictly rising, no listed byte equal to what an unlisted one reads as. -/
def MemSys.wf (m : MemSys) : Bool := Cells.wf m.dram && Cells.wf m.host

/-! ### Cores and slivers, for the statements about Awl -/

/-- Core c may issue an instruction of the sliver with state r: it runs Awl code of its own (no built-in kernel's), stands at no boundary and waits for
nothing (R79, R83, R152). -/
structure State.Issues (s : State) (c : Nat) (r : Run) : Prop where
  running : (s.sys.core c).st = .running
  going : (s.sys.core c).frozen = false
  run : (s.sys.core c).run = some r
  ready : r.wait = .none
  awl : r.kernel = false

/-- The instruction that follows may be fetched (R81), and no malformed group has ended the sliver (R112). -/
structure Run.GoesOn (r : Run) (pc : Nat) : Prop where
  aligned : pc % 4 = 0
  low : 0x40000 ≤ pc
  high : pc ≤ 0xFBFFF
  sound : r.codes ≠ 0x10

/-- Nothing stops the sliver at its next tile boundary: its job is neither CANCELLING nor SUSPENDING, its task group is not taken back (R192), no Duo hold and no pre-emption request stands
(R83, R275, R289, R303, R396). -/
structure State.Undisturbed (s : State) (r : Run) : Prop where
  cancel : (s.sys.job (s.sys.tg r.tg).job).st ≠ 5
  whole : (s.sys.tg r.tg).cut = false
  suspend : (s.sys.job (s.sys.tg r.tg).job).st ≠ 3
  hold : s.sys.duo.hold = false
  request : r.pre = none

/-- The state with one core replaced, all else as it is. -/
def State.putCore (c : Nat) (k : Core) (s : State) : State := { s with sys := { s.sys with cores := tset s.sys.cores c k } }

/-- The state with core c's sliver in state r. -/
def State.putRun (c : Nat) (r : Run) (s : State) : State := s.putCore c { s.sys.core c with run := some r }

end Sys2Proof.Machine
end

