-- ==== Sys2Proof/Certificates/Slice0/Obligations.lean ====
section
/-! DEFINITION. The statements for the provers, one definition each. -/

open Sys2Proof Sys2Proof.Machine

/-- Tier 1. For every command and every state, a step with that command at the front of the queue is the command's own effect on the state with the rest
of the queue; with an empty queue and no power a step changes nothing. (00_scope) -/
def Obligations.StepRunsFront : Prop :=
  (∀ (c : Instr) (rest : List Instr) (s : State), step { s with pending := c :: rest } = exec c { s with pending := rest }) ∧
  (∀ (s : State), s.pending = [] → s.boot.power = false → step s = .next s)

/-- Tier 2. In every state every command of the table answers a next state, never a fault or a refusal, and the queue of waiting commands after it is the
queue before it. (00_scope) -/
def Obligations.ExecAnswersAndKeepsQueue : Prop :=
  ∀ (c : Instr) (s : State), ∃ t, exec c s = .next t ∧ t.pending = s.pending

/-- Tier 1. The bring-up order invariant (no phase past POWER_UP without power, no phase past RECORD without an accepted record, none past LINK without a
trained link, READY only after steps 10, 11a and 11b) holds in the state after reset. (02_pattern_and_bringup) -/
def Obligations.BootOrderReset : Prop :=
  State.reset.BootOrder

/-- Tier 3. From every state in which the bring-up order invariant holds, whatever command waits at the front, a step that answers a next state answers
one in which it holds again. (02_pattern_and_bringup, 18_determinism_and_security) -/
def Obligations.BootOrderKept : Prop :=
  ∀ (s t : State), s.BootOrder → step s = .next t → t.BootOrder

/-- Tier 2. When the powered device is HALTED and a command leaves it in another phase, the command is the reset bump, a WARM reset, a fall of PWRGOOD, a
supply fault, or a carrier of a register write (REGISTER_WRITE, a 64-bit register row, MIRROR, the end of a STILL exit), which can hold GLOBAL_RESET.
When it stands HALTED with no accepted record (R455), only the reset bump and POWER_ON (a fall of PWRGOOD, a supply fault) take it out.
(02_pattern_and_bringup) -/
def Obligations.HaltedLeavesByReset : Prop :=
  (∀ (c : Instr) (s t : State), s.boot.power = true → s.boot.phase = .halted → exec c s = .next t → t.boot.phase ≠ .halted →
    c = .globalResetWarm ∨ (∃ pll, c = .resetPinLow pll) ∨ c = .pwrgoodFall ∨ c = .supplyFault ∨
    (∃ m o w n, c = .registerWrite m o w n) ∨ (∃ o w, c = .reg64HighWrite o w) ∨ (∃ o w, c = .reg64LowWrite o w) ∨
    (∃ a v d, c = .mirror a v d) ∨ c = .dieStillExitDone) ∧
  (∀ (c : Instr) (s t : State), s.boot.power = true → s.boot.phase = .halted → s.boot.recordOk = false → exec c s = .next t → t.boot.phase ≠ .halted →
    (∃ pll, c = .resetPinLow pll) ∨ c = .pwrgoodFall ∨ c = .supplyFault)

/-- Tier 2. When the device is HALTED, a write of one aligned 32-bit word, whatever events fall in its cycle, leaves HALTED only if it is a write of
GLOBAL_RESET with WARM=1. (02_pattern_and_bringup) -/
def Obligations.HaltedRegisterWriteLeavesByWarm : Prop :=
  ∀ (h o w : Nat) (s : State), s.boot.phase = .halted → (s.hostWriteReg h o w 4).boot.phase ≠ .halted → o = 0x34 ∧ bitAt w 0 = true

/-- Tier 2. A command that changes the TAP is one of the six TAP rows, a fall of PWRGOOD or a supply fault: WARM and RELOAD, register writes and every
other command leave it. (02_pattern_and_bringup, 20_pins_and_electrical) -/
def Obligations.TapChangesByTapOnly : Prop :=
  ∀ (c : Instr) (s t : State), exec c s = .next t → t.tap ≠ s.tap →
    c = .tapReset ∨ (∃ b, c = .tapExitTestLogicReset b) ∨ (∃ l, c = .jtagBypass l) ∨ (∃ n l, c = .jtagSamplePreload n l) ∨
    (∃ n l, c = .jtagExtest n l) ∨ c = .jtagIdcode ∨ c = .pwrgoodFall ∨ c = .supplyFault

/-- Tier 1. After reset GLOBAL_DOMAINS reads 0x0_4000 (only AON runs, the TAP in Test-Logic-Reset), GLOBAL_RESET_CAUSE 0x1, GLOBAL_BOOT_STATUS,
GLOBAL_WRITE_REJECTS and GLOBAL_LOAD_ADDR 0, HOSTLINK_CPL_TIMEOUT 0x03E8, HOSTLINK_VEC MASK 1, MEM_SR_IDLE 0x0064, MEM_SCRUB 0x18, KV_WAIT 0x07D0,
FAULT_CTRL's CORE_LIMIT 3, HARNESS_DIGEST_WAIT 0x07D0, GIRTH_CAP 0x1_86A0; no command waits and nothing is on the wires. (01_organisation,
02_pattern_and_bringup, 03_beam_time, 14_host_link, 15_memory, 17_duo_and_fault_handling) -/
def Obligations.ResetRegisters : Prop :=
  (∀ p ∈ [(0x10, 0x4000), (0x38, 1), (0x20, 0), (0x14, 0), (0x24, 0), (0x28, 0), (0xB00014, 0x3E8), (0xB02000, 1), (0xB023FC, 1), (0x500020, 0x64),
      (0x500024, 0x18), (0x100C20, 0x7D0), (0xA00044, 12), (0x800010, 0x7D0), (0x200004, 0x186A0)],
    State.reset.hostRead p.1 4 = (p.2, (State.reset.hostRead p.1 4).2)) ∧
  State.reset.pending = [] ∧ State.reset.sys.out = [] ∧ State.reset.sys.mem.dram = [] ∧ State.reset.sys.mem.host = []

/-- Tier 1. On a module that is UP, out of STILL: a register write whose offset is not a multiple of 4 or whose size is not 4 bytes changes nothing but
GLOBAL_WRITE_REJECTS, which counts one up to 0xFFFF_FFFF, and the credit it returns; such a read is answered with 0x0000_0000 and changes no register
(the value of the last read is kept by the model); an aligned 32-bit read that is answered gives the word the window holds there. Completion, that
exec answers a next state with the command's own effect under conditions on the state and the operands alone, is a conclusion here for: reg64LowRead.
Formalises: "A write of any other width or alignment has no effect and increments GLOBAL_WRITE_REJECTS in the ID and global block." (R4) -/
def Obligations.OddWidthWriteRejected : Prop :=
  ∀ (m tag o w n e : Nat) (s : State), m < 2 → o < 2 ^ 26 → (s.sys.module m).st = 3 → s.sys.inStill = false →
    ((o % 4 ≠ 0 ∨ n ≠ 4) →
      exec (.registerWrite m o ⟨w, e⟩ n) s = .next { s with sys := { s.sys with out := .crd m 1 0 1 :: s.sys.out, glob := { s.sys.glob with rejects := min 0xFFFFFFFF (s.sys.glob.rejects + 1) } } } ∧
      exec (.reg64LowRead m tag o n) s = .next { s with sys := Sys.sendCpl m (.cpl m (tag % 1024) (leBytes (max 4 n) 0)) { s.sys with out := .crd m 0 1 0 :: s.sys.out, glob := { s.sys.glob with rd := 0 } } }) ∧
    (o % 4 = 0 →
      ∃ t, exec (.reg64LowRead m tag o 4) s = .next t ∧ t.boot = s.boot ∧ t.tap = s.tap ∧ t.sys.mem = s.sys.mem ∧ t.sys.glob.rejects = s.sys.glob.rejects ∧
        t.sys.glob.rd = (({ s with sys := { s.sys with out := .crd m 0 1 0 :: s.sys.out } } : State).hostRead o 4).1)

/-- Tier 1. For each 64-bit register, by its low offset o (any o at which the register map has one; in TANDEM, those that are not forwarded): a read of
the low word returns it and latches the high word, and the next read of the high word returns what was latched, whatever the register holds then; a
write of the high word is held and changes nothing else; the write of the low word that follows commits both halves as one 64-bit write, and without a
held high word it commits the low half with the high half unchanged. For GLOBAL_LOAD_ADDR, PIPE0_FB_ADDR, PIPE1_FB_ADDR and SEC_ATT_ADDR that commit
makes the register read the 64-bit value written. Completion, that exec answers a next state with the command's own effect under conditions on the
state and the operands alone, is a conclusion here for: reg64HighWrite, reg64LowWrite. Formalises: "A write of the high word is held, and the
following write of the low word commits both halves in one cycle." (R5) -/
def Obligations.WideRegisterProtocol : Prop :=
  (∀ (o v : Nat) (s t : State), o % 4 = 0 → s.sys.wideReg o = some v → (t.sys.wideReg o).isSome = true → t.sys.wideReg (o + 4) = none →
    s.sys.wideReg (o + 4) = none → t.sys.glob.hiLatch = (s.hostRead o 4).2.sys.glob.hiLatch →
    (s.hostRead o 4).1 = v % 2 ^ 32 ∧ (t.hostRead (o + 4) 4).1 = v / 2 ^ 32 % 2 ^ 32) ∧
  (∀ (o w v : Nat) (s : State), o + 4 < 2 ^ 26 → o % 4 = 0 → (forwarded (o + 4) = false ∨ s.sys.glob.config ≠ 2) → s.sys.wideReg o = some v → s.sys.wideReg (o + 4) = none →
    exec (.reg64HighWrite o w) s =
      .next { s with sys := { s.sys with glob := { s.sys.glob with hiHeld := tset s.sys.glob.hiHeld o (w % 2 ^ 32) } } }) ∧
  (∀ (o w v h : Nat) (s : State), o < 2 ^ 26 → o % 4 = 0 → (forwarded o = false ∨ s.sys.glob.config ≠ 2) → s.sys.wideReg o = some v →
    h = (match tfind s.sys.glob.hiHeld o with | some x => x | none => v / 2 ^ 32) →
    exec (.reg64LowWrite o w) s = .next { s with sys := (Sys.wideWrite o (w % 2 ^ 32 + 2 ^ 32 * h) { s.sys with glob := { s.sys.glob with hiHeld := tdel s.sys.glob.hiHeld o } }).countOnce s.sys.glob.rejects }) ∧
  (∀ (o x : Nat) (y : Sys), o = 0x24 ∨ o = 0x400020 ∨ o = 0x410020 ∨ o = 0x9000E0 → (y.wideWrite o x).wideReg o = some x)

/-- Tier 1. A read of GLOBAL_DOMAINS returns which of the seventeen domains run (outside LULL and STILL those whose clock bring-up started) and, in bit
17, whether the TAP is outside Test-Logic-Reset, all of the one state it reads, and changes nothing; CLR_REJECTS sets COUNT to 0, or to 1 when a
rejected write falls in the same cycle, and changes nothing else. Completion, that exec answers a next state with the command's own effect under
conditions on the state and the operands alone, is a conclusion here for: clrRejects. Formalises: "When a rejected write and a write of CLR_REJECTS=1
fall in the same cycle, COUNT ends at 1." (R27) -/
def Obligations.DomainsReadAndClrRejects : Prop :=
  (∀ (s : State), s.hostRead 0x10 4 = (s.sys.domainsNow % 2 ^ 17 + (if s.tap.reset then 0 else 2 ^ 17), s) ∧
    (s.sys.girth.state = 0 → s.sys.domainsNow = s.sys.glob.domainsRun)) ∧
  (∀ (same : Bool) (s : State), exec (.clrRejects same) s =
    .next { s with sys := { s.sys with glob := { s.sys.glob with rejects := if same then 1 else 0 } } })

/-- Tier 2. In the three unmapped ranges of the window (0x0042_0000 to 0x004F_FFFF, 0x00C0_0000 to 0x00FF_FFFF, 0x0140_0000 to 0x01FF_FFFF) and from
0x0220_0000 on, a read of an aligned word returns 0 and changes nothing, and a write of one changes nothing but GLOBAL_WRITE_REJECTS.
(19_register_index) -/
def Obligations.UnlistedOffsets : Prop :=
  ∀ (e o w : Nat) (s : State), o % 4 = 0 → o < 2 ^ 26 →
    (0x420000 ≤ o ∧ o < 0x500000) ∨ (0xC00000 ≤ o ∧ o < 0x1000000) ∨ (0x1400000 ≤ o ∧ o < 0x2000000) ∨ 0x2200000 ≤ o →
    s.hostRead o 4 = (0, s) ∧
    s.hostWriteReg e o w 4 = { s with sys := { s.sys with glob := { s.sys.glob with rejects := min 0xFFFFFFFF (s.sys.glob.rejects + 1) } } }

/-- Tier 1. On a module that is UP, out of STILL, an aligned 32-bit REGISTER_WRITE completes. A whole-register RW field (BRIDLE_HOLD_LIMIT,
GIRTH_SQUALL_HOLD, GIRTH_GATE_IDLE, MEM_SR_IDLE, MEM_SCRUB, HARNESS_DIGEST_WAIT, HOSTLINK_CPL_TIMEOUT, RASTER_GROW_WAIT) then reads the value written,
cut to its width, and nothing is counted; a register of RO fields (GLOBAL_ID, GLOBAL_UNITS, GLOBAL_DOMAINS, GLOBAL_BOOT_STATUS, VISION_STATUS,
HARNESS_STATUS) is unchanged and nothing is counted; a register of RWP fields (GIRTH_POOL, GIRTH_COMP, BEAM_CFG, BEAM_GHOST, MEM_CFG) is unchanged and
GLOBAL_WRITE_REJECTS counts one. A bit of a sticky RW1C register (BRIDLE_EVENT, CONS_EVENT, MEM_EVENT and, outside TANDEM, whose worker rejects it,
KV_EVENT) is then 1 exactly when its event falls in the cycle of the write, or when it was 1 and was not acknowledged. Memory, bring-up and the TAP
are unchanged. Completion, that exec answers a next state with the command's own effect under conditions on the state and the operands alone, is a
conclusion here for: registerWrite. (00_scope, 19_register_index, 01_organisation) -/
def Obligations.RegisterFieldTypes : Prop :=
  ∀ (m w e : Nat) (s : State), m < 2 → (s.sys.module m).st = 3 → s.sys.inStill = false →
    (∀ p ∈ [(0x100004, 16), (0x200030, 16), (0x200038, 16), (0x500020, 16), (0x500024, 8), (0x800010, 16), (0xB00014, 16), (0x60001C, 16)],
      ∃ t, exec (.registerWrite m p.1 ⟨w, e⟩ 4) s = .next t ∧ (t.hostRead p.1 4).1 = w % 2 ^ p.2 ∧ t.sys.glob = s.sys.glob ∧ t.boot = s.boot ∧ t.tap = s.tap ∧
        t.sys.mem.dram = s.sys.mem.dram ∧ t.sys.mem.host = s.sys.mem.host ∧ t.sys.out = .crd m 1 0 1 :: s.sys.out) ∧
    (∀ p ∈ [(0x10000C, 3), (0x10081C, 8), (0x500028, 5), (0x100C24, 4)], p.1 ≠ 0x100C24 ∨ s.sys.glob.config ≠ 2 →
      ∃ t, exec (.registerWrite m p.1 ⟨w, e⟩ 4) s = .next t ∧ t.sys.glob = s.sys.glob ∧ t.boot = s.boot ∧ t.tap = s.tap ∧
        ∀ i, i < p.2 → bitAt (t.hostRead p.1 4).1 i = (bitAt e i || (bitAt (s.hostRead p.1 4).1 i && !bitAt w i))) ∧
    (∀ o ∈ [0x0, 0x4, 0x10, 0x20, 0x700000, 0x800000],
      exec (.registerWrite m o ⟨w, e⟩ 4) s = .next { s with sys := { s.sys with out := .crd m 1 0 1 :: s.sys.out } }) ∧
    (∀ o ∈ [0x200008, 0x20000C, 0x30000C, 0x300010, 0x300014, 0x500000],
      exec (.registerWrite m o ⟨w, e⟩ 4) s = .next { s with sys := { s.sys with out := .crd m 1 0 1 :: s.sys.out, glob := { s.sys.glob with rejects := min 0xFFFFFFFF (s.sys.glob.rejects + 1) } } })

/-- Tier 1. A host write of BRIDLE_CTX_MIXc, a forwarded register, sets MIX_EN and PREFILL_MAX; on a TANDEM manager of a formed Duo the write also leaves
as MIRROR on the Harness, on a worker that serves a manager the host's own write is rejected and counted, and MIRROR makes the worker apply it.
Completion, that exec answers a next state with the command's own effect under conditions on the state and the operands alone, is a conclusion here
for: mirror. (17_duo_and_fault_handling) -/
def Obligations.ForwardedWrites : Prop :=
  ∀ (c w h : Nat) (s : State), c < 64 → w < 2 ^ 32 →
    (∃ t, t = { s with sys := { s.sys with bridle := { s.sys.bridle with ctxs := tmod {} s.sys.bridle.ctxs c fun k => { k with mixEn := bitAt w 0, prefillMax := fld w 1 3 } } } } ∧
      (s.sys.glob.config = 0 → s.hostWriteReg h (0x100400 + 4 * c) w 4 = t) ∧
      (s.sys.glob.config = 2 → s.sys.duo.role = 2 → s.sys.duo.alone = false → s.sys.duo.st = 3 →
        s.hostWriteReg h (0x100400 + 4 * c) w 4 = { t with sys := t.sys.hpost (.harness "MIRROR" [0x100400 + 4 * c, w] []) }) ∧
      (s.sys.glob.config = 2 → s.sys.duo.role = 1 → s.sys.duo.st = 3 → exec (.mirror (0x100400 + 4 * c) w []) s = .next t)) ∧
    (s.sys.glob.config = 2 → s.sys.duo.role = 1 → s.sys.duo.alone = false → ∀ o, forwarded o = true → o % 4 = 0 →
      s.hostWriteReg h o w 4 = { s with sys := { s.sys with glob := { s.sys.glob with rejects := min 0xFFFFFFFF (s.sys.glob.rejects + 1) } } })

/-- Tier 1. PWRGOOD_RISE without power samples the straps and enters RECORD with the CTRL, SEC, PWR and AON domains running, or HALTED with 0x31 when a
PLL fails. RECORD_READ_DONE in RECORD takes the first 32 KiB of what the NOR gave, or halts with 0x01. PUF_IDENTITY_DONE derives the identity key from
the 32-byte secret, or halts with 0x05. RECORD_VERIFY_DONE, once both are done, takes the root key of an accepted key block, and then halts with the
first failing check's code, or accepts the record: LINK, with PART, STEP and STALL_EN from it. LINK_TRAIN_DONE in LINK enters WAIT_FIRMWARE and sends
the device's INIT, or halts with 0x31 or 0x32. HOST_INIT on a module in INIT makes it UP with the host's credits as its pools, or, on module 0 with
too few credits, halts with 0x32. Completion, that exec answers a next state with the command's own effect under conditions on the state and the
operands alone, is a conclusion here for: pwrgoodRise, recordReadDone, pufIdentityDone, recordVerifyDone, linkTrainDone, hostInit.
(02_pattern_and_bringup, 14_host_link, 18_determinism_and_security) -/
def Obligations.BringUpSteps : Prop :=
  (∀ (i d : Bool) (s : State), s.boot.power = false →
    exec (.pwrgoodRise i d true) s = .next { s with boot := { s.boot with power := true, safe := false, duoId := i, duoMode := d, phase := .record }, sys := { s.sys with glob := { s.sys.glob with duoId := i, domainsRun := setBit (setBit (setBit s.sys.glob.domainsRun 2) 15) 16 } } } ∧
    exec (.pwrgoodRise i d false) s = .next { s with boot := { s.boot with power := true, safe := false, duoId := i, duoMode := d, phase := .halted, error := 0x31 }, sys := { s.sys with glob := { s.sys.glob with duoId := i } } }) ∧
  (∀ (rec : List Byte) (s : State), s.boot.phase = .record → s.boot.recordRead = false →
    exec (.recordReadDone true rec) s = .next { s with boot := { s.boot with record := rec.take 32768, recordRead := true } } ∧
    exec (.recordReadDone false rec) s = .next { s with boot := { s.boot with phase := .halted, error := 0x01 } }) ∧
  (∀ (sec : List Byte) (s : State), s.boot.phase = .record → s.boot.pufDone = false → sec.length = 32 →
    (∃ t, exec (.pufIdentityDone true sec) s = .next t ∧ t.boot.pufDone = true ∧ t.boot.phase = .record ∧ t.tap = s.tap ∧
      t.boot.secret = Shake.shake256 48 ([0x41, 0x43, 0x42, 0x58, 0x2D, 0x49, 0x44, 0x2D, 0x31] ++ sec) ∧
      t.sys = { s.sys with sec := { s.sys.sec with idOk := true, idPk := padTo 32 (Config.slhPublicKey t.boot.secret) } } ∧
      t.boot.idDigest = Shake.shake256 32 t.sys.sec.idPk) ∧
    exec (.pufIdentityDone false sec) s = .next { s with boot := { s.boot with phase := .halted, error := 0x05 } }) ∧
  (∀ (block : List Byte) (s : State), s.boot.phase = .record → s.boot.recordRead = true → s.boot.pufDone = true →
    ∃ t, exec (.recordVerifyDone block) s = .next t ∧ t.tap = s.tap ∧ t.boot.rootKey = (rootKeyOf block).getD s.boot.rootKey ∧
      ∀ code, code = recordError (rootKeyOf block).isSome t.boot.rootKey s.boot.record s.boot.idDigest →
        (code ≠ 0 → t.boot.phase = .halted ∧ t.boot.error = code ∧ t.boot.recordOk = s.boot.recordOk ∧ t.sys.glob = s.sys.glob) ∧
        (code = 0 → t.boot.phase = .link ∧ t.boot.recordOk = true ∧ ∃ p, recordParts s.boot.record = some p ∧
          t.sys.glob = { s.sys.glob with part := wordAt p.1 3 % 2 ^ 16, step := fld (wordAt p.1 3) 16 8, stallEn := recordStalls (wordsOf p.1) })) ∧
  (∀ (s : State), s.boot.phase = .link →
    (exec (.linkTrainDone true true) s = .next { s with boot := { s.boot with linked := true, phase := .waitFirmware }, sys := { s.sys with glob := { s.sys.glob with domainsRun := setBit s.sys.glob.domainsRun 3 }, link := { s.sys.link with m0 := { s.sys.link.m0 with st := 2 } }, out := .init 0 128 128 2048 :: s.sys.out } }) ∧
    exec (.linkTrainDone false true) s = .next { s with boot := { s.boot with phase := .halted, error := 0x32 } } ∧
    ∀ ok, exec (.linkTrainDone ok false) s = .next { s with boot := { s.boot with phase := .halted, error := 0x31 } }) ∧
  (∀ (ph nph pd : Nat) (s : State), s.sys.link.m0.st = 2 → ph < 2 ^ 10 → nph < 2 ^ 10 → pd < 2 ^ 20 →
    (32 ≤ ph ∧ 32 ≤ nph ∧ 512 ≤ pd → ∃ t, exec (.hostInit 0 ph nph pd) s = .next t ∧ t.boot = s.boot ∧ t.tap = s.tap ∧
      t.sys.link = { s.sys.link with m0 := { s.sys.link.m0 with st := 3, ph := ph, nph := nph, pd := pd, ledger := [0, 0, 0, 0] } } ∧
      t.sys.pool 1 0 = { total := ph, free := ph, held := 0 } ∧ t.sys.pool 1 1 = { total := pd, free := pd, held := 0 } ∧
      t.sys.pool 1 2 = { total := nph, free := nph, held := 0 } ∧ t.sys.pool 1 3 = { total := 16384, free := 16384, held := 0 }) ∧
    (¬ (32 ≤ ph ∧ 32 ≤ nph ∧ 512 ≤ pd) →
      exec (.hostInit 0 ph nph pd) s = .next { s with boot := { s.boot with linked := false, phase := .halted, error := 0x32 } }))

/-- Tier 1. LOAD_FW in WAIT_FIRMWARE and LOAD_PATTERN in WAIT_PATTERN stage the image (empty when GLOBAL_LOAD_ADDR is not 64-byte aligned, which the
checks then refuse) and enter FIRMWARE and PATTERN; outside their phase they change nothing but GLOBAL_WRITE_REJECTS. The firmware check ends in
WAIT_FIRMWARE with its error code, or in WAIT_PATTERN with the image's version. The Pattern check ends in WAIT_PATTERN with the code of the first
failing check and no other effect, or in APPLY with ERROR 0, the digest of the Pattern without its signature, its CONFIG and its queue ranges.
Completion, that exec answers a next state with the command's own effect under conditions on the state and the operands alone, is a conclusion here
for: loadFw, loadPattern, firmwareVerifyDone, patternCheckDone. (02_pattern_and_bringup, 18_determinism_and_security) -/
def Obligations.BringUpLoads : Prop :=
  (∀ (img : List Byte) (s : State), s.boot.phase = .waitFirmware → exec (.loadFw img) s =
    .next { s with boot := { s.boot with phase := .firmware, image := if s.sys.glob.loadAddr % 64 = 0 then img.take (2 ^ 20) else [] } }) ∧
  (∀ (img : List Byte) (s : State), s.boot.phase = .waitPattern → exec (.loadPattern img) s =
    .next { s with boot := { s.boot with phase := .pattern, image := if s.sys.glob.loadAddr % 64 = 0 then img.take (2 ^ 20) else [] } }) ∧
  (∀ (img : List Byte) (s : State), (s.boot.phase ≠ .waitFirmware → exec (.loadFw img) s = .next s.rejected) ∧
    (s.boot.phase ≠ .waitPattern → exec (.loadPattern img) s = .next s.rejected) ∧
    s.rejected = { s with sys := { s.sys with glob := { s.sys.glob with rejects := min 0xFFFFFFFF (s.sys.glob.rejects + 1) } } }) ∧
  (∀ (s : State), s.boot.phase = .firmware → ∃ t, exec .firmwareVerifyDone s = .next t ∧ t.tap = s.tap ∧
    (∀ e, firmwareCheck s.boot.rootKey s.sys.glob.part s.sys.glob.step s.boot.image = .error e →
      t = { s with boot := { s.boot with phase := .waitFirmware, error := e, image := [] } }) ∧
    (∀ v, firmwareCheck s.boot.rootKey s.sys.glob.part s.sys.glob.step s.boot.image = .ok v →
      t = { s with boot := { s.boot with phase := .waitPattern, error := 0, image := [] }, sys := { s.sys with sec := { s.sys.sec with fwVersion := v } } })) ∧
  (∀ (s : State), s.boot.phase = .pattern → ∃ t, exec .patternCheckDone s = .next t ∧ t.tap = s.tap ∧
    ∀ e, e = patternError s.boot.rootKey s.sys.glob.part s.sys.glob.step s.sys.glob.stallEn s.boot.duoMode s.boot.image →
      (e ≠ 0 → t = { s with boot := { s.boot with phase := .waitPattern, error := e, image := [] } }) ∧
      (e = 0 → t.boot.phase = .apply ∧ t.boot.error = 0 ∧ ∃ p, patParts s.boot.image = some p ∧
        t.sys.glob.patternDigest = Shake.shake256 32 p.1 ∧ t.sys.glob.config = fld ((section_ p.1 9).getD 0 0) 0 2 ∧
        t.sys.bridle.ranges = queueRanges (section_ p.1 3)))

/-- Tier 1. APPLY_PLL_LOCK_DONE in APPLY starts the domains of CLOCKS.START (but domain 4 in SOLO, which waits for module 1), sets ARITH to BOOT_OP and
lets the PINS act, or halts with 0x31. STALL_INIT_DONE after it ungates every enabled stall of a domain with a cleared pool and epoch 1, empties the
loft cache and, when MEM_TRAIN_DONE came before it, enters READY, else stays in APPLY. MEM_TRAIN_DONE sets the trained mapped channels ACTIVE, keeps
the memory's contents only after a RELOAD with unchanged settings, and enters READY or stays; with a mapped channel that fails, or whose device
reports no density the memory map has, it halts with 0x30. Completion, that exec answers a next state with the command's own effect under conditions
on the state and the operands alone, is a conclusion here for: applyPllLockDone, stallInitDone, memTrainDone. (02_pattern_and_bringup, 15_memory,
20_pins_and_electrical) -/
def Obligations.ApplySteps : Prop :=
  (∀ (s : State), s.boot.phase = .apply → s.boot.pllDone = false →
    (∃ t, exec (.applyPllLockDone true) s = .next t ∧ t.boot = { s.boot with pinsOn := true, pllDone := true } ∧ t.tap = s.tap ∧
      t.sys.glob = { s.sys.glob with domainsRun := ((maskList 17 (s.boot.clockWords.getD 2 0)).filter fun n => n != 4 || s.sys.glob.config != 0).foldl setBit s.sys.glob.domainsRun } ∧
      t.sys.girth.op = s.sys.girth.bootOp ∧ t.sys.girth.mv = opMv.getD s.sys.girth.bootOp 620 ∧ t.sys.mem = s.sys.mem) ∧
    exec (.applyPllLockDone false) s = .next { s with boot := { s.boot with phase := .halted, error := 0x31 } }) ∧
  (∀ (s : State), s.boot.phase = .apply → s.boot.pllDone = true → s.boot.stallsDone = false →
    ∃ t, exec .stallInitDone s = .next t ∧ t.boot.stallsDone = true ∧ t.tap = s.tap ∧ (s.boot.memDone = true → t.boot.phase = .ready) ∧
      (s.boot.memDone = false → t.boot.phase = .apply ∧ t.sys.cores = [] ∧ t.sys.mem = { s.sys.mem with loft := [] } ∧
        (∀ k, k < 64 → s.sys.enabled k = true → s.sys.domOfStall k ≠ none →
          (t.sys.stall k).gated = false ∧ (t.sys.stall k).epoch = 1 ∧ (t.sys.stall k).pool = {}) ∧
        ∀ k, s.sys.enabled k = false → t.sys.stall k = s.sys.stall k)) ∧
  (∀ (failed d0 : Nat) (den : List Nat) (s : State), s.boot.phase = .apply → s.boot.pllDone = true → s.boot.memDone = false →
    ∀ (mapped : Nat) (d : Nat → Nat), mapped = s.sys.mem.domChans.foldl Nat.lor 0 →
      (∀ c, d c = if s.boot.keepMem then (tget {} s.sys.mem.chans c).density else den.getD c 3) →
    ((∃ c, c < 16 ∧ bitAt mapped c = true) → d0 ≤ 2 → (∀ c, c < 16 → bitAt mapped c = true → bitAt failed c = false ∧ d c = d0) →
      ∃ t, exec (.memTrainDone failed den) s = .next t ∧ t.boot.memDone = true ∧ t.tap = s.tap ∧
        (s.boot.stallsDone = true → t.boot.phase = .ready) ∧
        (s.boot.stallsDone = false → t.boot.phase = .apply ∧ t.sys.mem.density = d0 ∧
          t.sys.mem.dram = (if s.boot.keepMem then s.sys.mem.dram else []) ∧
          ∀ c, c < 16 → (tget {} t.sys.mem.chans c).st = (if bitAt failed c then 4 else if bitAt mapped c then 2 else 3))) ∧
    ((∃ c, c < 16 ∧ bitAt mapped c = true ∧ (bitAt failed c = true ∨ 2 < d c)) →
      ∃ t, exec (.memTrainDone failed den) s = .next t ∧ t.boot.phase = .halted ∧ t.boot.error = 0x30 ∧ t.tap = s.tap))

/-- Tier 1. AMEND in READY with no amendment in progress stages the image, sets STATE BUSY and REASON 0 and holds the domains that the amendment as
written affects, be it accepted or rejected in the end (none when the image has no amendment's form), noting whether they are idle now; outside READY
it changes nothing but GLOBAL_WRITE_REJECTS, and so it does while an amendment is BUSY (log entry 66: the model's choice). AMENDMENT_END of one that
is BUSY: an image whose checks fail, or whose affected domains were not idle at the start of the hold, ends with STATE REJECTED, its REASON and the
hold over, and nothing else of the amendment takes effect (requests that the hold kept waiting go on); an image that passes and changes PERMITS waits
while the operating point is stepping, and is rejected with REASON 6 when more permits than the new POOL are held; any other image that passes takes
effect whole and ends the hold. Completion, that exec answers a next state with the command's own effect under conditions on the state and the
operands alone, is a conclusion here for: amend, amendmentEnd. (02_pattern_and_bringup, 16_girth_power) -/
def Obligations.Amendments : Prop :=
  (∀ (img : List Byte) (s : State),
    (s.boot.phase = .ready → s.sys.glob.amendState ≠ 1 → ∀ (image : List Byte) (ds : List Nat),
      image = (if s.sys.glob.loadAddr % 64 = 0 then img.take (2 ^ 20) else []) →
      ds = (match patParts image with | some p => affected s.loaded (s.loaded.amended p.1) | none => []) →
      exec (.amend img) s = .next { s with boot := { s.boot with image := image, amendIdle := ds.all s.sys.domIdle, amendDoms := maskOf ds }, sys := { s.sys with glob := { s.sys.glob with amendState := 1, amendReason := 0, heldDomains := maskOf ds } } }) ∧
    (s.boot.phase ≠ .ready ∨ s.sys.glob.amendState = 1 → exec (.amend img) s =
      .next { s with sys := { s.sys with glob := { s.sys.glob with rejects := min 0xFFFFFFFF (s.sys.glob.rejects + 1) } } })) ∧
  (∀ (s : State) (e : Nat), s.sys.glob.amendState = 1 → e = amendError s.boot.rootKey s.loaded s.boot.image → ∀ (rejected : Nat → State),
    (∀ r, rejected r = { s with boot := { s.boot with image := [], amendDoms := 0, amendIdle := true }, sys := Sys.grantAll s.sys.girth.reqs.length { s.sys with glob := { s.sys.glob with amendState := 3, amendReason := r, heldDomains := 0 } } }) →
    (patParts s.boot.image = none → exec .amendmentEnd s = .next (rejected 4)) ∧
    (∀ p new pool, patParts s.boot.image = some p → new = s.loaded.amended p.1 → pool = fld (new.permits.getD 0 0) 0 18 →
      (e ≠ 0 → exec .amendmentEnd s = .next (rejected e)) ∧
      (e = 0 → s.boot.amendIdle = false → exec .amendmentEnd s = .next (rejected 3)) ∧
      (e = 0 → s.boot.amendIdle = true → secLen p.1 4 ≠ 0 → s.sys.girth.step ≠ .idle → s.sys.girth.step ≠ .forced → exec .amendmentEnd s = .next s) ∧
      (e = 0 → s.boot.amendIdle = true → secLen p.1 4 ≠ 0 → s.sys.girth.step = .idle ∨ s.sys.girth.step = .forced →
        pool < (s.sys.pool 0 0).held - s.sys.girth.withheld → exec .amendmentEnd s = .next (rejected 6)) ∧
      (e = 0 → s.boot.amendIdle = true → secLen p.1 4 = 0 ∨ ((s.sys.girth.step = .idle ∨ s.sys.girth.step = .forced) ∧
          (s.sys.pool 0 0).held - s.sys.girth.withheld ≤ pool) →
        ∃ t, exec .amendmentEnd s = .next t ∧ t = (s.amended p.1).amendEnd 0 ∧ t.tap = s.tap ∧ t.pending = s.pending ∧
          t.boot = { s.boot with image := [], amendDoms := 0, amendIdle := true, queueWords := new.queues, permitWords := new.permits, beamWords := new.beam }))) ∧
  (∀ (s : State), (s.amendEnd 0).sys = Sys.grantAll s.sys.girth.reqs.length { s.sys with glob := { s.sys.glob with amendState := 2, amendReason := 0, heldDomains := 0 } })

/-- Tier 1. POWER_ON (a fall of PWRGOOD, a supply fault) puts bring-up and the TAP at their reset values and clears every block; what host memory holds
and what was sent remain. WARM (GLOBAL_RESET, or the bump) with power sets its cause bit and, after step 6, resumes at WAIT_FIRMWARE with ERROR 0;
before step 6 it restarts at step 2 with the straps as sampled, in RECORD, or HALTED with 0x31 when a PLL of step 2 fails. It keeps the record's
bytes, the straps, the identity key, GLOBAL_WRITE_REJECTS, STALL_EN, host memory, the ghost beam's settings and the TAP; it clears contexts, queues,
jobs, task groups, cores, Beam, frame generation, raster, vision, the pipes and device memory. Before step 6, while bring-up stands HALTED with no
accepted record, GLOBAL_RESET.WARM changes nothing (R455). RELOAD from step 8 on resumes at WAIT_PATTERN with its cause bit, clears contexts, queues,
jobs, task groups and cores, keeps GLOBAL_WRITE_REJECTS and puts the pipes in Calm for the load; before step 8 it changes nothing but
GLOBAL_WRITE_REJECTS. AUTO_RELOAD_EXPIRE in die Calm with AUTO_RELOAD=1 is a RELOAD with its own cause bit. Completion, that exec answers a next state
with the command's own effect under conditions on the state and the operands alone, is a conclusion here for: pwrgoodFall, supplyFault,
globalResetWarm, resetPinLow, globalResetReload, autoReloadExpire. (02_pattern_and_bringup, 20_pins_and_electrical, 17_duo_and_fault_handling) -/
def Obligations.ResetKinds : Prop :=
  (∀ (s t : State), t = { boot := {}, tap := {}, pending := s.pending, sys := { mem := { host := s.sys.mem.host }, out := s.sys.out, flits := s.sys.flits, chance := s.sys.chance } } →
    exec .pwrgoodFall s = .next t ∧ exec .supplyFault s = .next t) ∧
  (∀ (s t : State) (k : Nat), s.boot.power = true → (∃ pin pll, t = s.warm k pin pll) →
    t.boot.cause = setBit s.boot.cause k ∧ t.boot.record = s.boot.record ∧ t.boot.duoId = s.boot.duoId ∧ t.boot.duoMode = s.boot.duoMode ∧
    t.boot.idDigest = s.boot.idDigest ∧ t.tap = s.tap ∧ t.pending = s.pending ∧ t.sys.glob.rejects = s.sys.glob.rejects ∧ t.sys.glob.ready = false ∧
    t.sys.glob.stallEn = s.sys.glob.stallEn ∧ t.sys.mem.dram = [] ∧ t.sys.mem.loft = [] ∧ t.sys.mem.host = s.sys.mem.host ∧ t.sys.bridle = {} ∧
    t.sys.work = {} ∧ t.sys.cores = [] ∧ t.sys.beam = { ghostTick := s.sys.beam.ghostTick, ghostVtotal := s.sys.beam.ghostVtotal, ghostVactive := s.sys.beam.ghostVactive } ∧ t.sys.fg = {} ∧ t.sys.raster = {} ∧ t.sys.vision = {} ∧ t.sys.kv = {} ∧ t.sys.duo = {} ∧
    t.sys.pipe0 = { hpd := s.sys.pipe0.hpd } ∧ t.sys.pipe1 = { hpd := s.sys.pipe1.hpd }) ∧
  (∀ (s : State), s.boot.power = true →
    (s.boot.linked = true →
      (s.boot.phase ≠ .halted ∨ s.boot.recordOk = true → ∃ t, exec .globalResetWarm s = .next t ∧ t = s.warm 1 false true ∧ t.boot.phase = .waitFirmware ∧ t.boot.error = 0) ∧
      ∀ pll, ∃ t, exec (.resetPinLow pll) s = .next t ∧ t = s.warm 2 true pll ∧ t.boot.phase = .waitFirmware ∧ t.boot.error = 0) ∧
    (s.boot.linked = false →
      (s.boot.phase ≠ .halted ∨ s.boot.recordOk = true → ∃ t, exec .globalResetWarm s = .next t ∧ t = s.warm 1 false true ∧ t.boot.phase = .record ∧
        t.boot.error = 0 ∧ t.boot.recordRead = false ∧ t.boot.recordOk = false) ∧
      (s.boot.phase = .halted → s.boot.recordOk = false → exec .globalResetWarm s = .next s) ∧
      (∃ t, exec (.resetPinLow true) s = .next t ∧ t = s.warm 2 true true ∧ t.boot.phase = .record ∧ t.boot.error = 0 ∧ t.boot.recordRead = false) ∧
      (∃ t, exec (.resetPinLow false) s = .next t ∧ t = s.warm 2 true false ∧ t.boot.phase = .halted ∧ t.boot.error = 0x31))) ∧
  (∀ (s : State) (on : Prop), (on ↔ s.boot.phase = .waitPattern ∨ s.boot.phase = .pattern ∨ s.boot.phase = .apply ∨ s.boot.phase = .ready) →
    (on → ∀ k t, t = s.reload k → t.boot.phase = .waitPattern ∧ t.boot.error = 0 ∧ t.boot.cause = setBit s.boot.cause k ∧
      t.boot.record = s.boot.record ∧ t.tap = s.tap ∧ t.pending = s.pending ∧ t.sys.glob.rejects = s.sys.glob.rejects ∧ t.sys.bridle = {} ∧
      t.sys.work = {} ∧ t.sys.cores = [] ∧ t.sys.mem.loft = [] ∧ bitAt t.sys.pipe0.cause 4 = true ∧ bitAt t.sys.pipe1.cause 4 = true) ∧
    (on → exec .globalResetReload s = .next (s.reload 3) ∧
      (s.sys.flt.dieCalm = true → s.sys.flt.autoReload = true → exec .autoReloadExpire s = .next (s.reload 4))) ∧
    (¬ on → exec .globalResetReload s = .next { s with sys := { s.sys with glob := { s.sys.glob with rejects := min 0xFFFFFFFF (s.sys.glob.rejects + 1) } } }))

/-- Tier 1. TRST_N low or five TCK with TMS high puts the TAP alone in Test-Logic-Reset, where it selects IDCODE and drives nothing; with power and TRST_N
high it leaves it. Outside it BYPASS puts one 0 before the bits that arrive; IDCODE shifts out 32 bits with bit 0 set, 0xAC as the manufacturer and
PART as the part number; SAMPLE/PRELOAD and EXTEST shift out the levels of the 29 CTRL_IO signals as they preload the cells, and only EXTEST drives
them. Nothing but the TAP and what leaves on TDO changes. Completion, that exec answers a next state with the command's own effect under conditions on
the state and the operands alone, is a conclusion here for: tapReset, tapExitTestLogicReset, jtagBypass, jtagIdcode, jtagSamplePreload, jtagExtest.
(20_pins_and_electrical) -/
def Obligations.TapRows : Prop :=
  (∀ (s : State), exec .tapReset s = .next { s with tap := { reset := true, ir := 3, cells := 0, driving := false } }) ∧
  (∀ (s : State), s.boot.power = true → exec (.tapExitTestLogicReset true) s = .next { s with tap := { s.tap with reset := false } }) ∧
  (∀ (s : State), exec (.tapExitTestLogicReset false) s = .next s) ∧
  (∀ (tdi : List Bool) (s : State), s.boot.power = true → s.tap.reset = false → exec (.jtagBypass tdi) s =
    .next { s with tap := { s.tap with ir := 0, driving := false }, sys := { s.sys with out := .tdo ((false :: tdi).take tdi.length) :: s.sys.out } }) ∧
  (∀ (s : State), s.boot.power = true → s.tap.reset = false → ∃ bits : List Bool, exec .jtagIdcode s =
    .next { s with tap := { s.tap with ir := 3, driving := false }, sys := { s.sys with out := .tdo bits :: s.sys.out } } ∧ bits.length = 32 ∧
      bits.getD 0 false = true ∧ (∀ k, k < 11 → bits.getD (1 + k) false = bitAt 0xAC k) ∧
      ∀ k, k < 16 → bits.getD (12 + k) false = bitAt s.sys.glob.part k) ∧
  (∀ (lev : Nat) (tdi : List Bool) (s : State), s.boot.power = true → s.tap.reset = false → tdi.length = 29 →
    ∀ p ∈ [(Instr.jtagSamplePreload lev tdi, 1, false), (Instr.jtagExtest lev tdi, 2, true)], ∃ t, exec p.1 s = .next t ∧ t.boot = s.boot ∧
      t.sys = { s.sys with out := .tdo ((List.range 29).map (bitAt lev)) :: s.sys.out } ∧ t.tap.ir = p.2.1 ∧ t.tap.driving = p.2.2 ∧ t.tap.reset = false ∧
      ∀ i, i < 29 → bitAt t.tap.cells i = tdi.getD i false)

/-- Tier 1. BEAM_TICK, while the unit runs on a pipe whose timing runs and the die does not follow a manager, advances the beam; GHOST_TICK with power
lets reference cycles pass until the ghost accumulator, which gains 256 on each, has reached GHOST_TICK, subtracts it, and advances a beam that is on
the ghost. In SOLO an advance moves to the next tick of the line (whose entries act unless the line is repeated), from tick 15 of a line without a
HOLD to tick 0 of the next line, and from the last line's tick 15 to a new frame, and when a ghost frame of VTOTAL lines is over already to a new
frame; a frame start counts the frame, moves the phase on unless a slip is pending, clears the slip and returns the table pointer to entry 0.
Completion, that exec answers a next state with the command's own effect under conditions on the state and the operands alone, is a conclusion here
for: beamTick, ghostTick. (03_beam_time) -/
def Obligations.BeamTicks : Prop :=
  (∀ (s : State), s.sys.beam.on = true → s.sys.beam.source < 2 → (s.sys.pipe s.sys.beam.source).runs = true → s.sys.beamFollows = false →
    exec .beamTick s = .next { s with sys := s.sys.beamAdvance }) ∧
  (∀ (k : Nat) (s : State), s.boot.power = true → s.sys.beam.on = true → s.sys.beam.source = 2 → s.sys.beamFollows = false →
    s.sys.beam.acc < s.sys.beam.ghostTick → 256 * k + s.sys.beam.acc < s.sys.beam.ghostTick → s.sys.beam.ghostTick ≤ 256 * (k + 1) + s.sys.beam.acc →
    ∃ y, y = s.sys.refCycles (k + 1) ∧ y.beam = s.sys.beam ∧ y.glob.refCycles = s.sys.glob.refCycles + (k + 1) ∧
      exec .ghostTick s = .next { s with sys := Sys.beamAdvance { y with beam := { s.sys.beam with acc := 256 * (k + 1) + s.sys.beam.acc - s.sys.beam.ghostTick } } }) ∧
  (∀ (y : Sys), y.glob.config = 0 → (y.beam.source < 2 ∨ y.beam.line < y.beam.ghostVtotal) → y.beam.tick < 15 → ∀ z,
    z = { y with fg := { y.fg with ticks := y.fg.ticks + 1 }, beam := { y.beam with tick := y.beam.tick + 1 } } →
    y.beamAdvance = if y.beam.heldNow then z else z.atPosition) ∧
  (∀ (y : Sys), y.glob.config = 0 → (y.beam.source < 2 ∨ y.beam.line < y.beam.ghostVtotal) → y.beam.tick = 15 → y.holdHere = none →
    y.beamAdvance = (if y.vtot ≤ y.beam.line + 1 then Sys.beamFrame { y with fg := { y.fg with ticks := y.fg.ticks + 1 } }
      else Sys.atPosition { y with fg := { y.fg with ticks := y.fg.ticks + 1 }, beam := { y.beam with line := y.beam.line + 1, tick := 0 } })) ∧
  (∀ (y : Sys), y.glob.config = 0 → y.beam.source = 2 → y.beam.ghostVtotal ≤ y.beam.line →
    y.beamAdvance = Sys.beamFrame { y with fg := { y.fg with ticks := y.fg.ticks + 1 } }) ∧
  (∀ (y : Sys), y.nextFrame.beam = { y.beam with frame := (y.beam.frame + 1) % 2 ^ 32, line := 0, tick := 0, heldNow := false, held := 0, next := 0, slip := false, phase := if y.beam.slip then y.beam.phase else (y.beam.phase + 1) % max 1 y.beam.period })

/-- Tier 1. In SOLO, at tick 15 of a line whose HOLD entry acts in this frame: with a pipe as master whose adaptive sync is off the beam goes on with the
gates untouched; else with the gate open the gate closes and the beam goes on; else with held at HOLD_MAX HOLD_TIMEOUTS counts, the event is set and
the beam goes on; else held counts one and the line is repeated from tick 0 with HELD shown. When the beam goes on LAST takes the count and held is 0
again. Running the table at the beam's position: an entry that lies ahead stops it; an entry excluded by its PHASE_MASK only moves the pointer on; an
entry passed without having been reached counts in BEAM_SKIPS; at its own position a NOP does nothing, a MARK latches entry number, phase, line, tick
and frame and raises its vector, and a FIRE rings its queue with its argument, unless its context is held back by an amendment, when it counts in
BEAM_SKIPS and as a miss; a fire that releases nothing counts in BEAM_MISSES with its event. (03_beam_time) -/
def Obligations.BeamHoldsAndTable : Prop :=
  (∀ (y y1 : Sys) (e : BEntry), y.glob.config = 0 → (y.beam.source < 2 ∨ y.beam.line < y.beam.ghostVtotal) → y.beam.tick = 15 → y.holdHere = some e →
    y1 = { y with fg := { y.fg with ticks := y.fg.ticks + 1 } } →
    (y.beam.master < 2 ∧ (y.pipe y.beam.master).vrr = false →
      y.beamAdvance = Sys.nextLine { y1 with beam := { y.beam with last := y.beam.held, held := 0, heldNow := false } }) ∧
    (¬ (y.beam.master < 2 ∧ (y.pipe y.beam.master).vrr = false) →
      (bitAt y.beam.gates (fld e.w1 0 4) = true → y.beamAdvance = Sys.nextLine { y1 with beam := { y.beam with gates := clrBit y.beam.gates (fld e.w1 0 4), last := y.beam.held, held := 0, heldNow := false } }) ∧
      (bitAt y.beam.gates (fld e.w1 0 4) = false → fld e.w1 4 13 ≤ y.beam.held →
        ∃ z, z = Sys.beamEvent 1 { y1 with beam := { y.beam with holdTimeouts := min 0xFFFFFFFF (y.beam.holdTimeouts + 1) } } ∧
          y.beamAdvance = Sys.nextLine { z with beam := { z.beam with last := y.beam.held, held := 0, heldNow := false } }) ∧
      (bitAt y.beam.gates (fld e.w1 0 4) = false → y.beam.held < fld e.w1 4 13 →
        y.beamAdvance = { y1 with beam := { y.beam with held := y.beam.held + 1, heldNow := true, tick := 0 } }))) ∧
  (∀ (n : Nat) (y : Sys) (e : BEntry), y.beam.table[y.beam.next]? = some e → ∀ y1, y1 = { y with beam := { y.beam with next := y.beam.next + 1 } } →
    (y.beam.line < e.line ∨ (y.beam.line = e.line ∧ y.beam.tick < e.tick) → Sys.runTable (n + 1) y = y) ∧
    (e.line < y.beam.line ∨ (e.line = y.beam.line ∧ e.tick ≤ y.beam.tick) → bitAt e.phases y.beam.phase = false → Sys.runTable (n + 1) y = Sys.runTable n y1) ∧
    (e.line < y.beam.line ∨ (e.line = y.beam.line ∧ e.tick < y.beam.tick) → bitAt e.phases y.beam.phase = true →
      Sys.runTable (n + 1) y = Sys.runTable n { y1 with beam := { y1.beam with skips := min 0xFFFFFFFF (y.beam.skips + 1) } }) ∧
    (e.line = y.beam.line → e.tick = y.beam.tick → bitAt e.phases y.beam.phase = true →
      (e.kind = 0 → Sys.runTable (n + 1) y = Sys.runTable n y1) ∧
      (e.kind = 3 → Sys.runTable (n + 1) y = Sys.runTable n (Sys.raise 0 (fld e.w1 0 8) { y1 with beam := { y1.beam with mark := put y.beam.next 0 12 + put y.beam.phase 12 3 + put y.beam.line 15 13 + put y.beam.tick 28 4, markFrame := y.beam.frame } })) ∧
      (e.kind = 1 → bitAt y.beam.heldBack (fld e.w1 26 6) = false →
        Sys.runTable (n + 1) y = Sys.runTable n (y1.fire (fld e.w1 0 18) (fld e.w1 18 8) (fld e.w1 26 6))) ∧
      (e.kind = 1 → bitAt y.beam.heldBack (fld e.w1 26 6) = true →
        Sys.runTable (n + 1) y = Sys.runTable n (Sys.beamEvent 2 { y1 with beam := { y1.beam with skips := min 0xFFFFFFFF (y.beam.skips + 1), misses := min 0xFFFFFFFF (y.beam.misses + 1) } })))) ∧
  (∀ (q arg c : Nat) (y z : Sys), y.glob.config = 0 → (y.fg.en = false ∨ (q ≠ y.fg.genQ ∧ q ≠ y.fg.warpQ)) → z = y.stillWake →
    ((y.queue q).isOpen = true → (y.queue q).ctx = c → ∀ t, y.beamWaiter q = some t → y.fire q arg c = z.beamRelease t arg none) ∧
    (((y.queue q).isOpen = true → (y.queue q).ctx = c → y.beamWaiter q = none) →
      y.fire q arg c = Sys.beamEvent 2 { z with beam := { z.beam with misses := min 0xFFFFFFFF (z.beam.misses + 1) } }))

/-- Tier 1. BEAM_LINE_READ returns LINE, TICK, HELD, SOURCE and PHASE of one instant and latches BEAM_FRAME and BEAM_HOLD. BEAM_GATE_OPEN opens the gates
of its mask, BEAM_PHASE_SLIP makes a slip pending and BEAM_CLR_COUNTS clears the three counters, and nothing else of the device changes outside
TANDEM; a TANDEM worker that serves a manager rejects them and counts the write. Completion, that exec answers a next state with the command's own
effect under conditions on the state and the operands alone, is a conclusion here for: beamLineRead, beamGateOpen, beamPhaseSlip, beamClrCounts.
(03_beam_time, 17_duo_and_fault_handling) -/
def Obligations.BeamCommands : Prop :=
  (∀ (s : State), exec .beamLineRead s = .next { s with sys := { s.sys with beam := { s.sys.beam with latchFrame := some s.sys.beam.frame, latchHold := some (s.sys.beam.held % 2 ^ 13 + s.sys.beam.last % 2 ^ 13 * 2 ^ 16) }, glob := { s.sys.glob with rd := s.sys.beam.line % 2 ^ 13 + s.sys.beam.tick % 2 ^ 4 * 2 ^ 13 + (if s.sys.beam.heldNow then 2 ^ 17 else 0) + s.sys.beam.source % 2 ^ 2 * 2 ^ 18 + s.sys.beam.phase % 2 ^ 3 * 2 ^ 20 } } }) ∧
  (∀ (mask : Nat) (s : State), s.sys.glob.config ≠ 2 →
    exec (.beamGateOpen mask) s = .next { s with sys := { s.sys with beam := { s.sys.beam with gates := s.sys.beam.gates ||| mask % 2 ^ 16 } } } ∧
    exec .beamPhaseSlip s = .next { s with sys := { s.sys with beam := { s.sys.beam with slip := true } } } ∧
    exec .beamClrCounts s = .next { s with sys := { s.sys with beam := { s.sys.beam with misses := 0, skips := 0, holdTimeouts := 0 } } }) ∧
  (∀ (mask : Nat) (s : State), s.sys.glob.config = 2 → s.sys.duo.role = 1 → s.sys.duo.alone = false →
    ∀ c ∈ [Instr.beamGateOpen mask, .beamPhaseSlip, .beamClrCounts], exec c s = .next s.rejected)

/-- Tier 1. Outside TANDEM: BEAM_FG_CTRL written with EN=1 on an idle board whose configuration and regions pass takes its fields and starts the board
with every band never shown, and on one that fails counts a rejected write; written with EN=0 it takes its fields and lets a board that runs stop at
the next frame start; a board that still runs counts a rejected write at EN=1; FG_CLR_COUNTS clears the band counters and sets MIN_SLACK to 0xFFFF.
HELD_FIRE_RELEASE of the oldest held fire whose band's chain is no longer cancelling is a miss when that frame's commit point of the band has passed
or no task group waits, else the GEN or WARP fire itself. At a commit point a band whose WARP chain is done is shown from its output slot at level 1
(generated) or 2 (re-projected), else it keeps what is shown at level 3; the level is counted, the state handed to scanout and the chains idle for the
next frame. Completion, that exec answers a next state with the command's own effect under conditions on the state and the operands alone, is a
conclusion here for: fgEnable, fgDisable, fgClrCounts, heldFireRelease. (10_frame_generation) -/
def Obligations.FrameGeneration : Prop :=
  (∀ (w : Nat) (s : State) (f : Fg), s.sys.glob.config ≠ 2 → f = { s.sys.fg with irqEn := bitAt w 1, vector := fld w 2 8, mask := fld w 10 5 } →
    (s.sys.fgIdle = true → ∃ t, exec (.fgEnable w) s = .next t ∧ t.boot = s.boot ∧ t.tap = s.tap ∧
      ((Sys.fgConfigOk { s.sys with fg := f }) = true → ∀ y, Sys.fgRegionsOk (s.sys.compositor.getD 0) { s.sys with fg := f } = (y, true) →
        t.sys = Sys.bandsReset { y with fg := { y.fg with en := true, stopping := false, openGen := none, openWarp := none, cutGen := false, cutWarp := false } }) ∧
      ((Sys.fgConfigOk { s.sys with fg := f }) = true → ∀ y, Sys.fgRegionsOk (s.sys.compositor.getD 0) { s.sys with fg := f } = (y, false) → t.sys = y.reject) ∧
      ((Sys.fgConfigOk { s.sys with fg := f }) = false → t.sys = Sys.reject { s.sys with fg := f })) ∧
    (s.sys.fgIdle = false → exec (.fgEnable w) s = .next { s with sys := Sys.reject { s.sys with fg := f } }) ∧
    exec (.fgDisable w) s = .next { s with sys := { s.sys with fg := { f with stopping := f.en } } }) ∧
  (∀ (s : State), s.sys.glob.config ≠ 2 →
    exec .fgClrCounts s = .next { s with sys := { s.sys with fg := { s.sys.fg with level1 := 0, level2 := 0, level3 := 0, genLate := 0, warpLate := 0, noSource := 0, minSlack := 0xFFFF } } }) ∧
  (∀ (h : HeldFire) (before after : List HeldFire) (s : State) (y : Sys) (cancelling : HeldFire → Prop),
    (∀ k, cancelling k ↔ (if k.kind = 0 then (s.sys.band k.band).gen else (s.sys.band k.band).warp) = .cancelling) →
    s.sys.fg.held = before ++ h :: after → (∀ k ∈ before, cancelling k) → ¬ cancelling h →
    y = { s.sys with fg := { s.sys.fg with held := before ++ after } } →
    (s.sys.nextCommit h.band ≠ h.frame ∨ s.sys.beamWaiter (if h.kind = 0 then s.sys.fg.genQ else s.sys.fg.warpQ) = none →
      exec .heldFireRelease s = .next { s with sys := Sys.beamEvent 2 { y with beam := { y.beam with misses := min 0xFFFFFFFF (y.beam.misses + 1) } } }) ∧
    (s.sys.nextCommit h.band = h.frame → ∀ t, s.sys.beamWaiter (if h.kind = 0 then s.sys.fg.genQ else s.sys.fg.warpQ) = some t →
      exec .heldFireRelease s = .next { s with sys := if h.kind = 0 then y.genFire t h.band h.frame else y.warpFire t h.band h.frame })) ∧
  (∀ (b n : Nat) (y : Sys),
    ((y.band b).warp = .done → (y.band b).reproj = false → ((y.commitBand b n).band b) = { y.band b with shown := some (y.band b).out, handed := some (y.band b).out, committed := some n, frame := (n + 1) % 2 ^ 32, gen := if (y.band b).gen = .cancelling then .cancelling else .idle, warp := .idle, reproj := false } ∧ (y.commitBand b n).fg.level1 = min 0xFFFFFFFF (y.fg.level1 + 1) ∧
      (y.commitBand b n).fg.level2 = y.fg.level2 ∧ (y.commitBand b n).fg.level3 = y.fg.level3) ∧
    ((y.band b).warp = .done → (y.band b).reproj = true → ((y.commitBand b n).band b).handed = some (y.band b).out ∧
      (y.commitBand b n).fg.level2 = min 0xFFFFFFFF (y.fg.level2 + 1) ∧ (y.commitBand b n).fg.level1 = y.fg.level1 ∧
      (y.commitBand b n).fg.level3 = y.fg.level3) ∧
    ((y.band b).warp = .idle → (y.band b).gen = .idle → ((y.commitBand b n).band b).handed = (y.band b).shown ∧
      (y.commitBand b n).fg.level3 = min 0xFFFFFFFF (y.fg.level3 + 1) ∧ (y.commitBand b n).fg.level1 = y.fg.level1 ∧
      (y.commitBand b n).fg.level2 = y.fg.level2))

/-- Tier 1. Outside TANDEM, with the exit from STILL begun first when the die is in it: a doorbell before READY, or of a closed queue, or of a queue on a
stall that is disabled or unassigned, is dropped, counts in DB_DROPPED and sets its event; one whose WRITE lies more than the ring's packets past READ
counts in DB_RANGE and sets its event; any other sets WRITE and clears a fetch fault (a WRITE that stands already changes nothing), and a TEAM worker
tells its manager over a formed Harness, at once or, while it retrains, afterwards. PACKET_FETCH of a queue that may fetch, whose ring can be read,
takes a task slot credit, appends the packet's sixteen words and moves READ on; when the read faults the queue waits for its next doorbell.
Completion, that exec answers a next state with the command's own effect under conditions on the state and the operands alone, is a conclusion here
for: doorbell, packetFetch. (14_host_link, 13_commands_jobs_and_conservation, 02_pattern_and_bringup) -/
def Obligations.DoorbellsAndFetch : Prop :=
  (∀ (q w : Nat) (s : State) (y : Sys), q < 2 ^ 18 → w < 2 ^ 16 → s.sys.glob.config ≠ 2 → y = s.sys.stillWake →
    ((y.glob.ready = false ∨ (y.queue q).isOpen = false ∨ y.enabled (q / 4096) = false ∨ y.domOfStall (q / 4096) = none) →
      exec (.doorbell q w) s = .next { s with sys := Sys.linkEvent 6 { y with link := { y.link with dbDropped := min 0xFFFFFFFF (y.link.dbDropped + 1) } } }) ∧
    (y.glob.ready = true → (y.queue q).isOpen = true → y.enabled (q / 4096) = true → y.domOfStall (q / 4096) ≠ none →
      (2 ^ (y.queue q).ringLog2 < (w + 2 ^ 16 - (y.queue q).read) % 2 ^ 16 →
        exec (.doorbell q w) s = .next { s with sys := Sys.linkEvent 7 { y with link := { y.link with dbRange := min 0xFFFFFFFF (y.link.dbRange + 1) } } }) ∧
      ((w + 2 ^ 16 - (y.queue q).read) % 2 ^ 16 ≤ 2 ^ (y.queue q).ringLog2 →
        (w = (y.queue q).write → exec (.doorbell q w) s = .next { s with sys := y }) ∧
        (w ≠ (y.queue q).write → ∃ z, z = y.modQueue q (fun k => { k with write := w, blocked := false }) ∧
          exec (.doorbell q w) s = .next { s with sys := if y.glob.config = 1 ∧ y.duo.role = 1 ∧ y.duo.st = 3 then { z with out := .harness "SCHED" [0, q, w] [] :: z.out } else if y.glob.config = 1 ∧ y.duo.role = 1 ∧ y.duo.st = 4 then z.hpost (.harness "SCHED" [0, q, w] []) else z })))) ∧
  (∀ (q : Nat) (s : State) (k : Queue), k = s.sys.queue q → s.sys.glob.ready = true → k.isOpen = true → k.read ≠ k.write → k.slots.length < 2 →
    k.blocked = false → 0 < (s.sys.pool 3 0).free → (s.sys.ctx k.ctx).calm = false → s.sys.flt.dieCalm = false →
    bitAt s.sys.glob.heldDomains (s.sys.ctx k.ctx).domain = false →
    (∀ y bs, s.sys.vread none k.ctx (k.ringBase + 64 * (k.read % 2 ^ k.ringLog2)) 64 = (y, .ok bs) → ∀ p : Pkt, p = { words := (List.range 16).map (wordAt bs) } →
      exec (.packetFetch q) s = .next { s with sys := ((y.modPool 3 0 (Pool.take 1)).modQueue q fun k => { k with slots := k.slots ++ [p], read := (k.read + 1) % 2 ^ 16 }).countPacket q p bs }) ∧
    (∀ y e, s.sys.vread none k.ctx (k.ringBase + 64 * (k.read % 2 ^ k.ringLog2)) 64 = (y, .error e) →
      exec (.packetFetch q) s = .next { s with sys := y.modQueue q fun k => { k with blocked := true } }))

/-- Tier 1. A head packet waits while its context or the die is in Calm, a Duo hold stands or its domain is held; a packet of a job that is FREE, DONE or
of another context completes with FORMAT, one of a FAILED job with CANCELLED; one of a job that is SUSPENDING, SUSPENDED or CANCELLING waits; the
packet of a RUNNING job whose Brand, if any, has started runs. When a packet of a live job of the queue's context completes, it leaves its slot, the
queue shows its status and counts it modulo 2^24, a task slot credit returns, and the job counts it and joins its status.
(13_commands_jobs_and_conservation, 18_determinism_and_security) -/
def Obligations.PacketAdmission : Prop :=
  (∀ (q : Nat) (y : Sys) (p : Pkt) (rest : List Pkt), (y.queue q).slots = p :: rest → p.started = false →
    ∀ hold, hold = ((y.ctx (y.queue q).ctx).calm = true ∨ y.flt.dieCalm = true ∨ y.duo.hold = true ∨
      bitAt y.glob.heldDomains (y.ctx (y.queue q).ctx).domain = true) → ∀ b, b = y.job p.job →
    (hold → y.takeIn q = (y, none)) ∧
    (¬ hold → (b.st = 0 ∨ b.st = 6 ∨ b.ctx ≠ (y.queue q).ctx → y.takeIn q = (y.packetComplete q 0x10 0, none)) ∧
      (b.ctx = (y.queue q).ctx → b.st = 7 → y.takeIn q = (y.packetComplete q 0x01 0, none)) ∧
      (b.ctx = (y.queue q).ctx → b.st = 3 ∨ b.st = 4 ∨ b.st = 5 → y.takeIn q = (y, none)) ∧
      (b.ctx = (y.queue q).ctx → b.st = 2 → (y.brandOf p.job).st = 2 → y.takeIn q = (y, some p)) ∧
      (b.ctx = (y.queue q).ctx → b.st = 1 → (y.brandOf p.job).st = 0 → b.manifest = 0 →
        y.takeIn q = ((y.modBrand p.job fun r => { r with st := 2 }).enterRunning p.job, some p)))) ∧
  (∀ (q st grp : Nat) (y : Sys) (p : Pkt) (rest : List Pkt), (y.queue q).slots = p :: rest → p.type = 0 → p.irq = false →
    (y.job p.job).alive = true → (y.job p.job).ctx = (y.queue q).ctx → publishes st = true → p.last = false → (y.job p.job).lastDone = false →
    ∃ z, z = y.packetComplete q st grp ∧ (z.queue q).slots = rest ∧ (z.queue q).lastStatus = st ∧ (z.queue q).done = ((y.queue q).done + 1) % 2 ^ 24 ∧
      (z.queue q).read = (y.queue q).read ∧ (z.queue q).write = (y.queue q).write ∧ z.pool 3 0 = Pool.give 1 (y.pool 3 0) ∧
      (z.job p.job).packets = ((y.job p.job).packets + 1) % 2 ^ 32 ∧ (z.job p.job).status = statusJoin (y.job p.job).status st ∧
      (z.job p.job).st = (y.job p.job).st ∧ z.cores = y.cores ∧ z.mem = y.mem ∧ z.beam = y.beam)

/-- Tier 2. For every list of the status codes of R11 that applies to one completion: with any of 0x10 and 0x30 to 0x60 in it the reported code is the
highest of those; else with 0x01 it is 0x01; else with 0x02 it is 0x02; else it is the highest of 0x00, 0x11, 0x20 and 0x21 in it (0x00 with none).
Formalises: "When several conditions apply to one completion, the device reports the first applicable group in this order: (1) the numerically highest
of 0x10 and 0x30 to 0x60; (2) 0x01; (3) 0x02; (4) the numerically highest of 0x00, 0x11, 0x20 and 0x21." (R12) -/
def Obligations.StatusJoining : Prop :=
  ∀ (cs : List Nat), (∀ c ∈ cs, c ∈ statusCodes) → ∀ hi, hi = cs.filter (fun c => c == 0x10 || decide (0x30 ≤ c)) →
    (hi ≠ [] → statusOf cs ∈ hi ∧ ∀ c ∈ hi, c ≤ statusOf cs) ∧
    (hi = [] → 0x01 ∈ cs → statusOf cs = 0x01) ∧
    (hi = [] → 0x01 ∉ cs → 0x02 ∈ cs → statusOf cs = 0x02) ∧
    (hi = [] → 0x01 ∉ cs → 0x02 ∉ cs → (statusOf cs = 0 ∨ statusOf cs ∈ cs) ∧ ∀ c ∈ cs, c ≤ statusOf cs)

/-- Tier 1. For a head packet that may run: a NOP whose reserved bits are 0 completes with OK, else with FORMAT; a type without meaning completes with
FORMAT; a WRITE whose address is a multiple of 4 writes its word there and completes with OK once the word is visible (at once when no link holds it
back, else it stays started at the head), or with the status of the write's fault, and a malformed one completes with FORMAT; a SOURCE that is well
formed waits to register. SOURCE_REGISTER of a waiting SOURCE whose slot no frame in flight uses makes the slot READY with the next registration
number, its descriptor's address and the application word it holds, and completes with OK; while a frame uses the slot nothing changes. Completion,
that exec answers a next state with the command's own effect under conditions on the state and the operands alone, is a conclusion here for:
nopPacket, reservedPacket, writePacket, sourcePacket, sourceRegister. (13_commands_jobs_and_conservation, 10_frame_generation) -/
def Obligations.HeadPackets : Prop :=
  (∀ (q : Nat) (s : State) (y : Sys) (p : Pkt) (rest : List Pkt), (s.sys.queue q).slots = p :: rest → s.sys.takeIn q = (y, some p) →
    (p.type = 0 → exec (.nopPacket q) s = .next { s with sys := y.packetComplete q (if p.reservedOk [] then 0x00 else 0x10) 0 }) ∧
    (7 ≤ p.type → exec (.reservedPacket q) s = .next { s with sys := y.packetComplete q 0x10 0 }) ∧
    (p.type = 6 → ∀ a, a = p.word 2 + 2 ^ 32 * p.word 3 →
      (p.reservedOk [2, 3, 4] = false ∨ a % 4 ≠ 0 → exec (.writePacket q) s = .next { s with sys := y.packetComplete q 0x10 0 }) ∧
      (p.reservedOk [2, 3, 4] = true → a % 4 = 0 →
        (∀ z r w, y.vwrite none (y.queue q).ctx a (leBytes 4 (p.word 4)) none = (z, .ok r) → (z.queue q).slots = p :: rest → w = z.startHead q none →
          (w.writeWaits (w.queue q).ctx { p with started := true, work := none } = false →
            exec (.writePacket q) s = .next { s with sys := w.packetComplete q 0x00 0 }) ∧
          (w.writeWaits (w.queue q).ctx { p with started := true, work := none } = true → exec (.writePacket q) s = .next { s with sys := w })) ∧
        (∀ z e, y.vwrite none (y.queue q).ctx a (leBytes 4 (p.word 4)) none = (z, .error e) →
          exec (.writePacket q) s = .next { s with sys := z.packetComplete q e 0 }))) ∧
    (p.type = 4 → (p.reservedOk [1, 2, 3] = true → fld (p.word 1) 2 30 = 0 → exec (.sourcePacket q) s = .next { s with sys := y.startHead q none }) ∧
      (p.reservedOk [1, 2, 3] = false ∨ fld (p.word 1) 2 30 ≠ 0 → exec (.sourcePacket q) s = .next { s with sys := y.packetComplete q 0x10 0 }))) ∧
  (∀ (q k : Nat) (s : State) (p : Pkt) (rest : List Pkt), (s.sys.queue q).slots = p :: rest → p.type = 4 → p.started = true → k = fld (p.word 1) 0 2 →
    (s.sys.slotInUse k = true → exec (.sourceRegister q) s = .next s) ∧
    (s.sys.slotInUse k = false → ∀ a, a = p.word 2 + 2 ^ 32 * p.word 3 →
      (∀ y bs, s.sys.vread none (s.sys.queue q).ctx a 8 = (y, .ok bs) → exec (.sourceRegister q) s = .next { s with sys := Sys.packetComplete q 0x00 0 { y with fg := { y.fg with slots := tset y.fg.slots k { ready := true, reg := y.fg.nextReg, desc := a, app := wordAt bs 1 }, nextReg := y.fg.nextReg + 1 } } }) ∧
      (∀ y e, s.sys.vread none (s.sys.queue q).ctx a 8 = (y, .error e) → exec (.sourceRegister q) s = .next { s with sys := y.packetComplete q e 0 })))

/-- Tier 1. A head TASK packet that may run starts the task group its words describe under the row of its kernel: TASK_PACKET for kernel 0 and numbers
that name none, ATTN 1, ATTN_BWD 2, KAPPEND 3, and the five KLIST rows for kernel 4 by the OP of the parameter block (EVICT also for an OP the table
does not name). A malformed form, or a beam wait outside a REALTIME context, completes with FORMAT under the packet's identifier; a well-formed one of
no frame-generation chain becomes a task group: waiting for its beam fire, waiting for its flag line, or READY, when a built-in kernel asks for its
list lock and other slivers may be dispatched. Completion, that exec answers a next state with the command's own effect under conditions on the state
and the operands alone, is a conclusion here for: taskPacket, attn, attnBwd, kappend, klistEvict, klistPin, klistUnpin, klistSpill, klistCommit.
(13_commands_jobs_and_conservation, 07_attention_and_kv_cache, 12_bridle_scheduler) -/
def Obligations.TaskRows : Prop :=
  (∀ (q : Nat) (s : State) (y : Sys) (p : Pkt) (rest : List Pkt) (k op : Nat), (s.sys.queue q).slots = p :: rest → p.type = 1 →
    s.sys.takeIn q = (y, some p) → s.sys.headKernel q = some (k, op) →
    (k = 0 ∨ 5 ≤ k → exec (.taskPacket q) s = .next { s with sys := y.startTask q p }) ∧
    (k = 1 → exec (.attn q) s = .next { s with sys := y.startTask q p }) ∧
    (k = 2 → exec (.attnBwd q) s = .next { s with sys := y.startTask q p }) ∧
    (k = 3 → exec (.kappend q) s = .next { s with sys := y.startTask q p }) ∧
    (k = 4 → op = 0 ∨ op = 7 → exec (.klistEvict q) s = .next { s with sys := y.startTask q p }) ∧
    (k = 4 → op = 1 → exec (.klistPin q) s = .next { s with sys := y.startTask q p }) ∧
    (k = 4 → op = 2 → exec (.klistUnpin q) s = .next { s with sys := y.startTask q p }) ∧
    (k = 4 → op = 3 → exec (.klistSpill q) s = .next { s with sys := y.startTask q p }) ∧
    (k = 4 → op = 4 → exec (.klistCommit q) s = .next { s with sys := y.startTask q p })) ∧
  (∀ (q : Nat) (y : Sys) (p : Pkt) (wait flag : Bool), wait = bitAt (p.word 0) 18 → flag = bitAt (p.word 0) 27 →
    (taskForm p.words = false ∨ (wait = true ∧ (y.ctx (y.queue q).ctx).realtime = false) → y.startTask q p = y.packetComplete q 0x10 (p.word 4)) ∧
    (taskForm p.words = true → (wait = true → (y.ctx (y.queue q).ctx).realtime = true) → (wait = true ∨ y.fg.openOn q = none) →
      ∃ (g : Tg) (z : Sys), z = Sys.startHead q (some y.bridle.nextTg) (Sys.addTg g { y with bridle := { y.bridle with seq := y.bridle.seq + 1 } }) ∧
        g.queue = q ∧ g.ctx = (y.queue q).ctx ∧ g.job = p.job ∧ g.seq = y.bridle.seq ∧ g.kernel = p.word 1 % 256 ∧ g.param = p.word 5 + 2 ^ 32 * p.word 6 ∧
        (g.kernel = 0 → g.slivers = p.word 2 % 2 ^ 24) ∧ g.code = p.word 3 % 2 ^ 20 ∧
        (wait = true → g.st = .beamWait ∧ y.startTask q p = z) ∧
        (wait = false → flag = true → g.st = .flagWait ∧ y.startTask q p = z) ∧
        (wait = false → flag = false → g.st = .ready ∧
          y.startTask q p = (if g.kernel = 0 then z.tgBreeze y.bridle.nextTg else z.kernelStart y.bridle.nextTg))))

/-- Tier 1. A kernel that becomes READY with its parameter block aligned and readable joins its list's semaphore in arrival order, and goes on at once
when it is first and the tokens are free; with a semaphore of no token, or a fault of its parameters, it ends with the status. LIST_LOCK_GRANT gives
the oldest request, when a kernel made it and the tokens are free, its tokens, and the kernel goes on. PREFETCH_LANDED writes the frame it brought,
PF_LATE counting it when its sliver waited for it; a fault of the write, or a host link that is DOWN, fails the prefetch with its status.
KV_WAIT_EXPIRE ends the kernel of a queue that waits for frames with 0x51 and sets the event. A grant adds its units to the selected domain's frames
or host slots, its pool grows in TOTAL and FREE, and waiting reservations try again; a misaligned one, one of device memory outside the domain, or one
for no domain counts a rejected write. Completion, that exec answers a next state with the command's own effect under conditions on the state and the
operands alone, is a conclusion here for: listLockGrant, prefetchLanded, kvWaitExpire, kvGrantDevice, kvGrantHost. (07_attention_and_kv_cache,
13_commands_jobs_and_conservation) -/
def Obligations.KernelRows : Prop :=
  (∀ (sem t : Nat) (s : State) (ex : Bool) (rest : List SemReq), (s.sys.sem sem).waits = ⟨.group t, ex⟩ :: rest →
    (s.sys.sem sem).need ⟨.group t, ex⟩ ≤ (s.sys.sem sem).free → (s.sys.sem sem).total ≠ 0 → exec (.listLockGrant sem) s = .next { s with sys := ((s.sys.countLends ((s.sys.modSem sem fun k => { k with waits := rest, holds := k.holds ++ [{ who := .group t, n := (s.sys.sem sem).need ⟨.group t, ex⟩ }] }).modPool 4 0 (Pool.take ((s.sys.sem sem).need ⟨.group t, ex⟩)))).kernelGo t).limitZero sem }) ∧
  (∀ (q : Nat) (late : Bool) (s : State) (p : Prefetch) (y : Sys), s.sys.kv.prefetches.find? (fun x => (s.sys.tg x.tg).queue == q) = some p →
    y = (if late then ({ s.sys with kv := { s.sys.kv with prefetches := s.sys.kv.prefetches.erase p } } : Sys).modKvDom (s.sys.ctx (s.sys.tg p.tg).ctx).domain
        (fun d => { d with pfLate := min 0xFFFFFFFF (d.pfLate + 1) }) else { s.sys with kv := { s.sys.kv with prefetches := s.sys.kv.prefetches.erase p } }) →
    ((s.sys.module (s.sys.moduleOf (s.sys.tg p.tg).ctx)).st = 0 → exec (.prefetchLanded q late) s = .next { s with sys := y.prefetchFail p 0x30 }) ∧
    ((s.sys.module (s.sys.moduleOf (s.sys.tg p.tg).ctx)).st ≠ 0 → ∀ z,
      (∀ r, y.vwrite none (s.sys.tg p.tg).ctx p.frame (Cells.read y.hostCells p.slot frameBytes) (some p.tg) = (z, .ok r) →
        exec (.prefetchLanded q late) s = .next { s with sys := z }) ∧
      (∀ e, y.vwrite none (s.sys.tg p.tg).ctx p.frame (Cells.read y.hostCells p.slot frameBytes) (some p.tg) = (z, .error e) →
        exec (.prefetchLanded q late) s = .next { s with sys := z.prefetchFail p e }))) ∧
  (∀ (q t : Nat) (g : Tg) (s : State), s.sys.bridle.tgs.find? (fun p => p.2.queue == q && p.2.st == .pageWait) = some (t, g) →
    exec (.kvWaitExpire q) s = .next { s with sys := (s.sys.kvEvent 3).kernelDone t 0x51 }) ∧
  (∀ (n : Nat) (s : State), s.sys.glob.config ≠ 2 → n < 2 ^ 24 → ∀ d a, d = s.sys.kv.sel → a = s.sys.kv.grantAddr →
    (a % frameBytes = 0 → d < s.sys.bridle.doms.length →
      (s.sys.mem.inDom d a (n * frameBytes) = true → exec (.kvGrantDevice n) s = .next { s with sys := ((s.sys.modKvDom d fun k => { k with frames := k.frames.grant a n }).modPool 6 (2 * d) (Pool.grow n)).retryReservations d }) ∧
      exec (.kvGrantHost n) s = .next { s with sys := ((s.sys.modKvDom d fun k => { k with slots := k.slots.grant a n }).modPool 6 (2 * d + 1) (Pool.grow n)).retryReservations d }) ∧
    (a % frameBytes ≠ 0 ∨ s.sys.bridle.doms.length ≤ d →
      exec (.kvGrantDevice n) s = .next s.rejected ∧ exec (.kvGrantHost n) s = .next s.rejected) ∧
    (s.sys.mem.inDom d a (n * frameBytes) = false → exec (.kvGrantDevice n) s = .next s.rejected))

/-- Tier 1. Outside TANDEM, on the record JOB_SEL names: OPEN makes a FREE record whose JOB_CFG names a valid context QUEUED, its counts and status
cleared and its open counted; CLOSE makes a DONE or FAILED one FREE; CANCEL makes a QUEUED, RUNNING, SUSPENDING or SUSPENDED one, unless its end
digests run, CANCELLING with 0x01 and stops its work; SUSPEND makes a QUEUED one SUSPENDED, a RUNNING one SUSPENDING with its work stopping, and
without a save area it counts a rejected write and sets the event; RESUME lets a SUSPENDED one go on and is kept while it is still SUSPENDING. In
every other state the command counts a rejected write and changes nothing else. JOB_CANCEL_END of a CANCELLING job whose work has all stopped
completes its packets and finishes it FAILED with its status joined with the cancel's; SUSPEND_COPY_LANDED of a SUSPENDING job writes its saves to its
context's area, and with nothing of it left running makes it SUSPENDED. Completion, that exec answers a next state with the command's own effect under
conditions on the state and the operands alone, is a conclusion here for: jobOpen, jobClose, jobCancel, jobSuspend, jobResume, jobCancelEnd,
suspendCopyLanded. (13_commands_jobs_and_conservation) -/
def Obligations.JobCommands : Prop :=
  (∀ (s : State) (j : Nat) (b : Job), s.sys.glob.config ≠ 2 → j = s.sys.bridle.jobSel % 4096 → b = s.sys.job j →
    (b.st = 0 → (s.sys.ctx b.ctx).valid = true → exec .jobOpen s = .next { s with sys := { s.sys with work := { s.sys.work with jobs := tset s.sys.work.jobs j { b with st := 1, opens := b.opens + 1, status := 0, packets := 0, group := 0, reruns := 0, reexec := 0, lastDone := false, started := false, cancelWith := 0, resumeHeld := false, brandValue := [], digest := [] } }, sec := { s.sys.sec with brands := tdel s.sys.sec.brands j }, duo := { s.sys.duo with unmirrored := s.sys.duo.unmirrored.filter (· != j) } } }) ∧
    (b.st ≠ 0 ∨ (s.sys.ctx b.ctx).valid = false → exec .jobOpen s = .next s.rejected) ∧
    (b.st = 6 ∨ b.st = 7 → exec .jobClose s = .next { s with sys := { s.sys with work := { s.sys.work with jobs := tset s.sys.work.jobs j { b with st := 0 } } } }) ∧
    (b.st ≠ 6 → b.st ≠ 7 → exec .jobClose s = .next s.rejected) ∧
    (1 ≤ b.st → b.st ≤ 4 → (s.sys.brandOf j).st ≠ 3 → exec .jobCancel s = .next { s with sys := Sys.stopJobWork j { s.sys with work := { s.sys.work with jobs := tset s.sys.work.jobs j { b with st := 5, cancelWith := 0x01, resumeHeld := false } } } }) ∧
    (b.st = 0 ∨ 5 ≤ b.st ∨ (s.sys.brandOf j).st = 3 → exec .jobCancel s = .next s.rejected) ∧
    (b.st = 1 → exec .jobSuspend s = .next { s with sys := (((s.sys.modSec (Sec.drop (HashReq.ofJob j))).modBrand j fun r => { r with starts := [] }).suspended j) }) ∧
    (b.st = 2 → (s.sys.brandOf j).st ≠ 3 →
      ((s.sys.ctx b.ctx).saveAddr ≠ 0 → exec .jobSuspend s = .next { s with sys := Sys.suspendWork j { s.sys with work := { s.sys.work with jobs := tset s.sys.work.jobs j { b with st := 3 } } } }) ∧
      ((s.sys.ctx b.ctx).saveAddr = 0 → exec .jobSuspend s = .next { s with sys := s.rejected.sys.bridleEvent 2 })) ∧
    (b.st = 0 ∨ 3 ≤ b.st ∨ b.st = 2 ∧ (s.sys.brandOf j).st = 3 → exec .jobSuspend s = .next s.rejected) ∧
    (b.st = 4 → exec .jobResume s = .next { s with sys := if ((s.sys.resumeJob j).brandOf j).st = 1 then (s.sys.resumeJob j).queueHashes j false else s.sys.resumeJob j }) ∧
    (b.st = 3 → exec .jobResume s = .next { s with sys := { s.sys with work := { s.sys.work with jobs := tset s.sys.work.jobs j { b with resumeHeld := true } } } }) ∧
    (b.st ≠ 3 → b.st ≠ 4 → exec .jobResume s = .next s.rejected)) ∧
  (∀ (j : Nat) (s : State) (y : Sys), (s.sys.job j).st = 5 → y = s.sys.stopJobWork j →
    (y.workLeft j = true → exec (.jobCancelEnd j) s = .next { s with sys := y }) ∧
    (y.workLeft j = false → ∃ z, z = (y.bridle.queues.map (·.1)).foldl (fun w q => w.endPackets j (y.job j).cancelWith q 2) (y.chainsCancelled j) ∧
      exec (.jobCancelEnd j) s = .next { s with sys := (z.finishJob j 7 (statusJoin (z.job j).status (y.job j).cancelWith)).recountCtx ((z.finishJob j 7 (statusJoin (z.job j).status (y.job j).cancelWith)).job j).ctx })) ∧
  (∀ (j : Nat) (s : State) (z : Sys), (s.sys.job j).st = 3 → z = (s.sys.saveArea j).standAgain →
    (z.notStopped j = true → exec (.suspendCopyLanded j) s = .next { s with sys := z }) ∧
    (z.notStopped j = false → exec (.suspendCopyLanded j) s = .next { s with sys := z.suspended j } ∧
      ((z.job j).resumeHeld = false → ((z.suspended j).job j).st = 4)))

/-- Tier 1. Finishing a job with a state and a status leaves the record in that state with that status (its other fields as they were), leaves no token
and no waiting request of the job on any semaphore, and drops its hash requests from the queue and the engines. (13_commands_jobs_and_conservation) -/
def Obligations.JobFinish : Prop :=
  ∀ (j st status : Nat) (y : Sys), ∃ z, z = y.finishJob j st status ∧ z.job j = { y.job j with st := st, status := status } ∧
    (∀ k ∈ z.work.sems, (∀ h ∈ k.2.holds, h.who ≠ .job j) ∧ ∀ w ∈ k.2.waits, w.who ≠ .job j) ∧
    (∀ h ∈ z.sec.hashes, HashReq.ofJob j h = false) ∧ (∀ h, z.sec.eng0 = some h ∨ z.sec.eng1 = some h → HashReq.ofJob j h = false) ∧ z.cores = y.cores ∧ z.beam = y.beam

/-- Tier 1. Outside TANDEM: SEM_CFG of a semaphore without holder and waiter sets its TOTAL, pool 4 following; else it counts a rejected write. QCFG_BASE
and QCFG_RING of a queue that holds nothing set the base, or the size (at least 4, a smaller one counted), and zero READ and WRITE; else they count a
rejected write. CTX_CALM_EXIT with GO and no job of the context CANCELLING takes the context out of Calm, the pipes too for the compositor; with one
it counts a rejected write; without GO it does nothing. CONS_TOTAL_READ gives TOTAL and latches FREE and HELD of the selected instance. AUDIT_SWEEP
that finds every instance's records equal to HELD only counts. STALL_QSEL sets HEAD and WORD, keeping the latch while HEAD stands; STALL_QDATA with
WORD 0 gives word 0 and latches all eight, with another WORD it gives that word of the latch; on a disabled stall STALL_QSEL counts a rejected write
and STALL_QDATA reads 0. Completion, that exec answers a next state with the command's own effect under conditions on the state and the operands
alone, is a conclusion here for: semCfgWrite, qcfgBaseWrite, qcfgRingWrite, ctxCalmExit, consTotalRead, auditSweep, stallQselWrite, stallQdataRead.
(13_commands_jobs_and_conservation, 12_bridle_scheduler, 04_cores_and_engines) -/
def Obligations.JobRegisters : Prop :=
  (∀ (w : Nat) (s : State), s.sys.glob.config ≠ 2 → ∀ n k, n = s.sys.bridle.semSel % 4096 → k = s.sys.sem n →
    (k.holds = [] → k.waits = [] → exec (.semCfgWrite w) s = .next { s with sys := Sys.modPool { s.sys with work := { s.sys.work with sems := tset s.sys.work.sems n { k with total := w % 256 } } } 4 0 fun p => { p with total := p.total - k.total + w % 256, free := p.free - k.total + w % 256 } }) ∧
    (k.holds ≠ [] ∨ k.waits ≠ [] → exec (.semCfgWrite w) s = .next s.rejected)) ∧
  (∀ (w : Nat) (s : State), s.sys.glob.config ≠ 2 → ∀ q k, q = s.sys.bridle.qcfgSel % 2 ^ 18 → k = s.sys.queue q →
    (k.slots = [] → k.read = k.write →
      exec (.qcfgBaseWrite w) s = .next { s with sys := { s.sys with bridle := { s.sys.bridle with queues := tset s.sys.bridle.queues q { k with ringBase := w % 2 ^ 64, read := 0, write := 0 } } } } ∧
      (4 ≤ w % 16 → exec (.qcfgRingWrite w) s = .next { s with sys := { s.sys with bridle := { s.sys.bridle with queues := tset s.sys.bridle.queues q { k with ringLog2 := w % 16, read := 0, write := 0 } } } }) ∧
      (w % 16 < 4 → exec (.qcfgRingWrite w) s = .next { s with sys := { s.rejected.sys with bridle := { s.sys.bridle with queues := tset s.sys.bridle.queues q { k with ringLog2 := 4, read := 0, write := 0 } } } })) ∧
    (k.slots ≠ [] ∨ k.read ≠ k.write → exec (.qcfgBaseWrite w) s = .next s.rejected ∧ exec (.qcfgRingWrite w) s = .next s.rejected)) ∧
  (∀ (w c : Nat) (s : State), c = w % 64 →
    (bitAt w 6 = false → exec (.ctxCalmExit w) s = .next s) ∧
    (bitAt w 6 = true →
      ((∃ j ∈ s.sys.work.jobs, j.2.st = 5 ∧ j.2.ctx = c) → exec (.ctxCalmExit w) s = .next s.rejected) ∧
      ((∀ j ∈ s.sys.work.jobs, ¬ (j.2.st = 5 ∧ j.2.ctx = c)) → exec (.ctxCalmExit w) s = .next { s with sys := { s.sys with bridle := { s.sys.bridle with ctxs := tset s.sys.bridle.ctxs c { s.sys.ctx c with calm := false } }, pipe0 := if (s.sys.ctx c).compositor then { s.sys.pipe0 with cause := clrBit s.sys.pipe0.cause 1 } else s.sys.pipe0, pipe1 := if (s.sys.ctx c).compositor then { s.sys.pipe1 with cause := clrBit s.sys.pipe1.cause 1 } else s.sys.pipe1 } }))) ∧
  (∀ (s : State) (p : Pool), p = s.sys.pool (s.sys.cons.sel % 8) (s.sys.cons.sel / 8 % 64) → exec .consTotalRead s = .next { s with sys := { s.sys with cons := { s.sys.cons with latchFree := some p.free, latchHeld := some p.held }, glob := { s.sys.glob with rd := p.total % 2 ^ 32 } } }) ∧
  (∀ (s : State), (∀ k ∈ s.sys.instances, s.sys.holderSum k.1 k.2 = (s.sys.pool k.1 k.2).held) → exec .auditSweep s =
    .next { s with sys := { s.sys with cons := { s.sys.cons with sweeps := min 0xFFFFFFFF (s.sys.cons.sweeps + 1) } } }) ∧
  (∀ (n w : Nat) (s : State), n < 64 → s.sys.enabled n = false → exec (.stallQselWrite n w) s = .next s.rejected ∧
    exec (.stallQdataRead n) s = .next { s with sys := { s.sys with glob := { s.sys.glob with rd := 0 } } }) ∧
  (∀ (n w : Nat) (s : State) (k : Stall), n < 64 → s.sys.enabled n = true → k = s.sys.stall n →
    (exec (.stallQselWrite n w) s = .next { s with sys := { s.sys with stalls := tset s.sys.stalls n { k with qselHead := w % 2 ^ 12, qselWord := w / 2 ^ 12 % 2 ^ 3, qlatch := if w % 2 ^ 12 = k.qselHead then k.qlatch else none } } }) ∧
    ∀ ws, ws = s.sys.headWords (4096 * n + k.qselHead) →
      (k.qselWord = 0 → exec (.stallQdataRead n) s = .next { s with sys := { s.sys with stalls := tset s.sys.stalls n { k with qlatch := some ws }, glob := { s.sys.glob with rd := ws.getD 0 0 } } }) ∧
      (k.qselWord ≠ 0 → exec (.stallQdataRead n) s = .next { s with sys := { s.sys with glob := { s.sys.glob with rd := ((match k.qlatch with | some l => l | none => ws).getD k.qselWord 0) } } }))

/-- Tier 2. For a sliver with its 32 registers: register 0 reads 0; after a write of register i, for i not 0, that register reads the value written and
every other register, and everything else of the sliver, is as before; a write of register 0 changes nothing. The number of registers stays 32.
(04_cores_and_engines) -/
def Obligations.RegisterZero : Prop :=
  ∀ (r : Run) (i j : Nat) (v : Word), i < 32 → j < 32 → r.regs.length = 32 →
    r.x 0 = 0 ∧ (i ≠ 0 → (r.setx i v).x i = v) ∧ (j ≠ i → (r.setx i v).x j = r.x j) ∧ r.setx 0 v = r ∧ (r.setx i v).regs.length = 32 ∧
    r.setx i v = { r with regs := (r.setx i v).regs }

/-- Tier 1. On a core that may issue, with the next word fetchable, each of ADD, SUB, AND, OR, XOR, SHL, SHR, SRA (by xb[4:0]), MUL, MULH, MULHU, SLT,
SLTU, MIN, MAX, CLZ and POPC, and each of ADDI and SLTI with imm14 sign-extended, ANDI, ORI and XORI with it zero-extended, the shifts by imm[4:0] and
LUI with imm19 shifted left by 13, writes its result to xd (nothing for x0) and goes on at the next word; no other register, no memory, no other core
and no other block changes. Completion, that exec answers a next state with the command's own effect under conditions on the state and the operands
alone, is a conclusion here for: add, sub, and, or, xor, shl, shr, sra, mul, mulh, mulhu, slt, sltu, min, max, clz, popc, addi, andi, ori, xori, shli,
shri, srai, slti, lui. (04_cores_and_engines) -/
def Obligations.AwlArithmetic : Prop :=
  (∀ (c d a b : Nat) (s : State) (r : Run), s.Issues c r → r.GoesOn (r.pc + 4) → ∀ (x y : Word), x = r.x a → y = r.x b →
    ∀ p ∈ [(Instr.add c d a b, x + y), (.sub c d a b, x - y), (.and c d a b, x &&& y), (.or c d a b, x ||| y), (.xor c d a b, x ^^^ y),
      (.shl c d a b, x <<< (y.toNat % 32)), (.shr c d a b, x >>> (y.toNat % 32)), (.sra c d a b, x.sshiftRight (y.toNat % 32)),
      (.mul c d a b, BitVec.ofNat 32 (x.toNat * y.toNat)), (.mulh c d a b, BitVec.ofInt 32 (x.toInt * y.toInt / 2 ^ 32)),
      (.mulhu c d a b, BitVec.ofNat 32 (x.toNat * y.toNat / 2 ^ 32)), (.slt c d a b, if x.toInt < y.toInt then 1 else 0),
      (.sltu c d a b, if x.toNat < y.toNat then 1 else 0), (.min c d a b, if x.toInt ≤ y.toInt then x else y),
      (.max c d a b, if x.toInt ≤ y.toInt then y else x),
      (.clz c d a, BitVec.ofNat 32 (if x = 0 then 32 else 31 - Nat.log2 x.toNat)),
      (.popc c d a, BitVec.ofNat 32 ((List.range 32).filter (bitAt x.toNat)).length)],
    exec p.1 s = .next (s.putRun c { r.setx d p.2 with pc := r.pc + 4 })) ∧
  (∀ (c d a : Nat) (i : BitVec 14) (u : BitVec 19) (s : State) (r : Run), s.Issues c r → r.GoesOn (r.pc + 4) → ∀ (x : Word), x = r.x a →
    ∀ p ∈ [(Instr.addi c d a i, BitVec.ofInt 32 (x.toInt + i.toInt)), (.andi c d a i, BitVec.ofNat 32 (x.toNat &&& i.toNat)),
      (.ori c d a i, BitVec.ofNat 32 (x.toNat ||| i.toNat)), (.xori c d a i, BitVec.ofNat 32 (x.toNat ^^^ i.toNat)),
      (.shli c d a i, x <<< (i.toNat % 32)), (.shri c d a i, x >>> (i.toNat % 32)), (.srai c d a i, x.sshiftRight (i.toNat % 32)),
      (.slti c d a i, if x.toInt < i.toInt then 1 else 0), (.lui c d u, BitVec.ofNat 32 (u.toNat * 2 ^ 13))],
    exec p.1 s = .next (s.putRun c { r.setx d p.2 with pc := r.pc + 4 }))

/-- Tier 1. On a core that may issue, with the next word fetchable, LDW, LDH and LDB at an aligned address xa + imm inside the local store write the
little-endian value there, zero-extended, to xd, and LDP at an aligned pool address of the data region the pool's word; they go on at the next word
and change nothing else (with an EDRAIN still to write those bytes its command is carried out first). A granule that nothing has written reads as the
pattern of R52. On a core that may issue, with the next word fetchable and no EDRAIN in flight, STW, STH and STB at an aligned address xa + imm inside
the local store write the low bytes of xd there, and STP at an aligned pool address of the data region the word of xd; they go on at the next word,
and no other state changes. Completion, that exec answers a next state with the command's own effect under conditions on the state and the operands
alone, is a conclusion here for: ldw, ldh, ldb, ldp, stw, sth, stb, stp. (04_cores_and_engines) -/
def Obligations.AwlMemory : Prop :=
  (∀ (c d a : Nat) (i : BitVec 14) (s : State) (r : Run), s.Issues c r → r.GoesOn (r.pc + 4) → ∀ p, p = (r.x a + i.signExtend 32).toNat →
    ∀ q ∈ [(4, Instr.ldw c d a i), (2, .ldh c d a i), (1, .ldb c d a i)], p % q.1 = 0 → p + q.1 ≤ 0x4000 →
      ((∀ k ∈ r.cmds, k.kind ≠ .drain) → exec q.2 s =
        .next (s.putRun c { r.setx d (BitVec.ofNat 32 (leNat ((s.sys.core c).ls.read 64 p q.1))) with pc := r.pc + 4 })) ∧
      (∀ y r', y = s.sys.interlock c p q.1 → (y.core c).run = some r' → exec q.2 s =
        .next { s with sys := y.retire c (r'.setx d (BitVec.ofNat 32 (leNat ((y.core c).ls.read 64 p q.1)))) })) ∧
  (∀ (c d a : Nat) (i : BitVec 14) (s : State) (r : Run), s.Issues c r → r.GoesOn (r.pc + 4) → ∀ p, p = (r.x a + i.signExtend 32).toNat →
    p % 4 = 0 → 0x40000 ≤ p → p + 4 ≤ 0x100000 → s.sys.poolBad (c / 64) p 4 = false → exec (.ldp c d a i) s =
      .next (s.putRun c { r.setx d (BitVec.ofNat 32 (leNat (s.sys.poolRead (c / 64) p 4))) with pc := r.pc + 4 })) ∧
  (∀ (st : Store) (g a : Nat), st.valid.contains (a / g) = false → st.read g a 1 = [if a % 2 = 0 then 0xBE else 0xAC]) ∧
  (∀ (c d a : Nat) (i : BitVec 14) (s : State) (r : Run), s.Issues c r → r.GoesOn (r.pc + 4) → (∀ k ∈ r.cmds, k.kind ≠ .drain) →
    ∀ p, p = (r.x a + i.signExtend 32).toNat → ∀ q ∈ [(4, Instr.stw c d a i), (2, .sth c d a i), (1, .stb c d a i)], p % q.1 = 0 → p + q.1 ≤ 0x4000 →
      exec q.2 s = .next (s.putCore c { s.sys.core c with run := some { r with pc := r.pc + 4 }, ls := (s.sys.core c).ls.write 64 p (leBytes q.1 (r.x d).toNat) })) ∧
  (∀ (c d a : Nat) (i : BitVec 14) (s : State) (r : Run), s.Issues c r → r.GoesOn (r.pc + 4) → ∀ p, p = (r.x a + i.signExtend 32).toNat →
    p % 4 = 0 → 0x40000 ≤ p → p + 4 ≤ 0x100000 → exec (.stp c d a i) s = .next (State.putRun c { r with pc := r.pc + 4 }
      { s with sys := s.sys.poolWrite (c / 64) p (leBytes 4 (r.x d).toNat) })) ∧
  (∀ (k a : Nat) (bs : List Byte) (y : Sys), a + bs.length ≤ 0xFC000 → (y.stall k).badPool = [] →
    y.poolWrite k a bs = { y with stalls := tset y.stalls k { y.stall k with pool := (y.stall k).pool.write 256 a bs } })

/-- Tier 2. Of a local store or a stall pool with granules of g bytes: after a write of bytes at a, a read of the same range gives them, a read of any
byte outside the range gives what it gave before (the pattern of R52 in a granule nothing had written), and exactly the granules touched are valid
besides those that were. (04_cores_and_engines) -/
def Obligations.StoresKeepOtherBytes : Prop :=
  ∀ (st : Store) (g a : Nat) (bs : List Byte), 0 < g → g % 2 = 0 → bs ≠ [] →
    (st.write g a bs).read g a bs.length = bs ∧
    (∀ x, x < a ∨ a + bs.length ≤ x → (st.write g a bs).read g x 1 = st.read g x 1) ∧
    (∀ k, (st.write g a bs).valid.contains k = (st.valid.contains k || decide (a / g ≤ k ∧ k ≤ (a + bs.length - 1) / g)))

/-- Tier 1. On a core that may issue, a conditional branch whose condition holds (equal, not equal, less, not less, signed or unsigned) goes on off14
words from itself, else at the next word; JMP and CALL off24 words from themselves, CALL with the address after itself in x31; JR at the address in
xa. No other register and no other state changes, as long as the address reached may be fetched from. Completion, that exec answers a next state with
the command's own effect under conditions on the state and the operands alone, is a conclusion here for: beq, bne, blt, bge, bltu, bgeu, jmp, call,
jr. (04_cores_and_engines) -/
def Obligations.AwlBranches : Prop :=
  (∀ (c a b : Nat) (o : BitVec 14) (s : State) (r : Run) (pc : Nat), s.Issues c r → r.GoesOn pc → ∀ (x y : Word), x = r.x a → y = r.x b →
    ∀ p ∈ [(Instr.beq c a b o, decide (x = y)), (.bne c a b o, decide (x ≠ y)), (.blt c a b o, decide (x.toInt < y.toInt)),
      (.bge c a b o, decide (y.toInt ≤ x.toInt)), (.bltu c a b o, decide (x.toNat < y.toNat)), (.bgeu c a b o, decide (y.toNat ≤ x.toNat))],
    (if p.2 then (pc : Int) = r.pc + 4 * o.toInt else pc = r.pc + 4) → exec p.1 s = .next (s.putRun c { r with pc := pc })) ∧
  (∀ (c a : Nat) (o : BitVec 24) (s : State) (r : Run) (pc : Nat), s.Issues c r → r.GoesOn pc →
    ((pc : Int) = r.pc + 4 * o.toInt → exec (.jmp c o) s = .next (s.putRun c { r with pc := pc }) ∧
      exec (.call c o) s = .next (s.putRun c { r.setx 31 (BitVec.ofNat 32 (r.pc + 4)) with pc := pc })) ∧
    ((r.x a).toNat = pc → exec (.jr c a) s = .next (s.putRun c { r with pc := pc })))

/-- Tier 1. On a core that may issue: ILLEGAL_INSTRUCTION (a word that breaks R81 by its own bits), a word or half-word access of the local store that is
not aligned or any of whose bytes is at 0x4000 or above, a pool access that is not aligned or outside the data region, and a retirement to or a jump
to an address that is not 4-byte aligned or lies outside 0x4_0000 to 0xF_BFFF, end the sliver with 0x10: its holdings, tokens and transfers return,
its core and its core is free. The word at a core's PC is what it fetches. A word of format T, I, U, B, J or of an engine instruction or a VOP spells
the instruction of its opcode with its fields as R77 places them; one of format T whose bits [8:0] are not 0, an engine instruction whose bits [8:4]
are not 0, a VOP whose FN is not listed, and a word whose opcode is not listed are ILLEGAL_INSTRUCTION. Completion, that exec answers a next state
with the command's own effect under conditions on the state and the operands alone, is a conclusion here for: illegalInstruction.
(04_cores_and_engines) -/
def Obligations.AwlFormatEnds : Prop :=
  (∀ (c : Nat) (s : State) (r : Run), s.Issues c r → exec (.illegalInstruction c) s = .next { s with sys := s.sys.sliverEnd c 0x10 false }) ∧
  (∀ (c d a : Nat) (i : BitVec 14) (s : State) (r : Run), s.Issues c r → ∀ p, p = (r.x a + i.signExtend 32).toNat →
    (∀ q ∈ [(4, Instr.ldw c d a i), (2, .ldh c d a i), (1, .ldb c d a i), (4, .stw c d a i), (2, .sth c d a i), (1, .stb c d a i)],
      p % q.1 ≠ 0 ∨ 0x4000 < p + q.1 → exec q.2 s = .next { s with sys := s.sys.sliverEnd c 0x10 false }) ∧
    (∀ k ∈ [Instr.ldp c d a i, .stp c d a i], p % 4 ≠ 0 ∨ p < 0x40000 ∨ 0x100000 < p + 4 →
      exec k s = .next { s with sys := s.sys.sliverEnd c 0x10 false })) ∧
  (∀ (c a : Nat) (s : State) (r : Run), s.Issues c r → ((r.x a).toNat % 4 ≠ 0 ∨ (r.x a).toNat < 0x40000 ∨ 0xFBFFF < (r.x a).toNat) →
    exec (.jr c a) s = .next { s with sys := (s.putRun c { r with pc := (r.x a).toNat }).sys.sliverEnd c 0x10 false }) ∧
  (∀ (c : Nat) (y : Sys) (r : Run), (y.core c).run = some r → (((y.sliverStop c 0x10 true).core c).st = .idle ∧ ((y.sliverStop c 0x10 true).core c).run = none)) ∧
  (∀ (c : Nat) (y : Sys) (r : Run) (w : Nat), (y.core c).run = some r → leNat (y.poolRead (c / 64) r.pc 4) = w → (w / 2 ^ 24 % 256 ≠ 0x41 ∧ w / 2 ^ 24 % 256 ≠ 0x60) →
    y.fetched c = some (decodeAwl c w 0)) ∧
  (∀ (c d a b f : Nat), d < 32 → a < 32 → b < 32 →
    (∀ p ∈ [(0x01, Instr.add c d a b), (0x02, .sub c d a b), (0x03, .and c d a b), (0x04, .or c d a b), (0x05, .xor c d a b), (0x06, .shl c d a b), (0x07, .shr c d a b),
        (0x08, .sra c d a b), (0x09, .mul c d a b), (0x0A, .mulh c d a b), (0x0B, .mulhu c d a b), (0x0C, .slt c d a b), (0x0D, .sltu c d a b), (0x0E, .min c d a b),
        (0x0F, .max c d a b), (0x10, .clz c d a), (0x11, .popc c d a), (0x38, .jr c a), (0x61, .dwait c a), (0x68, .tile c), (0x69, .fence c), (0x6A, .semacq c a),
        (0x6B, .semrel c a), (0x6C, .rwait c d a b), (0x70, .exit c a)],
      decodeAwl c (p.1 * 2 ^ 24 + d * 2 ^ 19 + a * 2 ^ 14 + b * 2 ^ 9) f = p.2 ∧
      ∀ fn, 0 < fn → fn < 512 → decodeAwl c (p.1 * 2 ^ 24 + d * 2 ^ 19 + a * 2 ^ 14 + b * 2 ^ 9 + fn) f = .illegalInstruction c) ∧
    (∀ p ∈ [(0x42, fun m => Instr.ezero c m), (0x43, fun m => .eswap c m), (0x44, fun m => .edrain c a m), (0x45, fun m => .ewait c m)],
      (∀ m, m < 16 → decodeAwl c (p.1 * 2 ^ 24 + d * 2 ^ 19 + a * 2 ^ 14 + b * 2 ^ 9 + m) f = p.2 m) ∧
      ∀ m, 16 ≤ m → m < 512 → decodeAwl c (p.1 * 2 ^ 24 + d * 2 ^ 19 + a * 2 ^ 14 + b * 2 ^ 9 + m) f = .illegalInstruction c) ∧
    (∀ p ∈ [(0x00, Instr.vadd c d a b), (0x02, .vmul c d a b), (0x05, .vfma c a b), (0x07, .vsta c d), (0x08, .vexp2 c d a), (0x11, .vmaxr c d a)],
      decodeAwl c (0x48 * 2 ^ 24 + d * 2 ^ 19 + a * 2 ^ 14 + b * 2 ^ 9 + p.1) f = p.2) ∧
    (∀ fn, 0x12 ≤ fn → fn < 512 → decodeAwl c (0x48 * 2 ^ 24 + d * 2 ^ 19 + a * 2 ^ 14 + b * 2 ^ 9 + fn) f = .illegalInstruction c) ∧
    (∀ i (v : BitVec 14), i < 2 ^ 14 → v = BitVec.ofNat 14 i → ∀ p ∈ [(0x18, Instr.addi c d a v), (0x19, .andi c d a v), (0x1E, .srai c d a v), (0x1F, .slti c d a v),
        (0x28, .ldw c d a v), (0x2B, .stw c d a v), (0x2E, .ldp c d a v), (0x2F, .stp c d a v), (0x30, .beq c d a v), (0x35, .bgeu c d a v), (0x6E, .csrr c d v),
        (0x6F, .csrw c a v)],
      decodeAwl c (p.1 * 2 ^ 24 + d * 2 ^ 19 + a * 2 ^ 14 + i) f = p.2) ∧
    (∀ i, i < 2 ^ 19 → decodeAwl c (0x20 * 2 ^ 24 + d * 2 ^ 19 + i) f = .lui c d (BitVec.ofNat 19 i)) ∧
    (∀ i, i < 2 ^ 24 → decodeAwl c (0x36 * 2 ^ 24 + i) f = .jmp c (BitVec.ofNat 24 i) ∧ decodeAwl c (0x37 * 2 ^ 24 + i) f = .call c (BitVec.ofNat 24 i))) ∧
  (∀ (c op x f : Nat), x < 2 ^ 24 → op ∈ [0x00, 0x12, 0x17, 0x21, 0x27, 0x39, 0x3F, 0x46, 0x47, 0x49, 0x4F, 0x54, 0x57, 0x5B, 0x5F, 0x62, 0x67, 0x6D, 0x71, 0xFF] →
    decodeAwl c (op * 2 ^ 24 + x) f = .illegalInstruction c)

/-- Tier 1. On a core that may issue: a CSRR or CSRW whose sign-extended imm14 is negative or above 15 ends the sliver with 0x10; CSRR of 0x0B to 0x0F
gives 0 and goes on, CSRW of one ends the sliver with 0x10. Formalises: "A number outside 0x00 to 0x0F, negative numbers included, ends the sliver
with 0x10 under R81." (R458) -/
def Obligations.CsrNumbers : Prop :=
  ∀ (c d a : Nat) (i : BitVec 14) (s : State) (r : Run), s.Issues c r →
    (i.toInt < 0 ∨ 15 < i.toInt → exec (.csrr c d i) s = .next { s with sys := s.sys.sliverEnd c 0x10 false } ∧
      exec (.csrw c a i) s = .next { s with sys := s.sys.sliverEnd c 0x10 false }) ∧
    (11 ≤ i.toInt → i.toInt ≤ 15 → (r.GoesOn (r.pc + 4) → exec (.csrr c d i) s = .next (s.putRun c { r.setx d 0 with pc := r.pc + 4 })) ∧
      exec (.csrw c a i) s = .next { s with sys := s.sys.sliverEnd c 0x10 false })

/-- Tier 1. On a core that may issue, with the next word fetchable, CSRR gives xd the CSR: sliver number, slivers and identifier of its task group, ARG,
EXACT, LIVE, ROUND, SEED, TENSOR, SET_CNT (ACC_SAT after the core's engine commands have been carried out). CSRW writes LIVE (a multiple of 64 from 64
to 16,384), ROUND (0 or 1), SEED and TENSOR, and nothing else changes; a value out of range or an RO CSR ends the sliver with 0x10. Completion, that
exec answers a next state with the command's own effect under conditions on the state and the operands alone, is a conclusion here for: csrr, csrw.
(04_cores_and_engines, 12_bridle_scheduler) -/
def Obligations.CsrReadsAndWrites : Prop :=
  ∀ (c d a : Nat) (i : BitVec 14) (s : State) (r : Run), s.Issues c r → r.GoesOn (r.pc + 4) → ∀ v : Word, v = r.x a →
    (∀ p ∈ [(0, r.sliver), (1, (s.sys.tg r.tg).slivers), (2, (s.sys.tg r.tg).group), (3, r.arg), (4, if r.exact then 1 else 0), (5, r.live), (6, r.round),
        (7, r.seed.toNat), (8, r.tensor.toNat), (10, r.setCnt)],
      i.toNat = p.1 → exec (.csrr c d i) s = .next (s.putRun c { r.setx d (BitVec.ofNat 32 p.2) with pc := r.pc + 4 })) ∧
    (i.toNat = 9 → ∀ y r', y = s.sys.forceCmds c r.cmds.length → (y.core c).run = some r' →
      exec (.csrr c d i) s = .next { s with sys := y.retire c (r'.setx d (BitVec.ofNat 32 r'.accSat)) }) ∧
    (i.toNat = 5 → v.toNat % 64 = 0 → 64 ≤ v.toNat → v.toNat ≤ 0x4000 → r.pre = none →
      exec (.csrw c a i) s = .next (s.putRun c { r with live := v.toNat, pc := r.pc + 4 })) ∧
    (i.toNat = 6 → v.toNat ≤ 1 → exec (.csrw c a i) s = .next (s.putRun c { r with round := v.toNat, pc := r.pc + 4 })) ∧
    (i.toNat = 7 → exec (.csrw c a i) s = .next (s.putRun c { r with seed := v, pc := r.pc + 4 })) ∧
    (i.toNat = 8 → exec (.csrw c a i) s = .next (s.putRun c { r with tensor := v, pc := r.pc + 4 })) ∧
    (i.toNat = 5 ∧ (v.toNat % 64 ≠ 0 ∨ v.toNat < 64 ∨ 0x4000 < v.toNat) ∨ i.toNat = 6 ∧ 1 < v.toNat ∨ i.toNat < 5 ∨ i.toNat = 9 ∨ i.toNat = 10 →
      exec (.csrw c a i) s = .next { s with sys := s.sys.sliverEnd c 0x10 false })

/-- Tier 1. On a core that may issue, with the next word fetchable: EWAIT goes on when no engine command names an engine of its mask, else it waits; TILE,
nothing stopping the sliver at its boundary, goes on when the core's engine commands have ended, else it waits; FENCE goes on when the sliver has no
transfer in flight, else it waits; DWAIT of a ticket that has ended goes on, of one in flight it waits, of one not yet issued it ends the sliver with
0x10. TILE_OVERRUN of a sliver within a tile counts in the stall's TILE_OVERRUNS and ends the sliver with 0x50; one that waits at a boundary with no
engine command in flight is in no tile, and nothing changes. EXIT without engine commands and transfers ends the sliver with the R12 join of its value
(0x00, 0x11 and 0x21; any other is 0x10), 0x21 when ACC_SAT is not 0, and the codes set. RWAIT outside a Duo, of an entry past 255 or of one neither
pending nor full ends the sliver with 0x10; of a pending one it waits; of a full one that came well it puts the payload in the local store, its length
in xd and frees the entry. Completion, that exec answers a next state with the command's own effect under conditions on the state and the operands
alone, is a conclusion here for: ewait, tile, fence, dwait, tileOverrun, exit, rwait. (04_cores_and_engines, 13_commands_jobs_and_conservation,
12_bridle_scheduler) -/
def Obligations.WaitsAndBoundaries : Prop :=
  (∀ (c a : Nat) (s : State) (r : Run), s.Issues c r → r.GoesOn (r.pc + 4) →
    (∀ m, m < 16 → ((∀ k ∈ r.cmds, k.mask &&& m = 0) → exec (.ewait c m) s = .next (s.putRun c { r with pc := r.pc + 4 })) ∧
      ((∃ k ∈ r.cmds, k.mask &&& m ≠ 0) → exec (.ewait c m) s = .next (s.putRun c { r with wait := .engines m }))) ∧
    (r.cmds = [] → s.Undisturbed r → exec (.tile c) s = .next (s.putRun c { r with pc := r.pc + 4 })) ∧
    (r.cmds ≠ [] → exec (.tile c) s = .next (s.putRun c { r with wait := .tile })) ∧
    ∀ own : List Xfer, own = s.sys.dma.xfers.filter (fun x => x.core == c && x.tg == r.tg && x.sliver == r.sliver) →
      (own = [] → exec (.fence c) s = .next (s.putRun c { r with pc := r.pc + 4 })) ∧
      (own ≠ [] → exec (.fence c) s = .next (s.putRun c { r with wait := .fence })) ∧
      (ticketKnown r.tickets (r.x a).toNat = false → exec (.dwait c a) s = .next { s with sys := s.sys.sliverEnd c 0x10 false }) ∧
      (ticketKnown r.tickets (r.x a).toNat = true → s.Undisturbed r →
        ((∀ x ∈ own, x.ticket ≠ (r.x a).toNat) → exec (.dwait c a) s = .next (s.putRun c { r with pc := r.pc + 4 })) ∧
        ((∃ x ∈ own, x.ticket = (r.x a).toNat) → exec (.dwait c a) s = .next (s.putRun c { r with wait := .ticket (r.x a).toNat }))) ∧
      (r.cmds = [] → own = [] → ∀ v, v = (r.x a).toNat % 256 → ∃ y, y = s.sys.forceCmds c 0 ∧ (y.core c).run = some r ∧
        exec (.exit c a) s = .next { s with sys := y.sliverEnd c (statusOf [if v = 0 ∨ v = 0x11 ∨ v = 0x21 then v else 0x10, if r.accSat ≠ 0 then 0x21 else 0, r.codes]) false })) ∧
  (∀ (c t : Nat) (s : State) (r : Run), (s.sys.core c).run = some r → r.wait = .ticket t → r.cmds = [] → exec (.tileOverrun c) s = .next s) ∧
  (∀ (c : Nat) (s : State) (r : Run), (s.sys.core c).st = .running → (s.sys.core c).frozen = false → (s.sys.core c).run = some r →
    (r.wait = .none ∨ r.wait = .tile ∨ r.wait = .fence) → exec (.tileOverrun c) s =
    .next { s with sys := Sys.sliverEnd c 0x50 false { s.sys with stalls := tset s.sys.stalls (c / 64) { s.sys.stall (c / 64) with tileOverruns := min 0xFFFFFFFF ((s.sys.stall (c / 64)).tileOverruns + 1) } } }) ∧
  (∀ (c d a b e : Nat) (s : State) (r : Run) (m : Mbox), s.Issues c r → e = (r.x a).toNat → m = tget {} (s.sys.stall (c / 64)).mbox e →
    (256 ≤ e ∨ s.sys.glob.config = 0 ∨ (m.pending = false ∧ m.full = false) → exec (.rwait c d a b) s = .next { s with sys := s.sys.sliverEnd c 0x10 false }) ∧
    (e < 256 → s.sys.glob.config ≠ 0 → m.pending = true → m.full = false → s.Undisturbed r →
      exec (.rwait c d a b) s = .next (s.putRun c { r with wait := .mbox e d (r.x b).toNat })) ∧
    (e < 256 → s.sys.glob.config ≠ 0 → m.full = true → m.status = 0 → (r.x b).toNat + m.data.length ≤ 0x4000 → (∀ k ∈ r.cmds, k.kind ≠ .drain) →
      r.GoesOn (r.pc + 4) → s.Undisturbed r → ∃ t, exec (.rwait c d a b) s = .next t ∧ t.boot = s.boot ∧ t.tap = s.tap ∧ t.sys.mem = s.sys.mem ∧
        t.sys.pool 2 4 = Pool.give 1 (s.sys.pool 2 4) ∧ tget {} (t.sys.stall (c / 64)).mbox e = {} ∧
        t.sys.core c = { s.sys.core c with run := some { r.setx d (BitVec.ofNat 32 m.data.length) with pc := r.pc + 4 }, ls := (s.sys.core c).ls.write 64 (r.x b).toNat m.data } ∧ ∀ k, k ≠ c → t.sys.core k = s.sys.core k))

/-- Tier 1. A core that may issue captures EMMA's descriptor and operands from its local store at issue, and queues the command (with EXACT=0, when a core
is free, part of its steps may be taken by it, in an order that is open); EZERO and ESWAP queue theirs (one that names no engine has nothing to do),
and EDRAIN one whose address is 4-byte aligned and whose bytes lie in the local store; each goes on at the next word. An EDRAIN in flight that has
still to write the bytes an access names is carried out first with all before it (with none in flight nothing is). EZERO_APPLY and ESWAP_APPLY of an
engine the oldest command names make its ACTIVE bank +0, or exchange its banks, and the command ends when every engine it names has acted. EMMA_END,
ECONV_END and EDRAIN_END carry the oldest command out on its engines (for EDRAIN the banks to the local store) and remove it, its expansion
saturations are counted, and what waits on the engines goes on; a malformed group ends the sliver with 0x10. Completion, that exec answers a next
state with the command's own effect under conditions on the state and the operands alone, is a conclusion here for: emma, ezero, eswap, edrain,
ezeroApply, eswapApply, emmaEnd, econvEnd, edrainEnd. (04_cores_and_engines, 05_number_formats_and_quantisation) -/
def Obligations.EngineCommands : Prop :=
  (∀ (c : Nat) (y : Sys) (r : Run), r.GoesOn (r.pc + 4) → y.retire c r = { y with cores := tset y.cores c { y.core c with run := some { r with pc := r.pc + 4 } } }) ∧
  (∀ (c a n : Nat) (y : Sys) (r : Run), (y.core c).run = some r → (∀ q ∈ r.cmds, q.kind ≠ .drain) → y.interlock c a n = y) ∧
  (∀ (c a p : Nat) (s : State) (r r' : Run) (y : Sys), s.Issues c r → p = (r.x a).toNat → y = s.sys.interlock c 0 0x4000 → (y.core c).run = some r' →
    (p % 4 ≠ 0 ∨ 0x4000 < p + 16 → exec (.emma c a) s = .next { s with sys := s.sys.sliverEnd c 0x10 false }) ∧
    (p % 4 = 0 → p + 16 ≤ 0x4000 → (parseEmma (y.lsRead c p 16) = none → exec (.emma c a) s = .next { s with sys := y.sliverEnd c 0x10 false }) ∧
      (∀ d k, parseEmma (y.lsRead c p 16) = some d → captureEmma (fun a n => y.lsRead c a n) d r'.round r'.seed.toNat r'.tensor.toNat = some k →
        (r'.exact = true → exec (.emma c a) s = .next { s with sys := y.retire c { r' with cmds := r'.cmds ++ [k] } }) ∧
        (r'.exact = false → ∃ n z, n ≤ 2 ∧ (z = y ∨ z = { y with chance := y.chance + 1 }) ∧
          exec (.emma c a) s = .next { s with sys := z.retire c { r' with cmds := r'.cmds ++ [{ k with steal := n }] } })))) ∧
  (∀ (c a m p : Nat) (s : State) (r : Run), s.Issues c r → r.GoesOn (r.pc + 4) → m < 16 → p = (r.x a).toNat →
    (m ≠ 0 → exec (.ezero c m) s = .next (s.putRun c { r with cmds := r.cmds ++ [{ kind := .zero, mask := m }], pc := r.pc + 4 }) ∧
      exec (.eswap c m) s = .next (s.putRun c { r with cmds := r.cmds ++ [{ kind := .swap, mask := m }], pc := r.pc + 4 })) ∧
    (m = 0 → exec (.ezero c m) s = .next (s.putRun c { r with pc := r.pc + 4 }) ∧ exec (.eswap c m) s = .next (s.putRun c { r with pc := r.pc + 4 })) ∧
    (p % 4 = 0 → p + 64 * popcount 4 m ≤ 0x4000 → (∀ q ∈ r.cmds, q.kind ≠ .drain) → exec (.edrain c a m) s =
      .next (s.putRun c { r with cmds := r.cmds ++ [{ kind := .drain, mask := m, addr := p }], pc := r.pc + 4 })) ∧
    (p % 4 ≠ 0 ∨ 0x4000 < p + 64 * popcount 4 m → exec (.edrain c a m) s = .next { s with sys := s.sys.sliverEnd c 0x10 false })) ∧
  (∀ (c e : Nat) (s : State) (r : Run) (q : EngCmd) (rest qs : List EngCmd) (g : Engine), (s.sys.core c).run = some r → e < 4 → r.cmds = q :: rest →
    bitAt q.mask e = true → qs = (if clrBit q.mask e = 0 then rest else { q with mask := clrBit q.mask e } :: rest) → g = r.engines.getD e {} →
    (q.kind = .zero → exec (.ezeroApply c e) s = .next { s with sys := Sys.wakeEngines c (s.putRun c { r with engines := r.engines.set e { g with active := List.replicate 16 0 }, cmds := qs }).sys }) ∧
    (q.kind = .swap → exec (.eswapApply c e) s = .next { s with sys := Sys.wakeEngines c (s.putRun c { r with engines := r.engines.set e { active := g.drain, drain := g.active }, cmds := qs }).sys })) ∧
  (∀ (c : Nat) (s : State) (r : Run) (q : EngCmd) (rest : List EngCmd), (s.sys.core c).run = some r → r.cmds = q :: rest →
    ∀ y, y = ((s.sys.modCore c fun k => k.applyCmd q).modRun c fun r => { r with cmds := rest }).modStall (c / 64) (fun k => { k with expSat := satAdd k.expSat q.expSat }) →
    ∀ p ∈ [(EngKind.mac, Instr.emmaEnd c), (.conv, .econvEnd c), (.drain, .edrainEnd c)], q.kind = p.1 →
      (q.malformed = false → exec p.2 s = .next { s with sys := y.wakeEngines c }) ∧
      (q.malformed = true → exec p.2 s = .next { s with sys := y.sliverEnd c 0x10 false })) ∧
  (∀ (k : Core) (r : Run) (q : EngCmd) (e : Nat) (w : EngWork), k.run = some r → q.malformed = false → q.expSat = 0 → q.steal = 0 → e < 4 →
    (q.kind = .mac ∨ q.kind = .conv → q.mask = 2 ^ e → q.work = [w] → w.engine = e → ∀ g n, (g, n) = (r.engines.getD e {}).mac w →
      k.applyCmd q = { k with run := some { r with engines := r.engines.set e g, accSat := satAdd r.accSat n } } ∧
      g.drain = (r.engines.getD e {}).drain ∧ (w.steps = [] → w.zeroFirst = true → g.active = List.replicate 16 0)) ∧
    (q.kind = .drain → k.applyCmd q = { k with ls := k.ls.write 64 q.addr (r.drainBytes q.mask) }))

/-- Tier 1. A core that may issue, its ECONV descriptor in the local store within R134 and R135: a convolution whose engines, and for the Edge form the
set unit, its sliver declares, and whose operands can be captured, queues its command and goes on; a pooling with a vector unit, for the Edge form the
set unit, and a place for its result writes sixteen channels, the maximum of the included taps in window order or their sum through the tree divided
by their number, to the local store, and goes on; either with an empty output makes no step and records 0x11. A descriptor outside the rules ends the
sliver with 0x10. Completion, that exec answers a next state with the command's own effect under conditions on the state and the operands alone, is a
conclusion here for: econvMacMain, econvMacEdge, econvMax, econvAvg. (06_convolution_and_image_operators) -/
def Obligations.ConvolutionCommands : Prop :=
  ∀ (c a p : Nat) (s : State) (r r' : Run) (y : Sys) (bs : List Byte) (d : Econv) (g : Tg), s.Issues c r → y = s.sys.interlock c 0 0x4000 →
    (y.core c).run = some r' → p = (r'.x a).toNat → bs = y.lsRead c p 64 → d = econvFields bs → g = y.tg r'.tg →
    (∀ k ∈ [Instr.econvMacMain c a, .econvMacEdge c a, .econvMax c a, .econvAvg c a],
      p % 4 ≠ 0 ∨ 0x4000 < p + 64 ∨ econvReserved bs = false ∨ d.ok = false → exec k s = .next { s with sys := y.sliverEnd c 0x10 false }) ∧
    (p % 4 = 0 → p + 64 ≤ 0x4000 → econvReserved bs = true → d.ok = true →
      (d.op = 0 → ∀ k, k = (if d.edge then Instr.econvMacEdge c a else .econvMacMain c a) →
        (g.eng < popcount 4 d.engines ∨ (d.edge = true ∧ g.setgs = false) → exec k s = .next { s with sys := y.sliverEnd c 0x10 false }) ∧
        (popcount 4 d.engines ≤ g.eng → (d.edge = true → g.setgs = true) →
          (d.empty = true → exec k s = .next { s with sys := y.retire c { r' with codes := statusJoin r'.codes 0x11 } }) ∧
          (d.empty = false → ∀ q, d.capture (y.lsGet c) (y.lbGet c d.lbPool true) r'.round r'.seed.toNat r'.tensor.toNat = some q →
            (r'.exact = true → exec k s = .next { s with sys := y.retire c { r' with cmds := r'.cmds ++ [q] } }) ∧
            (r'.exact = false → ∃ n z, n ≤ 2 ∧ (z = y ∨ z = { y with chance := y.chance + 1 }) ∧
              exec k s = .next { s with sys := z.retire c { r' with cmds := r'.cmds ++ [{ q with steal := n }] } })))) ∧
      (∀ k, (d.op = 1 ∧ k = Instr.econvMax c a) ∨ (d.op = 2 ∧ k = Instr.econvAvg c a) →
        (g.vec = false ∨ (d.edge = true ∧ g.setgs = false) ∨ 0x4000 < d.out + 64 → exec k s = .next { s with sys := y.sliverEnd c 0x10 false }) ∧
        (g.vec = true → (d.edge = true → g.setgs = true) → d.out + 64 ≤ 0x4000 →
          (d.empty = true → exec k s = .next { s with sys := y.retire c { r' with codes := statusJoin r'.codes 0x11 } }) ∧
          (d.empty = false → ∀ tg, d.tensorGroup (y.lsGet c) = some tg → ∀ el : Nat → List AIn, (el = fun q =>
              ((List.range (d.kh * d.kw)).filter d.included).map fun k => d.aEl (y.lbGet c d.lbPool true) tg d.ox k (d.chBase + q)) →
            (∀ q < 16, d.chBase + q < d.c → ∀ x ∈ el q, x ≠ .out ∧ x ≠ .broken) →
            exec k s = .next { s with sys := (y.lsWrite c d.out (laneBytes ((List.range 16).map fun q => if d.c ≤ d.chBase + q then 0 else poolOf d.op ((el q).map d.poolVal)))).retire c r' }))))

/-- Tier 1. On a core that may issue, with no EDRAIN in flight and operands 4-byte aligned and wholly in the local store: each lane operation of two
operands (VADD, VSUB, VMUL, VMIN, VMAX, VDIV, VIADD, VIMUL), each of one (VEXP2, VRCP, VRSQ, VCVTI, VCVTF) and each reduction (VSUM, VMAXR: lane 0 the
value, the others +0) writes its 64 bytes to the local store; VSTA writes VA there; VFMA and VLDA write VA. The instruction goes on at the next word.
An address a form uses that is misaligned or reaches past the local store ends the sliver with 0x10. Completion, that exec answers a next state with
the command's own effect under conditions on the state and the operands alone, is a conclusion here for: vadd, vsub, vmul, vmin, vmax, vdiv, viadd,
vimul, vexp2, vrcp, vrsq, vcvti, vcvtf, vsum, vmaxr, vsta, vlda, vfma. (04_cores_and_engines) -/
def Obligations.VectorRows : Prop :=
  ∀ (c d a b : Nat) (s : State) (r : Run) (z : Sys) (u v : List Nat) (f g : Nat), s.Issues c r → z = s.sys → f = (r.x d).toNat → g = (r.x a).toNat →
    u = (List.range 16).map (wordAt (z.lsRead c g 64)) → v = (List.range 16).map (wordAt (z.lsRead c (r.x b).toNat 64)) →
    (∀ p ∈ [(Instr.vadd c d a b, fAdd), (.vsub c d a b, fSub), (.vmul c d a b, fMul), (.vmin c d a b, fMin), (.vmax c d a b, fMax), (.vdiv c d a b, fDiv),
        (.viadd c d a b, fun x y => (x + y) % 2 ^ 32), (.vimul c d a b, fun x y => x * y % 2 ^ 32)],
      (lanesOk f = true → lanesOk g = true → lanesOk (r.x b).toNat = true → (∀ q ∈ r.cmds, q.kind ≠ .drain) →
        exec p.1 s = .next { s with sys := (z.lsWrite c f (((u.zip v).map fun q => p.2 q.1 q.2).flatMap fun w => leBytes 4 (w % 2 ^ 32))).retire c r }) ∧
      (lanesOk f = false ∨ lanesOk g = false ∨ lanesOk (r.x b).toNat = false → exec p.1 s = .next { s with sys := z.sliverEnd c 0x10 false })) ∧
    (∀ p ∈ [(Instr.vexp2 c d a, u.map fExp2), (.vrcp c d a, u.map fRcp), (.vrsq c d a, u.map fRsq), (.vcvti c d a, u.map fCvtI), (.vcvtf c d a, u.map fCvtF),
        (.vsum c d a, tree fAdd 0 u :: List.replicate 15 0), (.vmaxr c d a, tree fMax 0 u :: List.replicate 15 0)],
      (lanesOk f = true → lanesOk g = true → (∀ q ∈ r.cmds, q.kind ≠ .drain) →
        exec p.1 s = .next { s with sys := (z.lsWrite c f (p.2.flatMap fun w => leBytes 4 (w % 2 ^ 32))).retire c r }) ∧
      (lanesOk f = false ∨ lanesOk g = false → exec p.1 s = .next { s with sys := z.sliverEnd c 0x10 false })) ∧
    (lanesOk f = true → (∀ q ∈ r.cmds, q.kind ≠ .drain) →
      exec (.vsta c d) s = .next { s with sys := (z.lsWrite c f ((r.va.map (·.toNat)).flatMap fun w => leBytes 4 (w % 2 ^ 32))).retire c r }) ∧
    (lanesOk g = true → (∀ q ∈ r.cmds, q.kind ≠ .drain) →
      exec (.vlda c a) s = .next { s with sys := z.retire c { r with va := u.map (BitVec.ofNat 32) } } ∧
      (lanesOk (r.x b).toNat = true → exec (.vfma c a b) s = .next { s with sys := z.retire c { r with va := (((u.zip v).zip r.va).map fun p => fFma p.1.1 p.1.2 p.2.toNat).map (BitVec.ofNat 32) } })) ∧
    (∀ p, lanesOk p = (decide (p % 4 = 0) && decide (p + 64 ≤ 0x4000)))

/-- Tier 1. On a core that may issue, with an aligned, readable descriptor within R86 or R90, inputs and outputs inside their regions and no granule of
the pool faulty: SINT writes the keys of A also in B and SMRG all elements of both, for sorted inputs; STOPK the K largest of A, K from 1 to 256; SCMP
the elements whose mask byte is not 0; the count of output elements goes to xd and the elements examined to SET_CNT. GATH writes B at each index and
zeros where one is out of range, SCAT the elements of B at the indices that are in range, SCADD adds them in FP32 in index order, or stages them for
the end of the task group under EXACT to the pool; indices out of range are counted. Each goes on at the next word. Completion, that exec answers a
next state with the command's own effect under conditions on the state and the operands alone, is a conclusion here for: sint, smrg, stopk, scmp,
gath, scat, scadd. (04_cores_and_engines) -/
def Obligations.SetAndGatherRows : Prop :=
  (∀ (c d a p : Nat) (s : State) (r r' : Run) (y : Sys) (q : SetD), s.Issues c r → p = (r.x a).toNat → p % 4 = 0 → p + 20 ≤ 0x4000 →
    y = s.sys.interlock c 0 0x4000 → (y.core c).run = some r' → parseSet (y.lsRead c p 20) = some q → q.a.ok (q.nA * q.size) = true →
    y.placeBad c q.a 0 (q.nA * q.size) = false → ∀ ea, ea = q.elems q.nA (y.placeRead c q.a 0 (q.nA * q.size)) →
    (q.b.ok (q.nB * q.size) = true → y.placeBad c q.b 0 (q.nB * q.size) = false → ∀ eb, eb = q.elems q.nB (y.placeRead c q.b 0 (q.nB * q.size)) →
      q.sorted ea = true → q.sorted eb = true →
      ∀ x ∈ [(Instr.sint c d a, q.inter (ea.length + eb.length) ea eb), (.smrg c d a, ea.merge eb (fun x z => decide (q.key x ≤ q.key z)))],
        q.out.ok (q.bytes x.2).length = true → exec x.1 s = .next { s with sys := (y.placeWrite c q.out 0 (q.bytes x.2)).retire c { r'.setx d (BitVec.ofNat 32 x.2.length) with setCnt := ea.length + eb.length } }) ∧
    (q.out.ok 0 = true →
      (∀ es, es = q.top ea → 1 ≤ q.k → q.k ≤ 256 → q.out.ok (q.bytes es).length = true → exec (.stopk c d a) s = .next { s with sys := (y.placeWrite c q.out 0 (q.bytes es)).retire c { r'.setx d (BitVec.ofNat 32 es.length) with setCnt := ea.length } }) ∧
      (∀ es, es = ((ea.zip (y.lsRead c q.nB q.nA)).filter fun p => p.2 != 0).map (·.1) → q.nB + q.nA ≤ 0x4000 → q.nB < 0x4000 →
        q.out.ok (q.bytes es).length = true → exec (.scmp c d a) s = .next { s with sys := (y.placeWrite c q.out 0 (q.bytes es)).retire c { r'.setx d (BitVec.ofNat 32 es.length) with setCnt := ea.length } }))) ∧
  (∀ (c a p : Nat) (s : State) (r r' : Run) (y : Sys) (q : GsD) (is : List Nat), s.Issues c r → p = (r.x a).toNat → p % 4 = 0 → p + 16 ≤ 0x4000 →
    y = s.sys.interlock c 0 0x4000 → (y.core c).run = some r' → parseGs (y.lsRead c p 16) = some q → y.placeBad c q.a 0 q.idxBytes = false →
    q.a.ok q.idxBytes = true → is = q.indices (y.placeRead c q.a 0 q.idxBytes) →
    (q.out.ok (q.n * q.size) = true → q.b.ok 0 = true → (∀ i ∈ is, q.b.inRange q.size i = true → y.placeBad c q.b (i * q.size) q.size = false) →
      exec (.gath c a) s = .next { s with sys := ((y.placeWrite c q.out 0 (is.flatMap fun i => if q.b.inRange q.size i then y.placeRead c q.b (i * q.size) q.size else List.replicate q.size 0)).countGs (c / 64) (is.filter fun i => !q.b.inRange q.size i).length).retire c r' }) ∧
    (q.b.ok (q.n * q.size) = true → q.out.ok 0 = true → y.placeBad c q.b 0 (q.n * q.size) = false →
      ∀ bs n, bs = y.placeRead c q.b 0 (q.n * q.size) → n = (is.filter fun i => !q.out.inRange q.size i).length →
      exec (.scat c a) s = .next { s with sys := ((is.zipIdx.foldl (fun y p => if q.out.inRange q.size p.1 then y.placeWrite c q.out (p.1 * q.size) ((bs.drop (p.2 * q.size)).take q.size) else y) y).countGs (c / 64) n).retire c r' } ∧
      (q.size = 4 → ∀ good, good = is.zipIdx.filter (fun p => q.out.inRange 4 p.1) →
        (r'.exact = true → q.out.pool = true → exec (.scadd c a) s = .next { s with sys := ((y.modTg r'.tg fun g => { g with staged := g.staged ++ good.map fun p => { sliver := r'.sliver, pool := true, stall := c / 64, addr := q.out.addr + 4 * p.1, value := BitVec.ofNat 32 (wordAt bs p.2) } }).countGs (c / 64) n).retire c r' }) ∧
        (r'.exact = false ∨ q.out.pool = false → (r'.exact = false → ∀ p ∈ good, y.placeBad c q.out (4 * p.1) 4 = false) → exec (.scadd c a) s = .next { s with sys := ((good.foldl (fun y p => y.placeWrite c q.out (4 * p.1) (leBytes 4 (fAdd (leNat (y.placeRead c q.out (4 * p.1) 4)) (wordAt bs p.2)))) y).countGs (c / 64) n).retire c r' }))))

/-- Tier 1. On a core that may issue and is no victim, with a descriptor at a 64-byte aligned place of the local store within R308, local ranges inside
their spaces and fewer than four transfers of the core: DMA_COPY, DMA_ZC_STORE and DMA_ZC_LOAD start a transfer whose ticket goes to xd; DMA_CONVERT
one whose quantisation record, readable and well formed, lies at a multiple of 32, a tally of the record opened in its task group. A DMA_COPY from the
peer to a mailbox entry marks the entry PENDING and starts as a remote request; an entry that is PENDING or FULL ends the sliver with 0x10. With four
transfers the core waits. A started transfer takes a slot, joins the DMA transfers under the next order number, asks for the DMA class when its agent
holds none, and moves the sliver's ticket on. DMA_TICKET_END of a transfer that has its data carries it out; it leaves, its slot returns and what
waits on it goes on, or its sliver ends with the status of the fault. Completion, that exec answers a next state with the command's own effect under
conditions on the state and the operands alone, is a conclusion here for: dmaCopy, dmaConvert, dmaZcStore, dmaZcLoad, dmaTicketEnd.
(13_commands_jobs_and_conservation, 06_convolution_and_image_operators, 05_number_formats_and_quantisation) -/
def Obligations.DmaRows : Prop :=
  (∀ (c d a p : Nat) (s : State) (r r' : Run) (y : Sys) (x : Xfer), s.Issues c r → r.pre = none → p = (r.x a).toNat →
    (∀ k ∈ [Instr.dmaCopy c d a, .dmaConvert c d a, .dmaZcStore c d a, .dmaZcLoad c d a], p % 64 ≠ 0 ∨ 0x4000 < p + 64 →
      exec k s = .next { s with sys := s.sys.sliverEnd c 0x10 false }) ∧
    (p % 64 = 0 → p + 64 ≤ 0x4000 → y = s.sys.interlock c p 64 → (y.core c).run = some r' →
      x = { id := 0, stall := c / 64, core := c, ticket := 0, tg := r'.tg, sliver := r'.sliver, ctx := (y.tg r'.tg).ctx, op := fld (wordAt (y.lsRead c p 64) 0) 0 3, words := (List.range 16).map (wordAt (y.lsRead c p 64)) } → x.formOk = true →
      (∀ k ∈ [(0, Instr.dmaCopy c d a), (1, .dmaConvert c d a), (2, .dmaZcStore c d a), (3, .dmaZcLoad c d a)], x.op = k.1 →
        4 ≤ (y.dma.xfers.filter fun q => q.core == c && !q.cancelled).length → exec k.2 s = .next { s with sys := y.waitOn c r' (.dmaSlot d p) }) ∧
      ((y.dma.xfers.filter fun q => q.core == c && !q.cancelled).length < 4 →
        (∀ k ∈ [(0, Instr.dmaCopy c d a), (2, .dmaZcStore c d a), (3, .dmaZcLoad c d a)], x.op = k.1 → y.remoteOf x.ctx x = none →
          (x.rangesOk x.rowBytes = true → exec k.2 s = .next { s with sys := y.startXfer c d x }) ∧
          (x.rangesOk x.rowBytes = false → exec k.2 s = .next { s with sys := y.sliverEnd c 0x10 false })) ∧
        (x.op = 0 → ∀ (e : Nat × Nat) (m : Mbox), y.remoteOf x.ctx x = some e → m = tget {} (y.stall (c / 64)).mbox e.1 →
          (m.pending = true ∨ m.full = true → exec (.dmaCopy c d a) s = .next { s with sys := y.sliverEnd c 0x10 false }) ∧
          (m.pending = false → m.full = false → exec (.dmaCopy c d a) s = .next { s with sys := (y.modStall (c / 64) fun k => { k with mbox := tset k.mbox e.1 { m with pending := true, tag := y.dma.next % 2 ^ 16, owner := some (r'.tg, r'.sliver) } }).startXfer c d { x with op := 4 } })) ∧
        (x.op = 1 → x.aux % 32 = 0 → ∀ z q qr, y.vread (some (c / 64)) x.ctx x.aux 96 = (z, .ok q) → parseQRec q = some qr →
          x.rangesOk (4 * qr.channels) = true → (z.tg r'.tg).tallies = [] → exec (.dmaConvert c d a) s = .next { s with sys := (z.modTg r'.tg fun g => { g with tallies := g.tallies ++ [{ qrec := x.aux, action := qr.action, thresh := qr.thresh, hasWide := qr.wideAddr != 0 }] }).startXfer c d { x with qrec := q } })))) ∧
  (∀ (c d : Nat) (x : Xfer) (y : Sys) (r : Run), (y.core c).run = some r → x.op ≠ 0 → y.holds (.dma (c / 64)) = true → r.GoesOn (r.pc + 4) →
    ∃ z, z = y.startXfer c d x ∧ z.dma.next = y.dma.next + 1 ∧ z.pool 7 (c / 64) = Pool.take 1 (y.pool 7 (c / 64)) ∧ z.mem.dram = y.mem.dram ∧ z.girth = y.girth ∧
      z.core c = { y.core c with run := some { { r with wait := .none, tickets := (r.tickets + 1) % 2 ^ 32 }.setx d (BitVec.ofNat 32 r.tickets) with pc := r.pc + 4 } }) ∧
  (∀ (c t : Nat) (s : State) (x : Xfer) (y : Sys), s.sys.dma.xfers.find? (fun x => x.core == c && x.ticket == t && s.sys.xferReady x) = some x →
    ∀ f ∈ [(0, Sys.runCopy x s.sys), (1, Sys.runConvert x s.sys), (2, Sys.runZcStore x s.sys), (3, Sys.runZcLoad x s.sys), (4, Sys.runRemote x s.sys)], x.op = f.1 →
      (f.2 = (y, .ok ()) → exec (.dmaTicketEnd c t) s = .next { s with sys := ((y.modDma fun d => { d with xfers := d.xfers.filter fun q => q.id != x.id }).freeSlot x.stall).wakeXfers c }) ∧
      (∀ e, f.2 = (y, .error e) → exec (.dmaTicketEnd c t) s = .next { s with sys := y.failXfer x.id e }))

/-- Tier 1. A SEMACQ of a semaphore of no token ends its sliver with 0x10; of one nobody waits on and with enough free tokens it takes one, or all, and
goes on; else its request joins in arrival order and, while its holders run, the core waits. SEMREL returns the sliver's oldest unreleased request's
tokens, and ends the sliver with 0x10 when it holds none. SEM_GRANT gives the oldest request, once enough tokens are free, its tokens: a waiting
sliver goes on, a job's packet completes with OK. A SEMACQ_PACKET with tokens free completes with OK at once and one of a semaphore of no token with
FORMAT, else it waits; a SEMREL_PACKET returns its job's tokens and completes with OK, or with FORMAT when it holds none. Completion, that exec
answers a next state with the command's own effect under conditions on the state and the operands alone, is a conclusion here for: semacq, semrel,
semGrant, semAcquirePacket, semReleasePacket. (13_commands_jobs_and_conservation, 12_bridle_scheduler) -/
def Obligations.SemaphoreRows : Prop :=
  (∀ (c a n : Nat) (s : State) (r : Run) (m : Sem), s.Issues c r → r.GoesOn (r.pc + 4) → n = (r.x a).toNat % 4096 → m = s.sys.sem n → s.Undisturbed r →
    (m.total = 0 → exec (.semacq c a) s = .next { s with sys := s.sys.sliverEnd c 0x10 false }) ∧
    (∀ q : SemReq, q = ⟨.sliver r.tg r.sliver, bitAt (r.x a).toNat 12⟩ → m.total ≠ 0 →
      (m.waits = [] → m.need q ≤ m.free → ∃ y : Sys, exec (.semacq c a) s = .next { s with sys := y } ∧
        y.sem n = { m with holds := m.holds ++ [{ who := .sliver r.tg r.sliver, n := m.need q }] } ∧
        y.pool 4 0 = Pool.take (m.need q) (s.sys.pool 4 0) ∧ y.core c = { s.sys.core c with run := some { r with pc := r.pc + 4 } } ∧
        y.mem = s.sys.mem) ∧
      (m.waits ≠ [] ∨ m.free < m.need q → (∀ h ∈ m.holds, s.sys.holderRuns h.who = true) → s.sys.bridle.holdLimit ≠ 0 → ∃ y : Sys, exec (.semacq c a) s = .next { s with sys := y } ∧
        y.sem n = { m with waits := m.waits ++ [q] } ∧ y.core c = { s.sys.core c with run := some { r with wait := .sem n } } ∧ y.cons = s.sys.cons))) ∧
  (∀ (c a n : Nat) (s : State) (r : Run), s.Issues c r → n = (r.x a).toNat % 4096 →
    (∀ h, (s.sys.sem n).holds.find? (fun h => h.who == .sliver r.tg r.sliver) = some h → exec (.semrel c a) s = .next { s with sys := ((s.sys.modSem n fun k => { k with holds := k.holds.erase h }).modPool 4 0 (Pool.give h.n)).retire c r }) ∧
    ((s.sys.sem n).holds.find? (fun h => h.who == .sliver r.tg r.sliver) = none →
      exec (.semrel c a) s = .next { s with sys := s.sys.sliverEnd c 0x10 false })) ∧
  (∀ (n : Nat) (s : State) (q : SemReq) (rest : List SemReq) (m : Sem) (y : Sys), m = s.sys.sem n → m.waits = q :: rest → m.total ≠ 0 → m.need q ≤ m.free →
    y = s.sys.countLends ((s.sys.modSem n fun k => { k with waits := rest, holds := k.holds ++ [{ who := q.who, n := m.need q }] }).modPool 4 0
      (Pool.take (m.need q))) →
    (∀ t k, q.who = .sliver t k → exec (.semGrant n) s = .next { s with sys := (y.semWake t k).limitZero n }) ∧
    (∀ j w, q.who = .job j → y.semPacketOf n j = some w → exec (.semGrant n) s = .next { s with sys := (y.packetComplete w 0x00 0).limitZero n })) ∧
  (∀ (q n : Nat) (s : State) (p : Pkt) (rest : List Pkt) (y : Sys), (s.sys.queue q).slots = p :: rest → p.type = 5 → s.sys.takeIn q = (y, some p) →
    n = fld (p.word 1) 0 12 →
    (bitAt (p.word 1) 13 = false → (y.sem n).total = 0 → exec (.semAcquirePacket q) s = .next { s with sys := y.packetComplete q 0x10 0 }) ∧
    (bitAt (p.word 1) 13 = false → p.reservedOk [1] = true → fld (p.word 1) 14 18 = 0 → (y.sem n).total ≠ 0 → ∀ z, z = Sys.semRequest n { who := .job p.job, all := bitAt (p.word 1) 12 }
        (Sys.startHead q (some y.bridle.seq) { y with bridle := { y.bridle with seq := y.bridle.seq + 1 } }) →
      exec (.semAcquirePacket q) s = .next { s with sys := if (z.sem n).waits.length = 1 ∧ (z.semGrant n).2.isSome then (z.semGrant n).1.packetComplete q 0x00 0 else z.limitZero n }) ∧
    (bitAt (p.word 1) 13 = true → p.reservedOk [1] = true → fld (p.word 1) 14 18 = 0 → ∀ z b, y.semRelease n (.job p.job) = (z, b) →
      exec (.semReleasePacket q) s = .next { s with sys := z.packetComplete q (if b then 0x00 else 0x10) 0 }))

/-- Tier 1. A head RASTER packet whose pass descriptor and draws can be read and keep to their rules joins the waiting passes. RASTER_PASS_START, no pass
active, gives the slot to the next pass of a RUNNING job, clears its surfaces when it starts, hands out its vertex task group and asks for the front
end's permits. PRIMITIVE_PROCESS takes the next primitive of a shaded draw: with no primitive left the next draw follows; with too few free pages the
pass waits for a grant, counted and raised; else its pieces are binned. GROW_WAIT_EXPIRE abandons a waiting pass with 0x51, unless enough pages have
become free. TILE_SLICE_CONSUME of an owner with work issues on; of one without takes at most 64 entries from the front of a tile's list.
FRAGMENT_RETIRE blends the kept samples of the oldest fragment of its quad, its batch shaded, and takes it off the issued ones. A grant adds pages to
the selected domain. TEXTURE_SAMPLE of a unit that holds its permits leaves the unit's result; TEXTURE_UNIT_IDLE returns the unit's permits unless a
sample waits for them. With RASTER's clock stopped a pass start and a sample wait, and the exit from the low state begins. Completion, that exec
answers a next state with the command's own effect under conditions on the state and the operands alone, is a conclusion here for: rasterPacket,
rasterPassStart, primitiveProcess, growWaitExpire, tileSliceConsume, fragmentRetire, rasterGrant, textureSample, textureUnitIdle. (08_raster_pipeline,
13_commands_jobs_and_conservation) -/
def Obligations.RasterRows : Prop :=
  (∀ (q : Nat) (s : State) (p : Pkt) (rest : List Pkt) (y z w : Sys) (bs : List Byte) (g : Pass), (s.sys.queue q).slots = p :: rest → p.type = 2 →
    s.sys.takeIn q = (y, some p) → p.reservedOk [2, 3] = true → y.vread none (y.queue q).ctx (p.word 2 + 2 ^ 32 * p.word 3) 128 = (z, .ok bs) →
    g = { queue := q, ctx := (y.queue q).ctx, job := p.job, desc := bs } →
    (passOk bs = false ∨ (p.word 2 + 2 ^ 32 * p.word 3) % 64 ≠ 0 → exec (.rasterPacket q) s = .next { s with sys := z.packetComplete q 0x10 0 }) ∧
    (passOk bs = true → (p.word 2 + 2 ^ 32 * p.word 3) % 64 = 0 →
      z.seq (List.range g.draws) (fun n y => match y.readDraw g n with | (y, .ok _) => (y, .ok ()) | (y, .error e) => (y, .error e)) = (w, .ok ()) →
      exec (.rasterPacket q) s = .next { s with sys := ((w.startHead q none).modRaster fun r => { r with waiting := r.waiting ++ [g] }).preemptPass })) ∧
  (∀ (s : State) (p g p' : Pass) (b : Bool) (y z w v : Sys) (f : Bool), s.sys.raster.active = none → s.sys.nextPass = some (p, b) → s.sys.domainUp 10 = true →
    y = (if b then s.sys.modRaster fun r => { r with parked := none } else (s.sys.modRaster fun r => { r with waiting := r.waiting.erase p }).modPool 3 2 (Pool.take 1)) →
    g = { p with started := true } → (if p.started then (y.setActive g, .ok ()) else (y.setActive g).clearPass g) = (z, .ok ()) → z.issueVs p.draw g = (w, .ok p') →
    w.askNow { holds := [{ who := .rasterFront, cost := w.cost 16, ctx := p'.ctx }], prio := w.passPrio p', act := .rasterFront } = (v, f) →
    exec .rasterPassStart s = .next { s with sys := (v.setActive { p' with front := f }).preemptPass }) ∧
  (∀ (s : State) (k : Pass × Bool), s.sys.raster.active = none → s.sys.nextPass = some k → s.sys.domainUp 10 = false → exec .rasterPassStart s = .next { s with sys := s.sys.heldFor }) ∧
  (∀ (s : State) (p p1 p2 : Pass) (d : DrawR) (y z : Sys), s.sys.raster.active = some p → p.fail = none → p.front = true → p.frontDone = false →
    p.stopping = false → (s.sys.job p.job).st = 2 → p.shaded.contains p.draw = true → s.sys.readDraw p p.draw = (y, .ok d) → y.issueVs (p.draw + 1) p = (z, .ok p1) →
    (∀ w, z.assemble d (d.count + 1) p1 = (w, .ok (p2, none)) → exec .primitiveProcess s = .next { s with sys := w.settlePass { p2 with draw := p1.draw + 1, prim := 0, strip := [], parity := false, frontDone := decide (p2.draws ≤ p1.draw + 1) } }) ∧
    (∀ w v vs tri recs, z.assemble d (d.count + 1) p1 = (w, .ok (p2, some vs)) →
      vs.foldl (fun st v => match st with | (y, .error e) => (y, .error e) | (y, .ok l) => match y.readVert p1 d v with
        | (y, .error e) => (y, .error e) | (y, .ok t) => (y, .ok (l ++ [t]))) (w, (.ok [] : Except Nat (List Vert))) = (v, .ok tri) →
      recs = (((p1.pieces tri).zipIdx.map fun q => p1.setup p1.seq q.2 p1.draw vs q.1).filter fun r => decide (r.area ≠ 0) &&
        !(d.cullBack && !(decide (0 < r.area) == d.frontCw)) && !(d.cullFront && (decide (0 < r.area) == d.frontCw))).map (fun r => (r, p1.tilesOf r)) →
      ∀ ps, ps = recs.filter (fun q => !q.2.isEmpty) → ∀ k, k = v.passDom p1 →
      ((v.pool 5 k).free < p1.pagesNeeded ps → p1.growing = false → exec .primitiveProcess s = .next { s with sys := Sys.settlePass { p1 with growing := true, need := p1.pagesNeeded ps } ((v.modRaster fun r => { r with grows := min 0xFFFFFFFF (r.grows + 1) }).rasterEvent 0) }) ∧
      (p1.pagesNeeded ps ≤ (v.pool 5 k).free → ∀ u as, v.pagesTake k (p1.pagesNeeded ps) = (u, as) → ∀ b, b = u.bin ps { p2 with growing := false, seq := p1.seq + 1, pages := p2.pages ++ as } as → exec .primitiveProcess s = .next { s with sys := b.1.settlePass b.2 }))) ∧
  (∀ (s : State) (p : Pass), s.sys.raster.active = some p →
    (p.growing = true → p.need ≤ (s.sys.pool 5 (s.sys.passDom p)).free → exec .growWaitExpire s = .next { s with sys := s.sys.setActive { p with growing := false } }) ∧
    (p.growing = true → (s.sys.pool 5 (s.sys.passDom p)).free < p.need → exec .growWaitExpire s = .next { s with sys := Sys.passStop p true 0x51 ((s.sys.modRaster fun r => { r with abandoned := min 0xFFFFFFFF (r.abandoned + 1) }).rasterEvent 1) }) ∧
    (p.growing = false → exec .growWaitExpire s = .next s)) ∧
  (∀ (n key : Nat) (s : State) (p : Pass), n < 16 → s.sys.raster.active = some p → p.fail = none → s.sys.holds (.tileOwner n) = true → ∀ o, o = tget {} p.owners n →
    (o.work ≠ [] → exec (.tileSliceConsume n) s = .next { s with sys := Sys.settleRes p (s.sys.issueAll n p) }) ∧
    (o.work = [] → p.stopping = false → o.lastTile ≤ key →
      ((p.tiles.filter fun t => tileOwnerOf t.1 == n && !t.2.entries.isEmpty).map (·.1)).find? (fun k => decide (o.lastTile ≤ k)) = some key →
      (∃ (y : Sys) (p' : Pass), exec (.tileSliceConsume n) s = .next { s with sys := Sys.settleRes p' (y.issueAll n p') } ∧ (tget {} p'.owners n).lastTile = key + 1 ∧
        (tget {} p'.tiles key).entries = (tget {} p.tiles key).entries.drop 64) ∨
      (∃ (y : Sys) (p' : Pass) (e : Nat), exec (.tileSliceConsume n) s = .next { s with sys := y.passStop p' true e }))) ∧
  (∀ (n qx qy keep : Nat) (cs ds ss : List Nat) (s : State) (p : Pass) (o : Owner) (f : Frag) (rest : List Frag) (d : DrawR) (y z : Sys), n < 16 →
    s.sys.raster.active = some p → p.fail = none → o = tget {} p.owners n → o.record qx qy = f :: rest → p.shots.contains (f.draw, f.batch) = true → s.sys.readDraw p f.draw = (y, .ok d) → f.late = false →
    ss = (f.samples.zipIdx.filter fun k => bitAt keep k.1).map (·.1) →
    y.seq ss (fun k y => y.blendSample p d (2 * f.qx + k / p.samples % 2) (2 * f.qy + k / p.samples / 2) (k % p.samples)
      ((List.range 4).map fun i => cs.getD (4 * (k / p.samples) + i) 0)) = (z, .ok ()) →
    ∀ g, g = { p with owners := tset p.owners n { o with issued := o.issued.erase f, stalled := o.stalled && !o.headAt qx qy } } →
    exec (.fragmentRetire n qx qy cs keep ds) s = .next { s with sys := Sys.settleRes g (z.issueAll n g) }) ∧
  (∀ (n : Nat) (s : State), s.sys.glob.config ≠ 2 → n < 2 ^ 24 → ∀ d a, d = s.sys.raster.sel → a = s.sys.raster.grantAddr →
    (a % pageBytes = 0 → d < s.sys.bridle.doms.length → s.sys.mem.inDom d a (n * pageBytes) = true → exec (.rasterGrant n) s = .next { s with sys := ((s.sys.modRaster fun r => { r with pools := tmod {} r.pools d fun p => p.grant a n }).modPool 5 d (Pool.grow n)).growCheck }) ∧
    (a % pageBytes ≠ 0 ∨ s.sys.bridle.doms.length ≤ d ∨ s.sys.mem.inDom d a (n * pageBytes) = false → exec (.rasterGrant n) s = .next s.rejected)) ∧
  (∀ (n draw idx : Nat) (uv out : List Nat) (s : State) (p : Pass) (d : DrawR) (y z w : Sys) (bs : List Byte), n < 32 →
    (s.sys.raster.active = some p → s.sys.domainUp 10 = true → p.fail = none → s.sys.holds (.texture n) = true → s.sys.readDraw p draw = (y, .ok d) →
      y.vread none p.ctx (d.tex + 32 * (idx % 64)) 32 = (z, .ok bs) → z.sampleQuad p.ctx (parseTex bs) (uv.map (· % 2 ^ 32)) = (w, .ok out) →
      exec (.textureSample n draw idx uv) s = .next { s with sys := { w with raster := { w.raster with texOut := tset w.raster.texOut n out } } }) ∧
    (s.sys.raster.texHeld.any (fun q => q.1 == n) = false → exec (.textureUnitIdle n) s = .next { s with sys := (s.sys.dropHold (.texture n)).unrequest (.texture n) }) ∧
    (s.sys.raster.texHeld.any (fun q => q.1 == n) = true → exec (.textureUnitIdle n) s = .next s))

/-- Tier 1. A head vision packet whose descriptor can be read, keeps to its form and whose regions keep to their domain's rules joins the block queue
under the next number when a slot is free, under the row of its kind (FLOW, STEREO, FEATURE); else it completes with FORMAT. VISION_COMMAND_START
gives a free engine to the waiting command of the highest priority of its kind, and runs it when its permits are granted; its first run clears its
flag line. FLAG_STRIPE_ADVANCE of a running command writes the next stripe's output (for FEATURE the features), sets STRIPES one higher in the flag
line, releases the task groups that waited for it (one queued in the same cycle too), and completes the command with its last stripe. VISION_STOP of a
command told to stop leaves its progress in the flag line and the command waits again; of one whose job is cancelled it ends FAILED; of no other does
it anything. Completion, that exec answers a next state with the command's own effect under conditions on the state and the operands alone, is a
conclusion here for: visionFlow, visionStereo, visionFeature, visionCommandStart, flagStripeAdvance, visionStop. (09_vision_engines) -/
def Obligations.VisionRows : Prop :=
  (∀ (q k : Nat) (s : State) (p : Pkt) (rest : List Pkt) (y z : Sys) (bs : List Byte) (c : VCmd) (i : Instr), (s.sys.queue q).slots = p :: rest → p.type = 3 →
    (∃ w, s.sys.vread none (s.sys.queue q).ctx (p.word 2 + 2 ^ 32 * p.word 3) 128 = (w, .ok bs)) → k = fld (wordAt bs 0) 0 2 →
    i = (if k = 1 then .visionStereo q else if k = 2 then .visionFeature q else .visionFlow q) → s.sys.takeIn q = (y, some p) → p.reservedOk [2, 3] = true →
    y.vread none (s.sys.queue q).ctx (p.word 2 + 2 ^ 32 * p.word 3) 128 = (z, .ok bs) →
    c = { id := z.vision.next, queue := q, ctx := (s.sys.queue q).ctx, job := p.job, desc := bs } →
    (c.formOk = false ∨ (p.word 2 + 2 ^ 32 * p.word 3) % 64 ≠ 0 → exec i s = .next { s with sys := z.packetComplete q 0x10 0 }) ∧
    (c.formOk = true → (p.word 2 + 2 ^ 32 * p.word 3) % 64 = 0 → ∀ w,
      (z.regionsOk c = (w, false) → exec i s = .next { s with sys := w.packetComplete q 0x10 0 }) ∧
      (z.regionsOk c = (w, true) → ((w.pool 3 1).free = 0 → exec i s = .next { s with sys := w }) ∧
        ((w.pool 3 1).free ≠ 0 → exec i s = .next { s with sys := (Sys.startHead q (some c.id) ((w.modPool 3 1 (Pool.take 1)).modVision fun v => { v with cmds := v.cmds ++ [c], next := v.next + 1 })).visionPreempt c.kind })))) ∧
  (∀ (n k : Nat) (s : State), n < 6 → k = (if n < 4 then 0 else 2) → s.sys.domainUp 11 = true →
    (s.sys.onEngine n ≠ none → exec (.visionCommandStart n) s = .next { s with sys := s.sys.visionPreempt k }) ∧
    (s.sys.onEngine n = none → s.sys.visionNext k = none → exec (.visionCommandStart n) s = .next s) ∧
    (∀ c y z b, s.sys.onEngine n = none → s.sys.visionNext k = some c → y = s.sys.modVCmd c.id (fun k => { k with st := 3, engine := n }) →
      y.askNow { holds := [{ who := .vision n, cost := y.cost (if n < 4 then 24 else 25), ctx := c.ctx }], prio := y.basePrio c.ctx, act := .vision n c.id } = (z, b) →
      exec (.visionCommandStart n) s = .next { s with sys := if b then z.visionRun c.id else z })) ∧
  (∀ (id : Nat) (y : Sys) (c : VCmd), y.vision.cmds.find? (fun c => c.id == id) = some c → c.started = false →
    ∃ z, z = Sys.modVCmd id (fun c => { c with st := 1, started := true, startSeq := y.bridle.seq }) { y with bridle := { y.bridle with seq := y.bridle.seq + 1 } } ∧
      y.visionRun id = (z.vwrite none c.ctx c.flag (List.replicate 64 0) none).1) ∧
  (∀ (n : Nat) (same : Bool) (s : State) (c : VCmd) (y z w : Sys) (a b : Img), n < 6 → s.sys.onEngine n = some c → c.st = 1 → (s.sys.job c.job).st = 2 →
    s.sys.readImg c 0 = (y, .ok a) → ∀ c', c' = { c with stripes := c.stripes + 1, row := 0, level := 0 } →
    ∀ fin : Sys → Sys, (fin = fun y => let v := ((y.modVCmd c.id fun _ => c').writeFlag c' false).flagRelease c' none same;
      if c'.stripeCount ≤ c'.stripes then v.visionEnd c' 0x00 else v) →
    (c.kind = 2 → ∀ m f, m = a.level c.featLevel → f = c.features m → y.vwrite none c.ctx c.out (c.featBytes m) none = (z, .ok ()) →
      exec (.flagStripeAdvance ⟨n, same⟩) s = .next { s with sys := fin (if c.maxFeat < f.2 then Sys.visionEvent 0 { z with vision := { z.vision with features := satAdd z.vision.features f.1.length } } else { z with vision := { z.vision with features := satAdd z.vision.features f.1.length } }) }) ∧
    (c.kind ≠ 2 → y.readImg c 1 = (z, .ok b) →
      z.writeStripes c (c.flow a b) (if 0 < c.restarts then 0 else c.stripes) (c.stripes + 1) = (w, .ok ()) → exec (.flagStripeAdvance ⟨n, same⟩) s = .next
        { s with sys := fin (if c.stripeCount ≤ c.stripes + 1 then w.countFlow (c.flow a b) else w) })) ∧
  (∀ (n row level : Nat) (dir fin : Bool) (s : State) (c : VCmd), n < 6 → s.sys.onEngine n = some c →
    ((s.sys.job c.job).st = 5 → exec (.visionStop n row level dir fin) s = .next { s with sys := s.sys.visionFail c (s.sys.job c.job).cancelWith }) ∧
    ((s.sys.job c.job).st ≠ 5 → c.st = 2 ∨ (c.st = 1 ∧ ((s.sys.job c.job).st = 3 ∨ s.sys.duo.hold = true)) →
      exec (.visionStop n row level dir fin) s = .next { s with sys := s.sys.visionHalt c row level dir fin }) ∧
    ((s.sys.job c.job).st ≠ 5 → c.st ≠ 2 → (c.st = 1 → (s.sys.job c.job).st ≠ 3 ∧ s.sys.duo.hold = false) →
      exec (.visionStop n row level dir fin) s = .next s))

/-- Tier 1. SLIVER_DISPATCH asks for the permits of the domain's next choice, and what can be granted starts; with no choice nothing changes. PERMIT_GRANT
grants the request served next when its price fits the free permits, at the prices in force, and what it was asked for starts: a sliver starts on its
free core at its code with registers and CSRs clear. PREEMPT_REQUEST with a free core, or with no waiting sliver that outranks a running one, changes
nothing (no sliver waiting for a semaphore); one that a single lower sliver keeps out requests its save, or, when the save region has no room, counts
BLOCKED and raises its event. SAVE_COMPLETE of a saving core puts the sliver's state and local store into the stall's save region, returns its permits
and frees the core; RESTORE_COMPLETE reloads it, frees its granules and returns the save permits. DRAIN_WINDOW_CLOSE cancels the core's transfers
still in flight. HOLD_LIMIT_EXPIRE of a holding somebody of smaller base priority waits for cancels its job with 0x50, returns its tokens, counts and
raises. BREEZE_IN_STEP releases the next stall. Completion, that exec answers a next state with the command's own effect under conditions on the state
and the operands alone, is a conclusion here for: sliverDispatch, permitGrant, preemptRequest, saveComplete, restoreComplete, drainWindowClose,
holdLimitExpire, breezeInStep. (12_bridle_scheduler, 16_girth_power, 04_cores_and_engines) -/
def Obligations.DispatchAndSaves : Prop :=
  (∀ (d : Nat) (s : State), (s.sys.pick d = none → exec (.sliverDispatch d) s = .next s) ∧
    (∀ p y, s.sys.pick d = some p → y = s.sys.requestPick p → exec (.sliverDispatch d) s = .next { s with sys := y.grantAll y.girth.reqs.length })) ∧
  (∀ (s : State), (s.sys.headReq = none → exec .permitGrant s = .next s) ∧
    (∀ r, s.sys.headReq = some r → (s.sys.canGrant r = false → exec .permitGrant s = .next s) ∧
      (s.sys.canGrant r = true → ∀ hs n, hs = r.holds.map (fun h => { h with op := s.sys.girth.priceOp }) → n = (hs.map Holding.now).sum →
        exec .permitGrant s = .next { s with sys := (((s.sys.modPool 0 0 (Pool.take n)).modGirth fun g => { g with holds := g.holds ++ hs }).modGirth fun g => { g with reqs := g.reqs.erase r }).grantAct r.act }))) ∧
  (∀ (t n c : Nat) (y : Sys) (g : Tg), tfind y.bridle.tgs t = some g → g.kernel = 0 → g.cut = false → y.coreFree c = true → (y.job g.job).st = 2 → y.ctxHeld g.ctx = false →
    ∃ z, z = y.grantAct (.dispatch t n c) ∧ z.core c = { y.core c with st := .running, next := none, frozen := false, run := some { tg := t, sliver := n, pc := g.code, arg := g.arg, exact := g.exact }, ls := (y.core c).ls.write 64 0 (g.frame n) } ∧
      (∀ k, k ≠ c → z.core k = y.core k) ∧ z.mem = y.mem ∧ z.work = y.work) ∧
  (∀ (d : Nat) (s : State), (∀ p ∈ s.sys.cores, ∀ r n, p.2.run = some r → r.wait ≠ .sem n) →
    (s.sys.freeCores d ≠ [] ∨ (∀ p < 8, ∀ k ∈ s.sys.candidates d p, s.sys.lowerCores d p k = []) → exec (.preemptRequest d) s = .next s) ∧
    (∀ (k : Cand) (c : Nat) (r : Run) (rest : List Cand), s.sys.freeCores d = [] → s.sys.candidates d 0 = k :: rest → s.sys.lowerCores d 0 k = [(c, r)] →
      (s.sys.core c).st = .running → (s.sys.core c).frozen = false → r.pre = none →
      (saveGranules r.live (s.sys.tg r.tg).eng ≤ (s.sys.stall (c / 64)).saveFree → r.atBoundary = false →
        exec (.preemptRequest d) s = .next { s with sys := (s.sys.reserve c (some k) 0).1 }) ∧
      ((s.sys.stall (c / 64)).saveFree < saveGranules r.live (s.sys.tg r.tg).eng → rest = [] → (∀ p, 0 < p → p < 8 → s.sys.candidates d p = []) →
        exec (.preemptRequest d) s = .next { s with sys := Sys.bridleEvent 1 { s.sys with bridle := { s.sys.bridle with preemptBlocked := min 0xFFFFFFFF (s.sys.bridle.preemptBlocked + 1) } } }))) ∧
  (∀ (c : Nat) (s : State), ((s.sys.core c).st ≠ .saving ∨ (s.sys.core c).run = none → exec (.saveComplete c) s = .next s) ∧
    (∀ r p, (s.sys.core c).st = .saving → (s.sys.core c).run = some r → r.pre = some p → (∀ e d b, r.wait ≠ .mbox e d b) → (s.sys.core c).next = none →
      (∀ q ∈ s.sys.cores, q.2.stands = false ∧ (q.1 ≠ c → ∀ r n, q.2.run = some r → r.wait ≠ .sem n)) →
      ∃ y, exec (.saveComplete c) s = .next { s with sys := y } ∧ y.core c = { s.sys.core c with st := .idle, run := none, next := none, frozen := false } ∧
        (∃ v, (y.stall (c / 64)).saves = (s.sys.stall (c / 64)).saves ++ [v] ∧ v.run = { r with pre := none } ∧
          v.ls = (s.sys.core c).ls.read 64 0 r.live ∧ v.seq = s.sys.bridle.seq ∧ v.granules = min p.granules (saveGranules r.live (s.sys.tg r.tg).eng)) ∧
        y.mem = s.sys.mem ∧ y.work = s.sys.work)) ∧
  (∀ (c q : Nat) (s : State), ((s.sys.core c).st ≠ .restoring → exec (.restoreComplete c) s = .next s) ∧
    (∀ v, (s.sys.core c).st = .restoring → (s.sys.core c).resume = some q → s.sys.findSave q = some v → v.run.cancel = none → v.run.wait = .none →
      v.parked = none → s.sys.dma.xfers = [] → pcOk v.run.pc = true → v.run.codes ≠ 0x10 →
      (∀ q ∈ s.sys.cores, q.2.stands = false) → ∃ y, exec (.restoreComplete c) s = .next { s with sys := y } ∧
        y.core c = { s.sys.core c with st := .running, resume := none, frozen := false, run := some v.run, ls := Store.write {} 64 0 v.ls } ∧
        (∀ x ∈ (y.stall v.stall).saves, x.seq ≠ q) ∧ y.mem = s.sys.mem ∧ y.work = s.sys.work)) ∧
  (∀ (c : Nat) (s : State), exec (.drainWindowClose c) s = .next { s with sys := s.sys.drainClose fun x => x.core == c }) ∧
  (∀ (n k : Nat) (s : State), ((s.sys.sem n).holds[k]? = none → exec (.holdLimitExpire n k) s = .next s) ∧
    (∀ h, (s.sys.sem n).holds[k]? = some h → (s.sys.holdTimed n h = false → exec (.holdLimitExpire n k) s = .next s) ∧
      (s.sys.holdTimed n h = true → exec (.holdLimitExpire n k) s = .next { s with sys := Sys.stopJobWork (s.sys.holderJob h.who) (Sys.bridleEvent 0 (((s.sys.beginCancel (s.sys.holderJob h.who) 0x50).semReturnAll h.who).modBridle fun b => { b with holdCancels := min 0xFFFFFFFF (b.holdCancels + 1) })) }))) ∧
  (∀ (s : State) (y : Sys), y = { s.sys with bridle := { s.sys.bridle with breeze := s.sys.bridle.breeze.drop 1 } } →
    exec .breezeInStep s = .next { s with sys := y.grantAll y.girth.reqs.length })

/-- Tier 1. PIPE_ENABLE of a present pipe that is off, on a READY die whose pipes are not barred and with PLLX not taken by the other pipe, starts
training with the pipe's own capability read on its AUX channel; training that ends well records rate and lanes and says so on the link, training that
fails ends OFF with event 7. Losing HPD for the timeout or lane lock on a running pipe is LINK_DOWN with event 3; HPD's pulse and rise set event 4. A
frame start starts a pipe that waits, or the next frame of one that runs and does not carry the beam. LINE_FETCH_START of a plain line that is due
sends its pixels, those that came late replaced by the last delivered and counted. Calm is entered and left by its causes; its timer ends it. Still is
entered, left and selectively updated only where R254 and R255 allow, else the write is rejected. Completion, that exec answers a next state with the
command's own effect under conditions on the state and the operands alone, is a conclusion here for: pipeEnable, linkTrainingEnd, hpdPulse, hpdRise,
laneLockLoss, hpdLowTimeout, pipeFrameStart, lineFetchStart, pipeCalmEnter, pipeCalmExit, calmTimerExpire, stillExit, stillEnter, suArm. (11_scanout,
20_pins_and_electrical) -/
def Obligations.PipeRows : Prop :=
  (∀ (n : Nat) (s : State) (p q : Pipe), n < 2 → p = s.sys.pipe n → q = s.sys.pipe (1 - n) →
    (p.en = true → exec (.pipeEnable n) s = .next s) ∧
    (p.en = false → p.present = false ∨ s.sys.glob.ready = false ∨ s.sys.pipesBarred = true → exec (.pipeEnable n) s = .next s.rejected) ∧
    (p.en = false → p.present = true → s.sys.glob.ready = true → s.sys.pipesBarred = false →
      (p.needsPllx n = true → q.en = true → q.needsPllx (1 - n) = true → exec (.pipeEnable n) s = .next { s with sys := s.sys.pipeEvent n 5 }) ∧
      (p.needsPllx n = false ∨ q.en = false ∨ q.needsPllx (1 - n) = false → exec (.pipeEnable n) s = .next { s with sys := Sys.emit (.aux n 1 0 16 []) (s.sys.modPipe n fun p => { p with en := true, st := .training, trained := false, stillReq := false, exitReq := false, su := none, suRun := none, auxOwn := true, auxTries := 0 }) })) ∧
    (p.st = .training → p.trained = false →
      exec (.linkTrainingEnd n true) s = .next { s with sys := Sys.emit (.trained n p.rateCode (fld (p.w 0) 1 2) (bitAt (p.w 0) 19) (p.fec n)) ((s.sys.ownDone n).modPipe n fun p => { p with trained := true, rate := p.rateCode, lanes := fld (p.w 0) 1 2 }) } ∧
      (p.auxOwn = false → s.sys.ownDone n = s.sys) ∧
      exec (.linkTrainingEnd n false) s = .next { s with sys := ((s.sys.ownDone n).modPipe n fun p => { p with st := .off, en := false }).pipeEvent n 7 }) ∧
    (p.st ≠ .training ∨ p.trained = true → exec (.linkTrainingEnd n true) s = .next s) ∧
    exec (.hpdPulse n) s = .next { s with sys := s.sys.pipeEvent n 4 } ∧
    exec (.hpdRise n) s = .next { s with sys := (s.sys.modPipe n fun p => { p with hpd := true }).pipeEvent n 4 } ∧
    (p.st = .off ∨ p.st = .linkDown → exec (.laneLockLoss n) s = .next s ∧
      ∃ y, y = (s.sys.modPipe n fun p => { p with hpd := false }).pipeEvent n 4 ∧ exec (.hpdLowTimeout n) s = .next { s with sys := y }) ∧
    (p.st ≠ .off → p.st ≠ .linkDown → ∀ down : Sys → Sys, (down = fun y => ((y.modPipe n fun p => { p with st := .linkDown, trained := false, stillReq := false, exitReq := false, su := none, suRun := none, line0 := false, waiting := [], replay := false }).pipeEvent n 3).timingStopped n) →
      exec (.laneLockLoss n) s = .next { s with sys := down s.sys } ∧
      exec (.hpdLowTimeout n) s = .next { s with sys := down ((s.sys.modPipe n fun p => { p with hpd := false }).pipeEvent n 4) }) ∧
    (p.waits = false → p.runs = false → exec (.pipeFrameStart n) s = .next s) ∧
    (p.waits = true → s.sys.domainUp (12 + n) = true → s.sys.beam.master ≠ n → exec (.pipeFrameStart n) s = .next { s with sys := s.sys.firstFrame n }) ∧
    (p.st = .training → p.trained = true → ((s.sys.firstFrame n).pipe n).st = .active) ∧
    (p.waits = false → s.sys.domainUp (12 + n) = true → p.runs = true → s.sys.beam.source ≠ n → s.sys.beam.master ≠ n → s.sys.beam.newMaster ≠ some n →
      exec (.pipeFrameStart n) s = .next { s with sys := s.sys.frameOf n }) ∧
    (∀ line late, p.runs = false ∨ p.vactive ≤ line ∨ p.inUpdate line = false ∨ s.sys.domainUp (12 + n) = false ∨ s.sys.fetchDue n line = false →
      exec (.lineFetchStart n line late) s = .next s) ∧
    (∀ line late y bs, p.runs = true → 0 < line → line < p.vactive → p.inUpdate line = true → s.sys.domainUp (12 + n) = true → s.sys.fetchDue n line = true → p.calm = false → p.bandMode = false →
      s.sys.scan (p.fbNow + line * p.pitchNow) (p.hactive * p.pxBytes) = (y, some bs) →
      exec (.lineFetchStart n line late) s = .next { s with sys := y.sendLine n line late (p.pixelsOf bs) }) ∧
    exec (.pipeCalmEnter n) s = .next { s with sys := s.sys.calmCause n 0 } ∧ exec (.pipeCalmExit n) s = .next { s with sys := s.sys.calmClear n 0 } ∧
    (p.calm = true ∧ p.timer = true ∧ p.expired = false ∧ p.cause ≠ 0 → exec (.calmTimerExpire n) s = .next { s with sys := (s.sys.modPipe n fun p => { p with expired := true, timer := false, exitReq := p.exitReq || p.st == .still }).pipeEvent n 2 }) ∧
    (p.calm = false ∨ p.timer = false ∨ p.expired = true ∨ p.cause = 0 → exec (.calmTimerExpire n) s = .next s) ∧
    (p.st = .still → exec (.stillExit n) s = .next { s with sys := (if n = 0 then s.sys.stillWake else s.sys).modPipe n fun p => { p with exitReq := true } }) ∧
    (p.st ≠ .still → exec (.stillExit n) s = .next { s with sys := (if n = 0 then s.sys.stillWake else s.sys).modPipe n fun p => { p with stillReq := false } })) ∧
  (∀ (a b : Nat) (s : State) (p : Pipe) (y : Sys), p = s.sys.pipe 0 → a < 2 ^ 13 → b < 2 ^ 13 →
    y = s.sys.stillWake.modPipe 0 (fun p => { p with suFirst := a, suLast := b }) →
    (p.pr = true → p.st = .active → p.calm = false → s.sys.beam.master ≠ 0 ∨ s.sys.fg.en = false ∨ s.sys.fg.stopping = true →
      exec .stillEnter s = .next { s with sys := s.sys.modPipe 0 fun p => { p with stillReq := true } }) ∧
    (p.pr = false ∨ p.st ≠ .active ∨ p.calm = true ∨ (s.sys.beam.master = 0 ∧ s.sys.fg.en = true ∧ s.sys.fg.stopping = false) → exec .stillEnter s = .next s.rejected) ∧
    (p.calm = true ∨ p.st ≠ .still → exec (.suArm a b) s = .next { s with sys := y.reject }) ∧
    (p.calm = false → p.st = .still → exec (.suArm a b) s = .next { s with sys := y.modPipe 0 fun p => { p with su := some ((p.su.elim a fun r => min r.1 a), (p.su.elim b fun r => max r.2 b)) } }))

/-- Tier 1. The four AUX commands of a pipe whose channel is idle leave the address, length and command in AUX_CMD, make the channel BUSY and send the
transaction (a write with its data); while BUSY they are rejected and nothing is sent, and while the pipe's own capability read has the channel the
transaction waits for it to end. An ACK ends the transaction with the bytes read in the data registers; a NACK ends it with error code 1; a DEFER
waits for its retry, the eighth ends it with code 2; AUX_DEFER_RETRY sends it again; AUX_TIMEOUT ends it with code 3. Every end of a driver's
transaction sets event 6. Completion, that exec answers a next state with the command's own effect under conditions on the state and the operands
alone, is a conclusion here for: auxNativeWrite, auxNativeRead, auxI2cWrite, auxI2cRead, auxReply, auxDeferRetry, auxTimeout. (11_scanout) -/
def Obligations.AuxRows : Prop :=
  ∀ (n addr len : Nat) (data : List Byte) (s : State) (p : Pipe), n < 2 → addr < 2 ^ 20 → len < 16 → p = s.sys.pipe n →
    (∀ k ∈ [(0, Instr.auxNativeWrite n addr len), (1, .auxNativeRead n addr len), (2, .auxI2cWrite n addr len), (3, .auxI2cRead n addr len)],
      (p.auxSt = 1 → exec k.2 s = .next s.rejected) ∧
      (p.auxSt ≠ 1 → p.auxOwn = true → exec k.2 s = .next { s with sys := s.sys.modPipe n fun p => { p with auxCmd := addr + 2 ^ 20 * len + 2 ^ 24 * k.1, auxSt := 1, auxReply := 3 } }) ∧
      (p.auxSt ≠ 1 → p.auxOwn = false → exec k.2 s = .next { s with sys := Sys.emit (.aux n k.1 addr (len + 1) (if k.1 % 2 = 0 then (wordsBytes p.auxData).take (len + 1) else [])) (s.sys.modPipe n fun p => { p with auxCmd := addr + 2 ^ 20 * len + 2 ^ 24 * k.1, auxSt := 1, auxReply := 3, auxTries := 0, auxDefer := false }) })) ∧
    (p.auxSt = 1 → p.auxOwn = false → p.auxDefer = false →
      (fld p.auxCmd 24 1 = 0 → exec (.auxReply n 0 data) s = .next { s with sys := s.sys.auxEnd n 2 0 }) ∧
      (fld p.auxCmd 24 1 = 1 → exec (.auxReply n 0 data) s = .next { s with sys := (s.sys.modPipe n fun p => { p with auxData := auxStore p.auxData (fld p.auxCmd 20 4 + 1) data }).auxEnd n 2 0 }) ∧
      exec (.auxReply n 1 data) s = .next { s with sys := s.sys.auxEnd n 3 1 } ∧
      (p.auxTries < 7 → exec (.auxReply n 2 data) s = .next { s with sys := s.sys.modPipe n fun p => { p with auxDefer := true } }) ∧
      (7 ≤ p.auxTries → exec (.auxReply n 2 data) s = .next { s with sys := s.sys.auxEnd n 3 2 }) ∧
      exec (.auxTimeout n) s = .next { s with sys := s.sys.auxEnd n 3 3 } ∧ exec (.auxDeferRetry n) s = .next s) ∧
    (p.auxOwn = true → p.auxDefer = false → ∀ y, y = s.sys.modPipe n (fun p => { p with auxOwn := false, auxTries := 0, auxDefer := false }) →
      ∀ k ∈ [Instr.auxReply n 0 data, .auxReply n 1 data, .auxTimeout n], exec k s = .next { s with sys := if p.auxSt = 1 then y.auxSend n else y }) ∧
    ((p.auxOwn = false ∧ p.auxSt ≠ 1) ∨ p.auxDefer = true → exec (.auxReply n 0 data) s = .next s ∧ exec (.auxTimeout n) s = .next s) ∧
    (p.auxOwn = true → p.auxDefer = true → exec (.auxDeferRetry n) s = .next { s with sys := Sys.emit (.aux n 1 0 16 []) (s.sys.modPipe n fun p => { p with auxDefer := false, auxTries := p.auxTries + 1 }) }) ∧
    (p.auxSt = 1 → p.auxOwn = false → p.auxDefer = true → exec (.auxDeferRetry n) s = .next { s with sys := (s.sys.modPipe n fun p => { p with auxDefer := false, auxTries := p.auxTries + 1 }).auxSend n })

/-- Tier 1. On a module that is UP: a well-formed host write inside device memory returns its credits and stores its enabled bytes, a well-formed read
returns its credit and is answered with the bytes, or with an error where they cannot be read or lie outside; a malformed request is counted, event 8
set, a read answered with an error. A completion with all the data of an outstanding read lands it and its tag goes; one with an error ends the
transfer with 0x30; one nobody waits for counts with event 4. HOST_CRD returns credits and what waited leaves. A CRC failure is replayed and counted,
the ninth of one flit retrains; a retrain that ends well resumes the module, one that fails starts again, the third in a millisecond or a lost lane
puts the module DOWN. A write that raises or unmasks a vector sends one MSG. An invalidation drops the translations of its scope, and while one is
busy its CONTEXT and SCOPE are written and its GO is rejected. Completion, that exec answers a next state with the command's own effect under
conditions on the state and the operands alone, is a conclusion here for: hostDevmemWrite, hostDevmemRead, hostCpl, hostCple, hostCrd,
malformedPacket, flitCrcFail, moduleRetrainEnd, linkLaneLoss, cplTimeout, module1TrainEnd, vecRaiseCmd, vecMaskClear, invPage, invContext, invAll,
invDone. (14_host_link, 17_duo_and_fault_handling, 15_memory) -/
def Obligations.HostLinkRows : Prop :=
  (∀ (m a fbe lbe : Nat) (bs : List Byte) (s : State) (en : List Bool) (y : Sys), m < 2 → fbe < 16 → lbe < 16 → (s.sys.module m).st = 3 →
    en = byteEnables bs.length fbe lbe →
    (reqOk a bs.length = false ∨ (bs.length = 4 ∧ lbe ≠ 0) → exec (.hostDevmemWrite m a fbe lbe bs) s = .next { s with sys := s.sys.malformed m none }) ∧
    (reqOk a bs.length = true → (bs.length = 4 → lbe = 0) → s.sys.glob.memUp = true → a + bs.length ≤ s.sys.mem.memEnd → s.sys.glob.config = 0 →
      y = s.sys.emit (.crd m 1 0 (units bs.length)) →
      (s.sys.girth.state = 2 → exec (.hostDevmemWrite m a fbe lbe bs) s = .next { s with sys := y.stillWake.modLink fun l => { l with stillHeld := l.stillHeld ++ [{ kind := 2, module := m, addr := a, data := bs, mask := en }] } }) ∧
      (s.sys.girth.state ≠ 2 → s.sys.sealed a bs.length = false → exec (.hostDevmemWrite m a fbe lbe bs) s =
        .next { s with sys := { y with mem := (enabledRuns a (en.zip bs)).foldl (fun m p => m.store .host p.1 p.2) y.mem } }) ∧
      (s.sys.girth.state ≠ 2 → s.sys.sealed a bs.length = true → exec (.hostDevmemWrite m a fbe lbe bs) s =
        .next { s with sys := Sys.secEvent 1 { y with sec := { y.sec with sealRejects := min 0xFFFFFFFF (y.sec.sealRejects + 1) } } }))) ∧
  (∀ (m tag a n : Nat) (s : State) (y : Sys), m < 2 → tag < 1024 → (s.sys.module m).st = 3 →
    (reqOk a n = false → exec (.hostDevmemRead m tag a n) s = .next { s with sys := s.sys.malformed m (some tag) }) ∧
    (reqOk a n = true → s.sys.glob.memUp = false ∨ s.sys.mem.memEnd < a + n → exec (.hostDevmemRead m tag a n) s = .next { s with sys := s.sys.sendCpl m (.cple m tag 1) }) ∧
    (reqOk a n = true → s.sys.glob.memUp = true → a + n ≤ s.sys.mem.memEnd → s.sys.girth.state ≠ 2 → y = s.sys.emit (.crd m 0 1 0) → s.sys.mem.fails .host a n = none →
      exec (.hostDevmemRead m tag a n) s = .next { s with sys := Sys.sendCpl m (.cpl m tag (y.mem.load .host a n).2) { y with mem := (y.mem.load .host a n).1 } }) ∧
    exec (.malformedPacket m tag true) s = .next { s with sys := s.sys.malformed m (some tag) } ∧
    exec (.malformedPacket m tag false) s = .next { s with sys := s.sys.malformed m none } ∧
    ((s.sys.module m).readOf tag = none → ∀ bs, exec (.hostCpl m tag bs) s = .next { s with sys := s.sys.lateCpl } ∧
      exec (.hostCple m tag) s = .next { s with sys := s.sys.lateCpl }) ∧
    (∀ r, (s.sys.module m).readOf tag = some r →
      (∀ bs, bs.length = r.len → exec (.hostCpl m tag bs) s = .next { s with sys := ((s.sys.endRead m r).landed r bs).linkFlows }) ∧
      (∀ bs, bs.length ≠ r.len → exec (.hostCpl m tag bs) s = .next { s with sys := s.sys.malformed m none }) ∧
      exec (.hostCple m tag) s = .next { s with sys := ((s.sys.endRead m r).failXfer r.xfer 0x30).linkFlows } ∧
      (s.sys.isHarness m = false → exec (.cplTimeout m tag) s = .next { s with sys := ((((s.sys.endRead m r).linkEvent 3).logLink).failXfer r.xfer 0x30).linkFlows })) ∧
    (∀ ph pd nph, ph < 2 ^ 10 → pd < 2 ^ 20 → nph < 2 ^ 10 → exec (.hostCrd m ph pd nph) s =
      .next { s with sys := ((((s.sys.ledgerBack m 0 ph).ledgerBack m 1 pd).ledgerBack m 2 nph).flush m).linkFlows })) ∧
  (∀ (m k n : Nat) (y : Sys), m < 2 → k < 4 → (y.module m).ledger.length = 4 → n ≤ (y.module m).ledger.getD k 0 →
    ((y.ledgerBack m k n).module m).ledger.getD k 0 = (y.module m).ledger.getD k 0 - n ∧ (y.ledgerBack m k n).pool 1 (4 * m + k) = Pool.give n (y.pool 1 (4 * m + k))) ∧
  (∀ (m : Nat) (b : Bool) (s : State) (n : Nat), m < 2 → n = (if b then (s.sys.wire m).replays else 0) →
    (s.sys.wireSt m = 3 → (8 ≤ n → exec (.flitCrcFail m b) s = .next { s with sys := s.sys.retrain m }) ∧
      (n < 8 → ∃ y : Sys, y = (s.sys.modWire m fun k => { k with replays := n + 1 }) ∧ exec (.flitCrcFail m b) s = .next { s with sys := Sys.linkEvent 0 { y with link := { y.link with replays := min 0xFFFFFFFF (y.link.replays + 1) }, flt := { y.flt with corrected := min 0xFFFFFFFF (y.flt.corrected + 1) } } })) ∧
    (s.sys.wireSt m ≠ 3 → exec (.flitCrcFail m b) s = .next s) ∧ (s.sys.wireSt m ≠ 4 → exec (.moduleRetrainEnd m b) s = .next s) ∧
    (s.sys.wireSt m = 4 → (s.sys.isHarness m = false → exec (.moduleRetrainEnd m true) s = .next { s with sys := ((s.sys.setWire m 3).flush m).linkFlows }) ∧
      (s.sys.isHarness m = true → exec (.moduleRetrainEnd m true) s = .next { s with sys := ((s.sys.setWire m 3).hflush).linkFlows }) ∧
      ∀ k, k = ((s.sys.wire m).retrainAt.filter fun t => decide (s.sys.glob.refCycles < t + 38400)).length →
        exec (.moduleRetrainEnd m false) s = .next { s with sys := if 3 ≤ k then s.sys.wireDown m else s.sys.retrain m }) ∧
    (s.sys.wireSt m = 0 ∨ 5 ≤ s.sys.wireSt m → exec (.linkLaneLoss m) s = .next s) ∧
    (s.sys.wireSt m ≠ 0 → s.sys.wireSt m < 5 → exec (.linkLaneLoss m) s = .next { s with sys := s.sys.wireDown m })) ∧
  (∀ (s : State), (s.sys.glob.config ≠ 0 ∨ s.sys.link.m1.st ≠ 1 → exec (.module1TrainEnd true) s = .next s ∧ exec (.module1TrainEnd false) s = .next s) ∧
    (s.sys.glob.config = 0 → s.sys.link.m1.st = 1 →
      exec (.module1TrainEnd true) s = .next { s with sys := Sys.emit (.init 1 128 128 2048) { s.sys with link := { s.sys.link with m1 := { s.sys.link.m1 with st := 2 } } } } ∧
      exec (.module1TrainEnd false) s = .next { s with sys := Sys.linkEvent 9 { s.sys with link := { s.sys.link with m1 := { s.sys.link.m1 with st := 0 } } } })) ∧
  (∀ (v w : Nat) (s : State) (o : Vec) (y : Sys), v < 256 → w < 8 → o = tget {} s.sys.link.vecs v → o.pending = false →
    y = { s.sys with link := { s.sys.link with vecs := tset s.sys.link.vecs v { o with mask := bitAt w 0 } } } →
    exec (.vecRaiseCmd v w) s = .next { s with sys := y.raise 0 v } ∧ (w = 0 → exec (.vecMaskClear v) s = .next { s with sys := y })) ∧
  (∀ (v : Nat) (s : State) (y : Sys), v < 256 → tget {} s.sys.link.vecs v = { mask := true, pending := true } → s.sys.glob.ready = true → s.sys.glob.config = 0 →
    y = { s.sys with link := { s.sys.link with vecs := tset (tset s.sys.link.vecs v { mask := false, pending := true }) v {} } } →
    exec (.vecMaskClear v) s = .next { s with sys := y.queueMsg 0 v }) ∧
  (∀ (c : Nat) (s : State), c < 64 → s.sys.glob.config ≠ 2 →
    ∀ p ∈ [(Instr.invPage c, c, fun x : Xlat => x.covers c s.sys.link.invAddr), (.invContext c, c + 64, fun x => x.ctx == c), (.invAll, 128, fun _ => true)],
      (s.sys.link.invBusy = true → exec p.1 s = .next { s with sys := Sys.reject { s.sys with link := { s.sys.link with invCtrl := p.2.1 } } }) ∧
      (s.sys.link.invBusy = false → exec p.1 s = .next { s with sys := Sys.dropXlat p.2.2 { s.sys with link := { s.sys.link with invCtrl := p.2.1, invBusy := true, invDone := false } } })) ∧
  (∀ (s : State), (s.sys.link.invBusy = false → exec .invDone s = .next s) ∧
    (s.sys.link.invBusy = true → exec .invDone s = .next { s with sys := { s.sys with link := { s.sys.link with invBusy := false, invDone := true } } }))

/-- Tier 1. Of an active channel: a refresh interval owed is postponed, at most eight, only while a scanout fetch waits, else everything owed is
refreshed; MR4 records the rate and beyond the limit raises MEM_LEVEL to at least 4 with event 1; a write clock drift beyond the limit retrains. A
channel of a domain enters self-refresh from active when SR_IDLE is not 0, and leaves it outside STILL. A patrol scrub of a clean block changes
nothing, a corrected one counts, one beyond correction is marked and logged. A LOFT_CMD of a domain without one makes it busy, of a busy one is
rejected; its end cleans the domain's lines with event 4. A detected error acts by its site: a corrected one counts, in a core, stall, granule, block,
loft line, unit or control logic it is logged with its class's action. FAULT_LOG_READ latches the selected entry and gives its first word. Completion,
that exec answers a next state with the command's own effect under conditions on the state and the operands alone, is a conclusion here for:
refreshInterval, mr4Poll, wckDriftSample, selfRefreshEntry, selfRefreshExit, patrolScrub, loftWriteBack, loftWriteBackInvalidate, loftCmdDone,
faultDetect, faultLogRead. (15_memory, 17_duo_and_fault_handling) -/
def Obligations.MemoryAndFaultRows : Prop :=
  (∀ (c rate : Nat) (w b : Bool) (s : State) (k : Chan), c < 16 → rate < 32 → k = s.sys.chan c →
    (k.st ≠ 2 → exec (.refreshInterval c w) s = .next s ∧ exec (.mr4Poll c rate b) s = .next s ∧ exec (.wckDriftSample c b) s = .next s ∧ exec (.selfRefreshEntry c) s = .next s) ∧
    (k.st = 2 → ∀ put : Chan → Sys, (put = fun q => { s.sys with mem := { s.sys.mem with chans := tset s.sys.mem.chans c q } }) →
      exec (.refreshInterval c w) s = .next { s with sys := put { k with debt := if w = true ∧ k.debt < 8 then k.debt + 1 else 0 } } ∧
      exec (.wckDriftSample c true) s = .next { s with sys := put { k with retrains := k.retrains + 1 } } ∧ exec (.wckDriftSample c false) s = .next s ∧
      (∀ y, y = put { k with mr4 := rate, hot := b } → ∃ z, z = { y with mem := { y.mem with hot := y.mem.chans.any fun k => k.2.hot } } ∧
        exec (.mr4Poll c rate b) s = .next { s with sys := if b then Sys.memEvent 1 { z with girth := { z.girth with memLevel := max 4 z.girth.memLevel } } else z }) ∧
      (s.sys.mem.srIdle ≠ 0 → s.sys.mem.chanDom c ≠ none → exec (.selfRefreshEntry c) s = .next { s with sys := put { k with st := 3, debt := 0 } }) ∧
      (s.sys.mem.srIdle = 0 ∨ s.sys.mem.chanDom c = none → exec (.selfRefreshEntry c) s = .next s) ∧ exec (.selfRefreshExit c) s = .next s) ∧
    (k.st = 3 → s.sys.mem.chanDom c ≠ none → s.sys.girth.state ≠ 2 → exec (.selfRefreshExit c) s =
      .next { s with sys := { s.sys with mem := { s.sys.mem with chans := tset s.sys.mem.chans c { k with st := 2 } } } })) ∧
  (∀ (b f : Nat) (s : State), (s.sys.mem.inlineEcc = false ∨ s.sys.mem.scrub = 0 ∨ s.sys.mem.memEnd < 64 * b + 64 → exec (.patrolScrub b f) s = .next s) ∧
    (s.sys.mem.inlineEcc = true → s.sys.mem.scrub ≠ 0 → 64 * b + 64 ≤ s.sys.mem.memEnd → s.sys.mem.bad.contains b = false →
      exec (.patrolScrub b 0) s = .next s ∧
      exec (.patrolScrub b 1) s = .next { s with sys := { s.sys with mem := { s.sys.mem with inlineCorr := min 0xFFFFFFFF (s.sys.mem.inlineCorr + 1) }, flt := { s.sys.flt with corrected := min 0xFFFFFFFF (s.sys.flt.corrected + 1) } } } ∧
      exec (.patrolScrub b 2) s = .next { s with sys := (Sys.uncorrectable b { s.sys with mem := { s.sys.mem with bad := b :: s.sys.mem.bad } }).logFault { cls := 3, action := 2, status := 0, block := 1, addr := 64 * b } })) ∧
  (∀ (d : Nat) (s : State), d < 8 →
    (bitAt s.sys.mem.loftBusy d = true → exec (.loftWriteBack d) s = .next s.rejected ∧ exec (.loftWriteBackInvalidate d) s = .next s.rejected ∧
      ∃ m, m = s.sys.mem.cleanDom d (bitAt s.sys.mem.loftInval d) ∧ exec (.loftCmdDone d) s = .next { s with sys := Sys.memEvent 4 { s.sys with mem := { m with loftBusy := clrBit s.sys.mem.loftBusy d, loftInval := clrBit s.sys.mem.loftInval d } } }) ∧
    (bitAt s.sys.mem.loftBusy d = false → exec (.loftCmdDone d) s = .next s ∧
      exec (.loftWriteBack d) s = .next { s with sys := { s.sys with mem := { s.sys.mem with loftBusy := setBit s.sys.mem.loftBusy d, loftInval := clrBit s.sys.mem.loftInval d } } } ∧
      exec (.loftWriteBackInvalidate d) s = .next { s with sys := { s.sys with mem := { s.sys.mem with loftBusy := setBit s.sys.mem.loftBusy d, loftInval := setBit s.sys.mem.loftInval d } } })) ∧
  (∀ (a b : Nat) (p : Bool) (s : State), ∃ y, y = ({ s.sys with flt := { s.sys.flt with corrected := min 0xFFFFFFFF (s.sys.flt.corrected + 1) } } : Sys) ∧
    exec (.faultDetect 0 0 b p) s = .next { s with sys := y } ∧
    exec (.faultDetect 0 1 b p) s = .next { s with sys := { y with mem := { y.mem with linkCorr := min 0xFFFFFFFF (y.mem.linkCorr + 1) } } } ∧
    exec (.faultDetect 0 2 b p) s = .next { s with sys := { y with mem := { y.mem with inlineCorr := min 0xFFFFFFFF (y.mem.inlineCorr + 1) } } } ∧
    exec (.faultDetect 0 3 b p) s = .next { s with sys := { y with mem := { y.mem with loftCorr := min 0xFFFFFFFF (y.mem.loftCorr + 1) } } } ∧
    (a < 4096 → s.sys.enabled (a / 64) = true → exec (.faultDetect 1 a b p) s = .next { s with sys := s.sys.coreFault a p } ∧
      (b < 0x100000 → exec (.faultDetect 3 a b p) s = .next { s with sys := s.sys.granuleFaultAt a b })) ∧
    (a < 64 → s.sys.enabled a = true → exec (.faultDetect 2 a b p) s = .next { s with sys := s.sys.stallFault a }) ∧
    (b < 4096 → exec (.faultDetect 4 a b p) s = .next { s with sys := s.sys.blockFaultAt a b }) ∧
    exec (.faultDetect 5 a b p) s = .next { s with sys := s.sys.loftFault a } ∧
    (s.sys.raster.active = none → exec (.faultDetect 6 a b p) s = .next { s with sys := s.sys.logFault { cls := 5, action := 4, status := 0x30, block := 3 } }) ∧
    (∀ q, s.sys.raster.active = some q → exec (.faultDetect 6 a b p) s =
      .next { s with sys := (s.sys.logFault { cls := 5, action := 4, status := 0x30, block := 3 }).passStop q true 0x30 }) ∧
    (a < 6 → s.sys.onEngine a = none → exec (.faultDetect 7 a b p) s = .next { s with sys := s.sys.logFault { cls := 5, action := 7, status := 0, block := 4 } }) ∧
    (a < 2 → exec (.faultDetect 8 a b p) s = .next { s with sys := ((s.sys.logFault { cls := 5, action := 2, status := 0, block := 5 + a }).modPipe a fun q => { q with underPx := min 0xFFFFFFFF (q.underPx + 1), underLines := min 0xFFFFFFFF (q.underLines + 1) }).pipeEvent a 0 }) ∧
    (a < 14 → exec (.faultDetect 10 a b p) s = .next { s with sys := (s.sys.logFault { cls := 8, action := 6, status := 0x30, block := a }).enterDieCalm 0x08 0x30 })) ∧
  (∀ (s : State) (l : List Nat), l = tget (List.replicate 8 0) s.sys.flt.log s.sys.flt.logSel → exec .faultLogRead s =
    .next { s with sys := { s.sys with flt := { s.sys.flt with latch := some l }, glob := { s.sys.glob with rd := l.getD 0 0 } } }) ∧
  (∀ (e : LogE) (y : Sys), y.flt.logCount < 512 → ∃ z, z = y.logFault e ∧ z = Sys.fltEvent 0 { y with flt := { y.flt with log := tset y.flt.log y.flt.logCount (e.words y.glob.refCycles), logCount := y.flt.logCount + 1 } })

/-- Tier 1. A governor decision on a die that is not READY, not in RUN or relocking its clock decides nothing; else, without throttling, its target is the
fixed point, or a point of the candidates or the point in force. VOLTAGE_SETTLED raises the clock of an upward step and ends it, ends a downward step
by repricing, and marks a frozen one. The third AVS_TIMEOUT sets AVS_FAIL with event 6, earlier ones count. DROOP_TRIP records its detector, counts,
stretches the clock and freezes a step; DROOP_CLEAR ends the stretch and counts the edges; STEP_RESUME lets a frozen step go on. SQUALL_FALL forces
the slowest point once and sets event 0, SQUALL_RISE ends the line, and SQUALL_HOLD_EXPIRE after it ends the hold with a decision. Completion, that
exec answers a next state with the command's own effect under conditions on the state and the operands alone, is a conclusion here for:
governorDecision, voltageSettled, avsTimeout, droopTrip, droopClear, stepResume, squallFall, squallRise, squallHoldExpire. (16_girth_power) -/
def Obligations.GirthSteps : Prop :=
  (∀ (s : State), exec .governorDecision s = .next { s with sys := s.sys.lullCheck.govern }) ∧
  (∀ (y : Sys), (y.glob.ready = false ∨ y.girth.state ≠ 0 ∨ y.girth.moving = 1 → y.govern = y) ∧
    (y.glob.ready = true → y.girth.state = 0 → y.girth.moving ≠ 1 → y.girth.throttle = false →
      (y.girth.fixed = true → y.govern.girth.target = y.girth.fixedOp) ∧
      (y.girth.fixed = false → y.govern.girth.target = y.girth.op ∨ y.govern.girth.target ∈ y.opCands.1))) ∧
  (∀ (s : State) (z : Sys), z = { s.sys with girth := { s.sys.girth with avsFail := false, avsTries := 0 } } →
    (s.sys.girth.step = .voltageUp → exec .voltageSettled s = .next { s with sys := Sys.stepEnd true (Sys.newLimit { z with girth := { z.girth with op := z.girth.stepTo } }) }) ∧
    (s.sys.girth.step = .voltageDown → exec .voltageSettled s = .next { s with sys := (z.reprice z.girth.op).stepEnd true }) ∧
    (s.sys.girth.step = .forced → exec .voltageSettled s = .next { s with sys := (z.reprice 6).stepEnd false }) ∧
    (s.sys.girth.step = .frozenUp → exec .voltageSettled s = .next { s with sys := { z with girth := { z.girth with rampDone := true } } }) ∧
    (s.sys.girth.step = .idle ∨ s.sys.girth.step = .frozenDown → exec .voltageSettled s = .next { s with sys := z })) ∧
  (∀ (s : State) (z : Sys), (s.sys.girth.avsTries < 2 → exec .avsTimeout s =
      .next { s with sys := { s.sys with girth := { s.sys.girth with avsTries := s.sys.girth.avsTries + 1 } } }) ∧
    (2 ≤ s.sys.girth.avsTries → z = Sys.girthEvent 6 { s.sys with girth := { s.sys.girth with avsTries := 0, avsFail := true } } →
      (s.sys.girth.step = .idle → exec .avsTimeout s = .next { s with sys := z }) ∧
      (s.sys.girth.step = .voltageUp ∨ s.sys.girth.step = .frozenUp → exec .avsTimeout s = .next { s with sys := (z.reprice s.sys.girth.op).stepEnd false }) ∧
      (s.sys.girth.step = .voltageDown ∨ s.sys.girth.step = .frozenDown → exec .avsTimeout s = .next { s with sys := (z.reprice s.sys.girth.op).stepEnd true }) ∧
      (s.sys.girth.step = .forced → exec .avsTimeout s = .next { s with sys := (z.reprice 6).stepEnd false }))) ∧
  (∀ (n e : Nat) (s : State) (z : Sys), n < 72 → z = { s.sys with girth := { s.sys.girth with droopNow := setBit s.sys.girth.droopNow n, droops := min 0xFFFFFFFF (s.sys.girth.droops + 1), stretched := true, disturbed := true } } →
    (s.sys.girth.step = .voltageUp → exec (.droopTrip n) s = .next { s with sys := { z with girth := { z.girth with step := .frozenUp, rampDone := false } } }) ∧
    (s.sys.girth.step = .voltageDown → exec (.droopTrip n) s = .next { s with sys := Sys.avsWrite (opMv.getD s.sys.girth.priceOp 620) { z with girth := { z.girth with step := .frozenDown } } }) ∧
    (s.sys.girth.step ≠ .voltageUp → s.sys.girth.step ≠ .voltageDown → exec (.droopTrip n) s = .next { s with sys := z }) ∧
    (s.sys.girth.stretched = true → exec (.droopClear e) s = .next { s with sys := { s.sys with girth := { s.sys.girth with droopNow := 0, stretched := false, stretch := satAdd s.sys.girth.stretch e } } }) ∧
    (s.sys.girth.stretched = false → exec (.droopClear e) s = .next s)) ∧
  (∀ (s : State), (s.sys.girth.droopNow ≠ 0 ∨ s.sys.girth.stretched = true → exec .stepResume s = .next s) ∧
    (s.sys.girth.droopNow = 0 → s.sys.girth.stretched = false →
      (s.sys.girth.step ≠ .frozenUp → s.sys.girth.step ≠ .frozenDown → exec .stepResume s = .next s) ∧
      (s.sys.girth.step = .frozenUp ∨ s.sys.girth.step = .frozenDown → s.sys.girth.target ≠ s.sys.girth.stepTo →
        exec .stepResume s = .next { s with sys := ((s.sys.reprice s.sys.girth.op).stepEnd false).startStep s.sys.girth.target }) ∧
      (s.sys.girth.target = s.sys.girth.stepTo →
        (s.sys.girth.step = .frozenUp → s.sys.girth.rampDone = false → exec .stepResume s =
          .next { s with sys := { s.sys with girth := { s.sys.girth with step := .voltageUp } } }) ∧
        (s.sys.girth.step = .frozenUp → s.sys.girth.rampDone = true → exec .stepResume s =
          .next { s with sys := Sys.stepEnd true (Sys.newLimit { s.sys with girth := { s.sys.girth with op := s.sys.girth.stepTo } }) }) ∧
        (s.sys.girth.step = .frozenDown → exec .stepResume s = .next { s with sys := Sys.avsWrite (opMv.getD s.sys.girth.stepTo 620) { s.sys with girth := { s.sys.girth with step := .voltageDown } } })))) ∧
  (∀ (s : State) (y : Sys), (y = { s.sys with girth := { s.sys.girth with squallLow := true, squallHeld := true } } →
      exec .squallFall s = .next { s with sys := if s.sys.girth.squallLow then y else (if s.sys.girth.squallHeld then y else y.forceSlow).girthEvent 0 }) ∧
    exec .squallRise s = .next { s with sys := { s.sys with girth := { s.sys.girth with squallLow := false } } } ∧
    (s.sys.girth.squallHeld = true → s.sys.girth.squallLow = false → exec .squallHoldExpire s =
      .next { s with sys := Sys.govern { s.sys with girth := { s.sys.girth with squallHeld := false } } }) ∧
    (s.sys.girth.squallHeld = false ∨ s.sys.girth.squallLow = true → exec .squallHoldExpire s = .next s))

/-- Tier 1. POWER_MEASUREMENT takes the regulators' answer, calibrates the gain only in an undisturbed millisecond (then from 2,048 to 8,192) and moves
the shedding by at most one level. THERMAL_SAMPLE records the hottest reading and its peak; below 105 it forces nothing. GATE_IDLE_EXPIRE gates a
stall that may be gated, its awake permits back. STALL_WAKE of a stall the READY work wants asks for its awake permits in RUN, leaves LULL or STILL
otherwise; STALL_WAKE_COMPLETE raises the stall's and its cores' epochs and clears their stores. A stall woken while a breeze-in runs joins it.
ARITH_PLL_RELOCK ends LULL at OP6 with a decision; STILL is entered from LULL with pipe 0 in Still and pipe 1 off; DIE_STILL_EXIT_DONE leaves it, and
what was held follows. GIRTH_CAP is clamped to 3,000 to 100,000 mW, GIRTH_MODE takes a point of OP_MASK, a hint of 7 takes 6. Completion, that exec
answers a next state with the command's own effect under conditions on the state and the operands alone, is a conclusion here for: powerMeasurement,
thermalSample, gateIdleExpire, stallWake, stallWakeComplete, arithPllRelock, dieStillEntryDone, dieStillExitDone, girthCapWrite, girthModeWrite,
girthHintWrite. (16_girth_power) -/
def Obligations.GirthHeatAndGates : Prop :=
  (∀ (ans : Bool) (a b : Nat) (s : State), a < 2 ^ 18 → b < 2 ^ 17 → ∃ y, exec (.powerMeasurement ans a b) s = .next { s with sys := y } ∧
    (ans = true → y.girth.rail = a ∧ y.girth.other = b ∧ y.girth.avsFail = false) ∧
    (ans = false → y.girth.rail = s.sys.girth.rail ∧ y.girth.other = s.sys.girth.other ∧ y.girth.gain = s.sys.girth.gain) ∧
    y.girth.heldSum = 0 ∧ y.girth.heldCycles = 0 ∧ (y.girth.gain = s.sys.girth.gain ∨ (2048 ≤ y.girth.gain ∧ y.girth.gain ≤ 8192)) ∧
    (s.sys.girth.disturbed = true ∨ s.sys.girth.heldCycles = 0 → y.girth.gain = s.sys.girth.gain) ∧
    (ans = true → s.sys.girth.disturbed = false → s.sys.girth.heldCycles ≠ 0 → 2000 * s.sys.girth.heldCycles ≤ s.sys.girth.heldSum → s.sys.girth.step = .idle →
      y.girth.gain = calibrate s.sys.girth.gain a s.sys.girth.heldSum s.sys.girth.heldCycles) ∧
    y.girth.memLevel ≤ s.sys.girth.memLevel + 1 ∧ s.sys.girth.memLevel ≤ y.girth.memLevel + 1 ∧ y.girth.linkLevel ≤ s.sys.girth.linkLevel + 1 ∧
    s.sys.girth.linkLevel ≤ y.girth.linkLevel + 1 ∧ y.girth.op = s.sys.girth.op ∧ y.cores = s.sys.cores ∧ y.mem.dram = s.sys.mem.dram) ∧
  (∀ (t : Nat) (s : State), t < 256 → ∃ y, exec (.thermalSample t) s = .next { s with sys := y } ∧ y.girth.hottest = t ∧ y.girth.peak = max s.sys.girth.peak t ∧
    (t < 105 → s.sys.girth.throttle = true ∨ t < s.sys.girth.thTarget → y = { s.sys with girth := { s.sys.girth with hottest := t, peak := max s.sys.girth.peak t, hot := false, throttle := if t + 2 < s.sys.girth.thTarget then false else s.sys.girth.throttle } }) ∧
    (105 ≤ t → s.sys.girth.hot = false → s.sys.girth.state = 0 → t < 112 → y.girth.op = 6 ∧ y.girth.memLevel = 7 ∧ y.girth.hot = true) ∧
    (112 ≤ t → y.girth.thermtrip = true ∧ y.flt.dieCalm = true)) ∧
  (∀ (k : Nat) (s : State), k < 64 → (s.sys.mayGate k = false → exec (.gateIdleExpire k) s = .next s) ∧
    (s.sys.mayGate k = true → exec (.gateIdleExpire k) s = .next { s with sys := Sys.lullCheck (((s.sys.dropHold (.coreAwake k)).dropHold (.stallAwake k)).modStall k fun c => { c with gated := true, waking := false }) }) ∧
    (s.sys.wantsWake k = false → exec (.stallWake k) s = .next s) ∧
    (s.sys.wantsWake k = true → (s.sys.girth.state = 2 → exec (.stallWake k) s = .next { s with sys := s.sys.stillWake }) ∧
      (s.sys.girth.state = 1 → exec (.stallWake k) s = .next { s with sys := { s.sys with girth := { s.sys.girth with moving := 1 } } }) ∧
      (s.sys.girth.state = 0 → ∀ y, y = s.sys.request { holds := s.sys.awakeHolds k, prio := s.sys.workPrio ((s.sys.domOfStall k).getD 0), act := .wake k } →
        exec (.stallWake k) s = .next { s with sys := y.grantAll y.girth.reqs.length })) ∧
    ((s.sys.stall k).waking = false → exec (.stallWakeComplete k) s = .next s) ∧
    ((s.sys.stall k).waking = true → ∃ y : Sys, exec (.stallWakeComplete k) s = .next { s with sys := y.grantAll y.girth.reqs.length } ∧
      y.stall k = { s.sys.stall k with gated := false, waking := false, epoch := ((s.sys.stall k).epoch + 1) % 2 ^ 16, pool := {}, badPool := [] } ∧
      (∀ i, i < 64 → y.core (64 * k + i) = { s.sys.core (64 * k + i) with epoch := ((s.sys.core (64 * k + i)).epoch + 1) % 2 ^ 16, ls := {} }) ∧
      y.mem = s.sys.mem ∧ y.girth = s.sys.girth ∧ (s.sys.bridle.breeze ≠ [] → k ∈ y.bridle.breeze))) ∧
  (∀ (s : State), (s.sys.girth.state ≠ 1 ∨ s.sys.girth.moving ≠ 1 → exec .arithPllRelock s = .next s) ∧
    (s.sys.girth.state = 1 → s.sys.girth.moving = 1 → exec .arithPllRelock s = .next { s with sys := Sys.govern { s.sys with girth := { s.sys.girth with state := 0, moving := 0, op := 6, step := .idle } } }) ∧
    (s.sys.girth.state ≠ 1 ∨ s.sys.girth.moving ≠ 0 ∨ s.sys.pipe0.st ≠ .still ∨ s.sys.pipe1.st ≠ .off → exec .dieStillEntryDone s = .next s) ∧
    (s.sys.girth.state = 1 → s.sys.girth.moving = 0 → s.sys.pipe0.st = .still → s.sys.pipe0.suRun = none → s.sys.pipe0.su = none → s.sys.pipe1.st = .off →
      exec .dieStillEntryDone s = .next { s with sys := { s.sys with girth := { s.sys.girth with state := 2 }, link := { s.sys.link with l1 := true }, mem := { s.sys.mem with chans := tmap s.sys.mem.chans fun _ c => if c.st = 2 then { c with st := 3 } else c } } }) ∧
    (s.sys.girth.state ≠ 2 ∨ s.sys.girth.moving ≠ 3 → exec .dieStillExitDone s = .next s) ∧
    (s.sys.girth.state = 2 → s.sys.girth.moving = 3 → s.sys.link.stillHeld = [] →
      exec .dieStillExitDone s = .next { s with sys := s.sys.stillLeft.modLink fun l => { l with stillHeld := [] } })) ∧
  (∀ (w c : Nat) (s : State), c < 64 → ∀ v, v = w % 2 ^ 17 →
    (3000 ≤ v → v ≤ 100000 → exec (.girthCapWrite w) s = .next { s with sys := Sys.govern { s.sys with girth := { s.sys.girth with cap := v } } }) ∧
    (v < 3000 ∨ 100000 < v → ∃ y, y = Sys.reject { s.sys with girth := { s.sys.girth with cap := if v < 3000 then 3000 else 100000 } } ∧
      exec (.girthCapWrite w) s = .next { s with sys := y.govern }) ∧
    (fld w 1 3 < 7 → bitAt s.sys.girth.opMask (fld w 1 3) = true → exec (.girthModeWrite w) s = .next { s with sys := Sys.govern { s.sys with girth := { s.sys.girth with fixed := bitAt w 0, fixedOp := fld w 1 3 } } }) ∧
    (fld w 1 3 = 7 ∨ bitAt s.sys.girth.opMask (fld w 1 3) = false → exec (.girthModeWrite w) s = .next s.rejected) ∧
    (fld w 0 3 ≠ 7 → fld w 3 3 ≠ 7 → exec (.girthHintWrite c w) s = .next { s with sys := Sys.govern { s.sys with girth := { s.sys.girth with hints := tset s.sys.girth.hints c (fld w 0 3, fld w 3 3) } } }) ∧
    (fld w 0 3 = 7 ∨ fld w 3 3 = 7 → ∃ y, y = Sys.reject { s.sys with girth := { s.sys.girth with hints := tset s.sys.girth.hints c (min (fld w 0 3) 6, min (fld w 3 3) 6) } } ∧
      exec (.girthHintWrite c w) s = .next { s with sys := y.govern }))

/-- Tier 1. HARNESS_TRAIN_END forms the pools and sends HELLO; a peer's HELLO that agrees forms the Duo, one that does not holds it with event 6. The
timeouts split a Duo that has not formed or stays in hold. HBEAT_SEND sends claim, epoch and digest and counts its sequence; a heartbeat received
records the peer, settles claim and epoch and holds or leaves hold by agreement; silence counts, logs, takes the manager's role unless the epoch is
exhausted or the die is Calm, and holds. TAKEOVER and ASSUME act only where they are allowed, else the write is rejected. BEAMPOS shows the manager's
beam and applies at a new frame number what the manager's frame start did, SCHED records its words and acts, RREQ is answered with the bytes or 0x30,
RRSP fills its mailbox entry, DIGEST is compared or kept, a late digest fails its group. The peer window is written, read and completed; credits come
back. Completion, that exec answers a next state with the command's own effect under conditions on the state and the operands alone, is a conclusion
here for: harnessTrainEnd, hello, duoFormTimeout, duoHoldTimeout, hbeatSend, hbeat, peerSilenceTimeout, takeover, assume, beampos, sched, rreq, rrsp,
digest, digestWaitExpire, bandDigestLate, peerWindowRequest, peerWindowCompletion, harnessCreditReturn. (17_duo_and_fault_handling) -/
def Obligations.DuoRows : Prop :=
  (∀ (s : State), (s.sys.glob.config = 0 ∨ s.sys.duo.st ≠ 1 → exec .harnessTrainEnd s = .next s) ∧
    (s.sys.glob.config ≠ 0 → s.sys.duo.st = 1 → ∃ y, exec .harnessTrainEnd s = .next { s with sys := y } ∧
      y.duo = { s.sys.duo with st := 2, hm := { ph := 128, nph := 128, pd := 2048 } } ∧ y.pool 2 0 = Pool.init 128 ∧ y.pool 2 1 = Pool.init 2048 ∧
      y.pool 2 2 = Pool.init 128 ∧ y.pool 2 3 = Pool.init 16384 ∧
      y.out = .harness "HELLO" [s.sys.glob.config, putb s.sys.glob.duoId 0] s.sys.glob.patternDigest :: .init 1 128 128 2048 :: s.sys.out) ∧
    (s.sys.glob.config ≠ 0 → s.sys.glob.ready = true → s.sys.duo.st = 1 ∨ s.sys.duo.st = 2 → s.sys.duo.split = false →
      exec .duoFormTimeout s = .next { s with sys := s.sys.splitBrain } ∧ exec .duoHoldTimeout s = .next s) ∧
    (s.sys.duo.hold = true → s.sys.duo.split = false → s.sys.duo.st ≠ 1 → s.sys.duo.st ≠ 2 →
      exec .duoHoldTimeout s = .next { s with sys := s.sys.splitBrain } ∧ exec .duoFormTimeout s = .next s) ∧
    (s.sys.glob.config = 0 ∨ (s.sys.duo.st ≠ 2 ∧ s.sys.duo.st ≠ 3 ∧ s.sys.duo.st ≠ 4) → exec .hbeatSend s = .next s) ∧
    (s.sys.glob.config ≠ 0 → s.sys.duo.st = 2 ∨ s.sys.duo.st = 3 → exec .hbeatSend s = .next { s with sys := { s.sys with out := .harness "HBEAT" [8 + put s.sys.duo.role 4 2 + putb s.sys.glob.duoId 6 + putb s.sys.flt.dieCalm 7 + putb s.sys.duo.hold 8 + put s.sys.duo.seq 9 23, s.sys.duo.epoch, wordAt s.sys.glob.patternDigest 0, 0] [] :: s.sys.out, duo := { s.sys.duo with seq := (s.sys.duo.seq + 1) % 2 ^ 23 } } }) ∧
    (s.sys.glob.config ≠ 0 → s.sys.duo.st = 4 → exec .hbeatSend s = .next { s with sys := (s.sys.hpost (.harness "HBEAT" [8 + put s.sys.duo.role 4 2 + putb s.sys.glob.duoId 6 + putb s.sys.flt.dieCalm 7 + putb s.sys.duo.hold 8 + put s.sys.duo.seq 9 23, s.sys.duo.epoch, wordAt s.sys.glob.patternDigest 0, 0] [])).modDuo fun u => { u with seq := (u.seq + 1) % 2 ^ 23 } }) ∧
    (s.sys.glob.config = 0 ∨ s.sys.duo.peerLive = false → exec .peerSilenceTimeout s = .next s) ∧
    (s.sys.glob.config ≠ 0 → s.sys.duo.peerLive = true → ∀ y, y = (Sys.duoEvent 0 { s.sys with duo := { s.sys.duo with peerLive := false, claims := [], hbMissed := min 0xFFFFFFFF (s.sys.duo.hbMissed + 1) } }).logFault { cls := 7, action := 8, status := 0x41, block := 8 } →
      (s.sys.duo.role = 1 → s.sys.duo.epoch ≠ 2 ^ 32 - 1 → s.sys.flt.dieCalm = false →
        exec .peerSilenceTimeout s = .next { s with sys := ((Sys.setRole 2 { y with duo := { y.duo with epoch := y.duo.epoch + 1 } }).harnessDown).enterHold }) ∧
      (s.sys.duo.role = 1 → s.sys.duo.epoch = 2 ^ 32 - 1 → exec .peerSilenceTimeout s = .next { s with sys := ((y.setRole 1).harnessDown).enterHold }) ∧
      (s.sys.duo.role = 2 → s.sys.flt.dieCalm = false → exec .peerSilenceTimeout s = .next { s with sys := ((y.setRole 2).harnessDown).enterHold })) ∧
    (s.sys.duo.split = false → exec .assume s = .next s.rejected) ∧
    (s.sys.duo.split = true → ∃ y : Sys, y = s.sys.harnessDown.setRole 2 ∧ exec .assume s = .next { s with sys := Sys.leaveHold { y with duo := { y.duo with alone := true, peerLive := false } } }) ∧
    (∀ ok, ok = (s.sys.glob.config ≠ 0 ∧ s.sys.duo.role = 1 ∧ s.sys.duo.peerLive = true ∧ s.sys.duo.claims.head? = some 2 ∧ s.sys.duo.hold = false ∧
        s.sys.flt.dieCalm = false) → (¬ ok → exec .takeover s = .next s.rejected) ∧
      (ok → s.sys.duo.epoch = 2 ^ 32 - 1 → exec .takeover s = .next s) ∧
      (ok → s.sys.duo.epoch ≠ 2 ^ 32 - 1 → ∃ y : Sys, y = s.sys.logFault { cls := 7, action := 9, status := 0, block := 8 } ∧
        exec .takeover s = .next { s with sys := (Sys.setRole 2 { y with duo := { y.duo with epoch := y.duo.epoch + 1 } }).resolve }))) ∧
  (∀ (c d x : Nat) (dg : List Byte) (ds : List Nat) (s : State), (s.sys.glob.config = 0 ∨ s.sys.duo.st ≠ 2 → exec (.hello c d dg x ds) s = .next s) ∧
    (s.sys.glob.config ≠ 0 → s.sys.duo.st = 2 →
      (c ≠ s.sys.glob.config ∨ bitAt d 0 = s.sys.glob.duoId ∨ (s.sys.glob.config = 2 ∧ dg ≠ s.sys.glob.patternDigest) ∨
        (s.sys.glob.config = 1 ∧ Nat.land x s.sys.validMask ≠ 0) → exec (.hello c d dg x ds) s = .next { s with sys := (s.sys.duoEvent 6).enterHold }) ∧
      (c = s.sys.glob.config → bitAt d 0 ≠ s.sys.glob.duoId → (c = 2 → dg = s.sys.glob.patternDigest) → (c = 1 → Nat.land x s.sys.validMask = 0) →
        exec (.hello c d dg x ds) s = .next { s with sys := Sys.linkFlows (Sys.hflush { s.sys with duo := { s.sys.duo with st := 3, alone := false, claims := [], unmirrored := s.sys.aliveJobs, peerCtxs := x, peerDoms := (List.range (ds.length / 2)).map fun i => (ds.getD (2 * i) 0, ds.getD (2 * i + 1) 0) } }) }))) ∧
  (∀ (w e d0 : Nat) (s : State) (y : Sys), e < 2 ^ 32 → d0 < 2 ^ 32 → (s.sys.glob.config = 0 ∨ s.sys.duo.st ≠ 3 → exec (.hbeat w e d0) s = .next s) ∧
    (s.sys.glob.config ≠ 0 → s.sys.duo.st = 3 → y = { s.sys with duo := { s.sys.duo with peerLive := true, peerEpoch := e, peerCalm := bitAt w 7, peerDigest0 := d0, claims := (fld w 4 2 :: s.sys.duo.claims).take 2 } } →
      (s.sys.flt.dieCalm = false → bitAt w 7 = false → (s.sys.duo.epoch < e →
          exec (.hbeat w e d0) s = .next { s with sys := (Sys.setRole 1 { y with duo := { y.duo with epoch := e } }).resolve }) ∧
        (e < s.sys.duo.epoch → exec (.hbeat w e d0) s = .next { s with sys := (y.setRole 2).resolve }) ∧
        (e = s.sys.duo.epoch → exec (.hbeat w e d0) s = .next { s with sys := (y.setRole (if s.sys.glob.duoId then 1 else 2)).resolve })) ∧
      (s.sys.flt.dieCalm = true → exec (.hbeat w e d0) s = .next { s with sys := (y.setRole 1).resolve }))) ∧
  (∀ (l t h sr p f : Nat) (s : State), l < 2 ^ 13 → t < 16 → sr < 4 → p < 8 → f < 2 ^ 32 →
    (s.sys.duo.st ≠ 3 ∨ s.sys.beamFollows = false → exec (.beampos l t h sr p f) s = .next s) ∧
    (s.sys.duo.st = 3 → s.sys.beamFollows = true → ∀ y : Sys, y = (if f = s.sys.beam.frame then s.sys else (s.sys.applyBeam id).fgStopNow) →
      exec (.beampos l t h sr p f) s = .next { s with sys := { y with beam := { y.beam with line := l, tick := t, heldNow := bitAt h 0, source := sr, phase := p, frame := f } } })) ∧
  (∀ (s : State) (y : List Nat → Sys), (y = fun ws => { s.sys with duo := { s.sys.duo with shadow := ws :: s.sys.duo.shadow } }) → s.sys.glob.config ≠ 0 → s.sys.duo.st = 3 →
    (∀ q w, exec (.sched [0, q, w]) s = .next { s with sys := y [0, q, w] }) ∧
    (∀ q a c, s.sys.duo.role = 1 → exec (.sched [1, q, a, c]) s = .next { s with sys := (y [1, q, a, c]).workerFire q a c }) ∧
    (∀ t n c z, z = y [2, t, n, c] → s.sys.duo.role = 1 → z.tgReady t = true → (z.tg t).head = some n → z.coreFree c = true →
      ∃ w : Sys, w = z.requestPick (.fresh t n c) ∧ exec (.sched [2, t, n, c]) s = .next { s with sys := w.grantAll w.girth.reqs.length }) ∧
    (∀ j st, j < 4096 → st < 256 → s.sys.glob.config = 2 → s.sys.duo.role = 1 → exec (.sched [3, j, st]) s = .next { s with sys := (y [3, j, st]).cancelJob j st })) ∧
  (∀ (tag k e a n st : Nat) (bs : List Byte) (s : State) (y : Sys) (m : Mbox), tag < 2 ^ 16 → k < 64 → e < 256 → n < 64 → st < 256 → bs.length ≤ 56 →
    y = s.sys.emit (.crd 1 0 1 0) → m = tget {} (s.sys.stall k).mbox e →
    (s.sys.glob.config = 1 → s.sys.duo.st = 3 →
      (s.sys.flt.dieCalm = true ∨ s.sys.mem.memEnd < a + n → exec (.rreq tag k e a n) s = .next { s with sys := y.emit (.harness "RRSP" [tag, k, e, 0x30] []) }) ∧
      (s.sys.flt.dieCalm = false → a + n ≤ s.sys.mem.memEnd → s.sys.mem.fails .host a n = none → exec (.rreq tag k e a n) s = .next { s with sys := Sys.emit (.harness "RRSP" [tag, k, e, 0] (s.sys.mem.load .host a n).2) { y with mem := (s.sys.mem.load .host a n).1 } })) ∧
    (s.sys.duo.st ≠ 3 ∨ m.pending = false ∨ m.tag ≠ tag → exec (.rrsp tag k e st bs) s = .next s) ∧
    (s.sys.duo.st = 3 → m.pending = true → m.tag = tag →
      (m.orphan = true → exec (.rrsp tag k e st bs) s = .next { s with sys := s.sys.modStall k fun q => { q with mbox := tset q.mbox e {} } }) ∧
      (m.orphan = false → exec (.rrsp tag k e st bs) s = .next { s with sys := s.sys.mboxFull k e st (!s.sys.glob.duoId) bs }))) ∧
  (∀ (key b k f : Nat) (dg : List Byte) (s : State), s.sys.glob.config = 2 → s.sys.duo.role = 2 → s.sys.duo.st = 3 → s.sys.duo.alone = false → b < 256 → k < 2 →
    (s.sys.duo.waiting.find? (fun w => w.1 == key) = none → exec (.digest key dg) s =
      .next { s with sys := { s.sys with duo := { s.sys.duo with early := s.sys.duo.early ++ [(key, leNat dg)] } } }) ∧
    (∀ w, s.sys.duo.waiting.find? (fun w => w.1 == key) = some w → exec (.digest key dg) s = .next { s with sys := if w.2.2 = leNat dg then Sys.tryDone w.2.1 { s.sys with duo := { s.sys.duo with waiting := s.sys.duo.waiting.filter fun w => w.1 != key } } else s.sys.failDigest key 0x40 }) ∧
    (key < 2 ^ 62 → exec (.digestWaitExpire key) s = .next { s with sys := s.sys.failDigest key 0x50 }) ∧
    exec (.bandDigestLate b k f) s = .next { s with sys := s.sys.failDigest (bandKey b k f) 0x50 }) ∧
  (∀ (tag a n : Nat) (bs : List Byte) (s : State), tag < 1024 → s.sys.glob.config = 1 → s.sys.duo.st = 3 → 0 < n → n ≤ 256 → a % 4096 + n ≤ 4096 →
    (s.sys.mem.memEnd < a + n → exec (.peerWindowRequest false tag a n bs) s = .next { s with sys := s.sys.hpost (.harness "CPLE" [tag, 1] []) } ∧
      (bs.length = n → exec (.peerWindowRequest true tag a n bs) s = .next s)) ∧
    (a + n ≤ s.sys.mem.memEnd →
      (bs.length = n → s.sys.sealed a n = false → ∃ y : Sys, y = s.sys.emit (.crd 1 1 0 (units n)) ∧ exec (.peerWindowRequest true tag a n bs) s =
        .next { s with sys := { y with mem := y.mem.store .host a bs } }) ∧
      (s.sys.mem.fails .host a n = none → ∃ y : Sys, y = s.sys.emit (.crd 1 0 1 0) ∧ exec (.peerWindowRequest false tag a n bs) s = .next { s with sys := Sys.hpost (.harness "CPL" [tag] (y.mem.load .host a n).2) { y with mem := (y.mem.load .host a n).1 } })) ∧
    (s.sys.duo.hm.readOf tag = none → exec (.peerWindowCompletion tag true bs) s = .next { s with sys := s.sys.lateCpl }) ∧
    (∀ r, s.sys.duo.hm.readOf tag = some r →
      exec (.peerWindowCompletion tag false bs) s = .next { s with sys := ((s.sys.endPeerRead r).failXfer r.xfer 0x30).linkFlows } ∧
      (bs.length = r.len → exec (.peerWindowCompletion tag true bs) s = .next { s with sys := ((s.sys.endPeerRead r).landed r bs).linkFlows }) ∧
      exec (.cplTimeout 1 tag) s = .next { s with sys := ((((s.sys.endPeerRead r).linkEvent 3).logLink).failXfer r.xfer 0x30).linkFlows }) ∧
    (∀ ph pd nph, ph < 2 ^ 10 → pd < 2 ^ 20 → nph < 2 ^ 10 → exec (.harnessCreditReturn ph pd nph) s =
      .next { s with sys := ((((s.sys.hledgerBack 0 ph).hledgerBack 1 pd).hledgerBack 2 nph).hflush).linkFlows }))

/-- Tier 1. SEAL of an EMPTY slot whose region is aligned, lies in one domain and overlaps no other sealed region starts its hashing; any other is
rejected. SEAL_HASH_DONE of a slot a hash engine works on makes it SEALED with the digest of its region, or EMPTY when the region cannot be read.
UNSEAL of a slot no live job names makes it EMPTY with a digest of zeros; else it is rejected. REGION_HASH_DONE records the digest of a region: with
the last one at the start the job runs, with the last one at the end it ends when they agree. ATT_GO while a report is BUSY or before READY is
rejected; else the next sequence number and the report's fields are taken. ATT_REPORT_WRITTEN posts the signed report with ATT_DONE, or gives
ATT_FAIL. Completion, that exec answers a next state with the command's own effect under conditions on the state and the operands alone, is a
conclusion here for: seal, unseal, sealHashDone, regionHashDone, attGo, attReportWritten. (18_determinism_and_security) -/
def Obligations.SecurityRows : Prop :=
  (∀ (s : State) (k a n : Nat) (m : Model), k = s.sys.sec.modelSel → m = s.sys.model k → a = m.regAddr → n = 64 * m.regLen →
    (s.sys.regionDom a n = none ∨ m.st ≠ 0 ∨ a % 64 ≠ 0 ∨ (s.sys.sec.models.any fun p => p.1 != k && p.2.st != 0 && decide (p.2.addr < a + n ∧ a < p.2.addr + 64 * p.2.len)) = true →
      exec .seal s = .next s.rejected) ∧
    (∀ d, s.sys.regionDom a n = some d → m.st = 0 → a % 64 = 0 →
      (s.sys.sec.models.any fun p => p.1 != k && p.2.st != 0 && decide (p.2.addr < a + n ∧ a < p.2.addr + 64 * p.2.len)) = false →
      exec .seal s = .next { s with sys := { s.sys with sec := Sec.ask [.seal k] { s.sys.sec with models := tset s.sys.sec.models k { m with st := 1, dom := d, addr := a, len := m.regLen } } } }) ∧
    (s.sys.namers k ≠ [] → exec .unseal s = .next s.rejected) ∧
    (s.sys.namers k = [] → exec .unseal s = .next { s with sys := (s.sys.modSec (Sec.drop (· == HashReq.seal k))).modModel k fun m => { m with st := 0, digest := List.replicate 32 0 } })) ∧
  (∀ (k : Nat) (s : State) (y : Sys), k < 16 → (s.sys.hashing (.seal k) = false ∨ (s.sys.model k).st ≠ 1 → exec (.sealHashDone k) s = .next s) ∧
    (s.sys.hashing (.seal k) = true → (s.sys.model k).st = 1 →
      ((s.sys.hashDone (.seal k)).hashRead (s.sys.model k).addr (64 * (s.sys.model k).len) = (y, none) →
        exec (.sealHashDone k) s = .next { s with sys := y.modModel k fun m => { m with st := 0 } }) ∧
      (∀ bs, (s.sys.hashDone (.seal k)).hashRead (s.sys.model k).addr (64 * (s.sys.model k).len) = (y, some bs) →
        exec (.sealHashDone k) s = .next { s with sys := (y.modModel k fun m => { m with st := 2, digest := Shake.shake256 32 bs }).secEvent 0 }))) ∧
  (∀ (j i : Nat) (b : Bool) (e : MEntry) (s : State) (y : Sys), j < 4096 → (s.sys.brandOf j).entries[i]? = some e →
    (s.sys.hashing (.region j i b) = false → exec (.regionHashDone j i b) s = .next s) ∧
    (s.sys.hashing (.region j i b) = true →
      ((s.sys.hashDone (.region j i b)).hashRead e.addr e.len = (y, none) → exec (.regionHashDone j i b) s = .next { s with sys := y.cancelJob j 0x30 }) ∧
      (∀ bs, (s.sys.hashDone (.region j i b)).hashRead e.addr e.len = (y, some bs) →
        exec (.regionHashDone j i b) s = .next { s with sys := y.regionDone j i b (Shake.shake256 32 bs) }))) ∧
  (∀ (j i : Nat) (d : List Byte) (y : Sys), ∃ z, z = y.modBrand j (fun b => { b with starts := tset b.starts i d }) ∧ y.regionDone j i false d =
    if (z.brandOf j).allIn (z.brandOf j).starts then (z.modBrand j fun b => { b with st := 2 }).enterRunning j else z) ∧
  (∀ (s : State), (s.sys.glob.ready = false ∨ s.sys.sec.attSt = 1 → exec .attGo s = .next s.rejected) ∧
    (s.sys.glob.ready = true → s.sys.sec.attSt ≠ 1 → ∀ y, y = { s.sys with sec := { s.sys.sec with attSeq := (s.sys.sec.attSeq + 1) % 2 ^ 32, attSt := 1 } } →
      exec .attGo s = .next { s with sys := { y with sec := { y.sec with attBody := y.report s.boot.cause } } }) ∧
    (s.sys.sec.attSt ≠ 1 → exec (.attReportWritten true) s = .next s ∧ exec (.attReportWritten false) s = .next s) ∧
    (s.sys.sec.attSt = 1 → exec (.attReportWritten false) s = .next { s with sys := Sys.secEvent 4 { s.sys with sec := { s.sys.sec with attSt := 3 } } } ∧
      ((s.sys.module 0).st = 3 → ∃ y : Sys, y = s.sys.postFirst 0 (hostPackets 0 65 s.sys.sec.attAddr (s.sys.sec.attBody ++ padTo 17088
          (Config.slhSign s.boot.secret s.sys.sec.attBody))) ∧
        exec (.attReportWritten true) s = .next { s with sys := Sys.secEvent 3 { y with sec := { y.sec with attSt := 2 } } })))

/-- Tier 1. Each block's CLR_COUNTS sets the counters its register table names to 0 and changes nothing else: an enabled stall's TILE_OVERRUNS,
gather/scatter range and substitutions, and its quantisation counters (a disabled stall's write is rejected); the audit's, KV's of the selected
domain, the raster's, the vision engines', Bridle's (its two maxima to 0), Girth's (its peak to 0), a pipe's, the host link's, the Harness's,
memory's, the fault block's and the security block's. A register write that clears counters carries the events that fall in its cycle, bit i for the
i-th counter, and such a counter ends at 1: shown for the clear itself of the blocks of many counters, and for whole writes of GIRTH_CTRL and
MEM_CTRL. Completion, that exec answers a next state with the command's own effect under conditions on the state and the operands alone, is a
conclusion here for: stallClrCounts, stallQclrCounts, pipeClrCounts, consClrCounts, kvClrCounts, rasterClrCounts, visionClrCounts, bridleClrCounts,
girthClrCounts, hostlinkClrCounts, harnessClrCounts, memClrCounts, faultClrCounts, secClrCounts. (19_register_index, 01_organisation,
04_cores_and_engines, 12_bridle_scheduler, 16_girth_power) -/
def Obligations.ClearedCounters : Prop :=
  (∀ (k : Nat) (s : State), k < 64 → ∀ t, t = s.sys.stall k →
    (s.sys.enabled k = true →
      exec (.stallClrCounts k) s = .next { s with sys := { s.sys with stalls := tset s.sys.stalls k { t with tileOverruns := 0, gsRange := 0, subst := 0 } } } ∧
      exec (.stallQclrCounts k) s = .next { s with sys := { s.sys with stalls := tset s.sys.stalls k { t with expSat := 0, convSat := 0, escapes := 0, regauges := 0 } } }) ∧
    (s.sys.enabled k = false → exec (.stallClrCounts k) s = .next s.rejected ∧ exec (.stallQclrCounts k) s = .next s.rejected)) ∧
  (∀ (k : Nat) (s : State), k < 2 →
    exec (.pipeClrCounts k) s = .next { s with sys := s.sys.modPipe k fun p => { p with underPx := 0, underLines := 0, calmFrames := 0 } }) ∧
  (∀ (s : State) (y : Sys), y = s.sys →
    exec .consClrCounts s = .next { s with sys := { y with cons := { y.cons with faults := 0, sweeps := 0, semAuto := 0 } } } ∧
    (y.glob.config ≠ 2 → exec .kvClrCounts s = .next { s with sys := y.modKvDom y.kv.sel fun d => { d with spills := 0, evicts := 0, pfLate := 0 } }) ∧
    exec .rasterClrCounts s = .next { s with sys := { y with raster := { y.raster with grows := 0, abandoned := 0, quadStalls := 0 } } } ∧
    exec .visionClrCounts s = .next { s with sys := { y with vision := { y.vision with notex := 0, occl := 0, refined := 0, features := 0, stops := 0 } } } ∧
    exec .bridleClrCounts s = .next { s with sys := { y with bridle := { y.bridle with preempts := 0, preemptBlocked := 0, lends := 0, holdCancels := 0, parks := 0, affHits := 0, affStale := 0, drainCancels := 0, maxSwitch := 0, maxPreempt := 0 } } } ∧
    exec .girthClrCounts s = .next { s with sys := { y with girth := { y.girth with steps := 0, droops := 0, stretch := 0, reasonUs := (List.range 8).map fun k => (k, 0), reasonAcc := 0, peak := 0 } } } ∧
    exec .hostlinkClrCounts s = .next { s with sys := { y with link := { y.link with replays := 0, retrains := 0, dbDropped := 0, dbRange := 0, lateCpl := 0, malformed := 0 } } } ∧
    exec .harnessClrCounts s = .next { s with sys := { y with duo := { y.duo with mismatches := 0, bandMismatches := 0, hbMissed := 0, roleChanges := 0 } } } ∧
    exec .memClrCounts s = .next { s with sys := { y with mem := { y.mem with linkCorr := 0, inlineCorr := 0, uncorr := 0, loftCorr := 0, hits := (List.range 8).map fun d => (d, 0), misses := (List.range 8).map fun d => (d, 0) } } } ∧
    exec .faultClrCounts s = .next { s with sys := { y with flt := { y.flt with reexec := 0, corrected := 0, stallsLost := 0 } } } ∧
    exec .secClrCounts s = .next { s with sys := { y with sec := { y.sec with sealRejects := 0, brandFails := 0 } } }) ∧
  (∀ (same : Nat) (n : Nat → Nat) (y : Sys), (∀ i, n i = if bitAt same i then 1 else 0) →
    (∀ k, y.stallQclear k same = y.modStall k fun t => { t with expSat := n 0, convSat := n 1, escapes := n 2, regauges := n 3 }) ∧
    y.visionClear same = { y with vision := { y.vision with notex := n 0, occl := n 1, refined := n 2, features := n 3, stops := n 4 } } ∧
    y.bridleClear same = { y with bridle := { y.bridle with preempts := n 0, preemptBlocked := n 1, lends := n 2, holdCancels := n 3, parks := n 4, affHits := n 5, affStale := n 6, drainCancels := n 7, maxSwitch := 0, maxPreempt := 0 } } ∧
    y.girthClear same = { y with girth := { y.girth with steps := n 0, droops := n 1, stretch := n 2, reasonUs := (List.range 8).map fun k => (k, n (3 + k)), reasonAcc := 0, peak := 0 } } ∧
    y.memClear same = { y with mem := { y.mem with linkCorr := n 0, inlineCorr := n 1, uncorr := n 2, loftCorr := n 3, hits := (List.range 8).map fun d => (d, n (4 + d)), misses := (List.range 8).map fun d => (d, n (12 + d)) } }) ∧
  (∀ (m same : Nat) (s : State) (y : Sys), m < 2 → (s.sys.module m).st = 3 → s.sys.inStill = false → y = { s.sys with out := .crd m 1 0 1 :: s.sys.out } →
    exec (.registerWrite m 0x20004C ⟨1, same⟩ 4) s = .next { s with sys := y.girthClear same } ∧
    exec (.registerWrite m 0x500058 ⟨1, same⟩ 4) s = .next { s with sys := y.memClear same })
end

