-- ==== Sys2Proof/Laws/Memory.lean ====
section
/-! SUPPORT. Laws of memories: what a byte reads after a write, and that every memory operation keeps the canonical form. -/

namespace Sys2Proof.Machine

/-! ### One byte -/

theorem Cells.get_append (c d : Cells) (a : Nat) (h : ∀ p ∈ c, p.1 ≠ a) : Cells.get (c ++ d) a = Cells.get d a := by
  induction c with
  | nil => rfl
  | cons p c ih =>
    obtain ⟨k, v⟩ := p
    have h0 : k ≠ a := h (k, v) (by simp)
    simp only [List.cons_append, Cells.get, if_neg h0]
    exact ih fun q hq => h q (by simp [hq])

theorem Cells.get_none (c : Cells) (a : Nat) (h : ∀ p ∈ c, p.1 ≠ a) : Cells.get c a = 0 := by
  have := Cells.get_append c [] a h
  simpa [Cells.get] using this

theorem Cells.get_append_left (c d : Cells) (a : Nat) (h : ∀ p ∈ d, p.1 ≠ a) : Cells.get (c ++ d) a = Cells.get c a := by
  induction c with
  | nil => simpa [Cells.get] using Cells.get_none d a h
  | cons p c ih => obtain ⟨k, v⟩ := p; simp only [List.cons_append, Cells.get, ih]

theorem Cells.get_filter (c : Cells) (f : Nat → Bool) (a : Nat) : Cells.get (c.filter fun p => f p.1) a = if f a then Cells.get c a else 0 := by
  induction c with
  | nil => simp [Cells.get]
  | cons p c ih =>
    obtain ⟨k, v⟩ := p
    by_cases e : k = a
    · subst e; by_cases hf : f k = true <;> simp [hf, Cells.get, ih]
    · by_cases hf : f k = true <;> simp [hf, Cells.get, ih, e]

theorem Cells.mem_ofBytes {a : Nat} {bs : List Byte} {p : Nat × Byte} (h : p ∈ Cells.ofBytes a bs) : a ≤ p.1 ∧ p.1 < a + bs.length ∧ p.2 ≠ 0 := by
  induction bs generalizing a with
  | nil => simp [Cells.ofBytes] at h
  | cons b t ih =>
    simp only [Cells.ofBytes] at h
    split at h
    · have := ih h; exact ⟨by omega, by simp only [List.length_cons]; omega, this.2.2⟩
    · rcases List.mem_cons.1 h with rfl | h
      · rename_i hb; exact ⟨Nat.le_refl _, by simp, hb⟩
      · have := ih h; exact ⟨by omega, by simp only [List.length_cons]; omega, this.2.2⟩

theorem Cells.get_ofBytes (a : Nat) (bs : List Byte) (x : Nat) :
    Cells.get (Cells.ofBytes a bs) x = if a ≤ x then bs.getD (x - a) 0 else 0 := by
  induction bs generalizing a with
  | nil => simp [Cells.ofBytes, Cells.get]
  | cons b t ih =>
    by_cases e : x = a
    · subst e
      have none : Cells.get (Cells.ofBytes (x + 1) t) x = 0 := by rw [ih]; simp
      by_cases hb : b = 0
      · simp only [Cells.ofBytes, if_pos hb, none]; simp [hb]
      · simp only [Cells.ofBytes, if_neg hb, Cells.get]; simp
    · have step : Cells.get (Cells.ofBytes a (b :: t)) x = Cells.get (Cells.ofBytes (a + 1) t) x := by
        by_cases hb : b = 0
        · simp only [Cells.ofBytes, if_pos hb]
        · simp only [Cells.ofBytes, if_neg hb, Cells.get, if_neg (Ne.symm e)]
      rw [step, ih]
      by_cases h : a ≤ x
      · have h' : a + 1 ≤ x := by omega
        obtain ⟨n, hn⟩ : ∃ n, x - a = n + 1 := ⟨x - a - 1, by omega⟩
        have hm : x - (a + 1) = n := by omega
        simp [h, h', hn, hm]
      · have h' : ¬ a + 1 ≤ x := by omega
        simp [h, h']

/-- A byte after a write: the byte written, or what it was. -/
theorem Cells.get_write (c : Cells) (a : Nat) (bs : List Byte) (x : Nat) :
    Cells.get (Cells.write c a bs) x = if a ≤ x ∧ x < a + bs.length then bs.getD (x - a) 0 else Cells.get c x := by
  unfold Cells.write
  by_cases lo : x < a
  · rw [List.append_assoc, Cells.get_append_left]
    · have : ¬ (a ≤ x ∧ x < a + bs.length) := by omega
      rw [Cells.get_filter c (fun k => decide (k < a))]; simp [lo, this]
    · intro p hp
      rcases List.mem_append.1 hp with h | h
      · have := Cells.mem_ofBytes h; omega
      · have := (List.mem_filter.1 h).2; simp at this; omega
  · have skip : ∀ p ∈ c.filter (fun p => decide (p.1 < a)), p.1 ≠ x := by
      intro p hp; have := (List.mem_filter.1 hp).2; simp at this; omega
    rw [List.append_assoc, Cells.get_append _ _ _ skip]
    by_cases hi : x < a + bs.length
    · rw [Cells.get_append_left, Cells.get_ofBytes]
      · have h1 : a ≤ x := by omega
        simp [h1, hi]
      · intro p hp; have := (List.mem_filter.1 hp).2; simp at this; omega
    · rw [Cells.get_append, Cells.get_filter c (fun k => decide (a + bs.length ≤ k))]
      · have h1 : ¬ (a ≤ x ∧ x < a + bs.length) := by omega
        have h2 : a + bs.length ≤ x := by omega
        simp [h1, h2]
      · intro p hp; have := Cells.mem_ofBytes hp; omega

/-! ### Ranges -/

@[simp] theorem Cells.read_length (c : Cells) (a n : Nat) : (Cells.read c a n).length = n := by simp [Cells.read]

theorem Cells.get_window (c : Cells) (a n x : Nat) (h : a ≤ x ∧ x < a + n) : Cells.get (Cells.window c a n) x = Cells.get c x := by
  unfold Cells.window
  rw [Cells.get_filter c (fun k => decide (a ≤ k ∧ k < a + n))]; simp [h]

/-- A read of n bytes is n reads of one byte. -/
theorem Cells.read_eq (c : Cells) (a n : Nat) : Cells.read c a n = (List.range n).map fun i => Cells.get c (a + i) := by
  unfold Cells.read
  refine List.map_congr_left fun i hi => ?_
  exact Cells.get_window c a n (a + i) ⟨by omega, by have := List.mem_range.1 hi; omega⟩

/-- A read of the range written gives the bytes written. -/
theorem Cells.read_write_same (c : Cells) (a : Nat) (bs : List Byte) : Cells.read (Cells.write c a bs) a bs.length = bs := by
  rw [Cells.read_eq]
  refine List.ext_getElem (by simp) fun i h1 h2 => ?_
  simp only [List.getElem_map, List.getElem_range, Cells.get_write]
  rw [if_pos ⟨by omega, by omega⟩]; simp [List.getD_eq_getElem?_getD, h2]

/-- A read apart from the range written gives what it gave. -/
theorem Cells.read_write_apart (c : Cells) (a : Nat) (bs : List Byte) (b n : Nat) (h : b + n ≤ a ∨ a + bs.length ≤ b) :
    Cells.read (Cells.write c a bs) b n = Cells.read c b n := by
  rw [Cells.read_eq, Cells.read_eq]
  refine List.map_congr_left fun i hi => ?_
  rw [Cells.get_write, if_neg (by have := List.mem_range.1 hi; omega)]

/-! ### Canonical form -/

/-- The canonical form, said of all pairs: addresses strictly rising, no byte 0. -/
theorem Cells.wf_iff (c : Cells) : Cells.wf c = true ↔ c.Pairwise (fun p q => p.1 < q.1) ∧ ∀ p ∈ c, p.2 ≠ 0 := by
  induction c with
  | nil => simp [Cells.wf]
  | cons p t ih =>
    obtain ⟨a, v⟩ := p
    cases t with
    | nil => simp [Cells.wf]
    | cons q t =>
      obtain ⟨b, w⟩ := q
      simp only [Cells.wf, Bool.and_eq_true, decide_eq_true_eq, bne_iff_ne, ih]
      constructor
      · rintro ⟨⟨hab, hv⟩, hp, hn⟩
        refine ⟨List.pairwise_cons.2 ⟨?_, hp⟩, ?_⟩
        · intro r hr
          rcases List.mem_cons.1 hr with rfl | hr
          · exact hab
          · exact Nat.lt_trans hab ((List.pairwise_cons.1 hp).1 r hr)
        · intro r hr
          rcases List.mem_cons.1 hr with rfl | hr
          · exact hv
          · exact hn r hr
      · rintro ⟨hp, hn⟩
        exact ⟨⟨(List.pairwise_cons.1 hp).1 (b, w) (by simp), hn (a, v) (by simp)⟩, (List.pairwise_cons.1 hp).2, fun r hr => hn r (by simp [hr])⟩

theorem Cells.ofBytes_rising (a : Nat) (bs : List Byte) : (Cells.ofBytes a bs).Pairwise fun p q => p.1 < q.1 := by
  induction bs generalizing a with
  | nil => simp [Cells.ofBytes]
  | cons b t ih =>
    simp only [Cells.ofBytes]
    split
    · exact ih (a + 1)
    · refine List.pairwise_cons.2 ⟨fun p hp => ?_, ih (a + 1)⟩
      have := Cells.mem_ofBytes hp; omega

/-- A write keeps the canonical form. -/
theorem Cells.write_wf (c : Cells) (a : Nat) (bs : List Byte) (h : Cells.wf c = true) : Cells.wf (Cells.write c a bs) = true := by
  rw [Cells.wf_iff] at h ⊢
  obtain ⟨hp, hn⟩ := h
  unfold Cells.write
  refine ⟨?_, ?_⟩
  · rw [List.append_assoc]
    refine List.pairwise_append.2 ⟨hp.filter _, List.pairwise_append.2 ⟨Cells.ofBytes_rising a bs, hp.filter _, ?_⟩, ?_⟩
    · intro p h1 q h2
      have := Cells.mem_ofBytes h1
      have := (List.mem_filter.1 h2).2
      simp at this; omega
    · intro p h1 q h2
      have h3 := (List.mem_filter.1 h1).2
      simp at h3
      rcases List.mem_append.1 h2 with h2 | h2
      · have := Cells.mem_ofBytes h2; omega
      · have := (List.mem_filter.1 h2).2; simp at this; omega
  · intro p h
    rcases List.mem_append.1 h with h | h
    · rcases List.mem_append.1 h with h | h
      · exact hn p (List.mem_filter.1 h).1
      · exact (Cells.mem_ofBytes h).2.2
    · exact hn p (List.mem_filter.1 h).1

/-- Dropping cells keeps the canonical form. -/
theorem Cells.filter_wf (c : Cells) (f : Nat × Byte → Bool) (h : Cells.wf c = true) : Cells.wf (c.filter f) = true := by
  rw [Cells.wf_iff] at h ⊢
  exact ⟨h.1.filter _, fun p hp => h.2 p (List.mem_filter.1 hp).1⟩

/-- In canonical form, memories that read alike are equal data. -/
theorem Cells.eq_of_get (c d : Cells) (hc : Cells.wf c = true) (hd : Cells.wf d = true) (h : ∀ a, Cells.get c a = Cells.get d a) : c = d := by
  rw [Cells.wf_iff] at hc hd
  induction c generalizing d with
  | nil =>
    cases d with
    | nil => rfl
    | cons p d =>
      obtain ⟨a, v⟩ := p
      have := h a
      simp [Cells.get] at this
      exact absurd this.symm (hd.2 (a, v) (by simp))
  | cons p c ih =>
    obtain ⟨a, v⟩ := p
    cases d with
    | nil =>
      have := h a
      simp [Cells.get] at this
      exact absurd this (hc.2 (a, v) (by simp))
    | cons q d =>
      obtain ⟨b, w⟩ := q
      have hc' := List.pairwise_cons.1 hc.1
      have hd' := List.pairwise_cons.1 hd.1
      have lo : ∀ x, x < b → Cells.get ((b, w) :: d) x = 0 := fun x hx => Cells.get_none _ _ fun p hp => by
        rcases List.mem_cons.1 hp with rfl | hp
        · show b ≠ x; omega
        · have := hd'.1 p hp; simp at this; omega
      have lo' : ∀ x, x < a → Cells.get ((a, v) :: c) x = 0 := fun x hx => Cells.get_none _ _ fun p hp => by
        rcases List.mem_cons.1 hp with rfl | hp
        · show a ≠ x; omega
        · have := hc'.1 p hp; simp at this; omega
      have hv : v ≠ 0 := hc.2 (a, v) (by simp)
      have hw : w ≠ 0 := hd.2 (b, w) (by simp)
      have e : a = b := by
        rcases Nat.lt_trichotomy a b with g | g | g
        · have := h a; rw [lo a g] at this; simp [Cells.get] at this; exact absurd this hv
        · exact g
        · have := h b; rw [lo' b g] at this; simp [Cells.get] at this; exact absurd this.symm hw
      subst e
      have ev : v = w := by have := h a; simpa [Cells.get] using this
      subst ev
      have : c = d := by
        refine ih d ⟨hc'.2, fun p hp => hc.2 p (by simp [hp])⟩ ⟨hd'.2, fun p hp => hd.2 p (by simp [hp])⟩ fun x => ?_
        by_cases ex : a = x
        · subst ex
          rw [Cells.get_none c a fun p hp => by have := hc'.1 p hp; simp at this; omega,
            Cells.get_none d a fun p hp => by have := hd'.1 p hp; simp at this; omega]
        · have := h x; simpa [Cells.get, ex] using this
      rw [this]

/-! ### The memories -/

/-- A write of device memory keeps its canonical form. -/
theorem MemSys.dramWrite_wf (m : MemSys) (a : Nat) (bs : List Byte) (h : Cells.wf m.dram = true) : Cells.wf (m.dramWrite a bs).dram = true :=
  Cells.write_wf _ _ _ h

theorem MemSys.writeBack_wf (m : MemSys) (l : LoftLine) (h : Cells.wf m.dram = true) : Cells.wf (m.writeBack l).dram = true := by
  unfold MemSys.writeBack; split
  · exact MemSys.dramWrite_wf _ _ _ h
  · exact h

/-- A granule becoming valid keeps the canonical form of a store. -/
theorem Store.validate_wf (st : Store) (gr g : Nat) (h : Cells.wf st.cells = true) : Cells.wf (st.validate gr g).cells = true := by
  unfold Store.validate; split
  · exact h
  · exact Cells.write_wf _ _ _ h

/-- A write of a store keeps its canonical form. -/
theorem Store.write_wf (st : Store) (gr a : Nat) (bs : List Byte) (h : Cells.wf st.cells = true) : Cells.wf (st.write gr a bs).cells = true := by
  unfold Store.write; split
  · exact h
  · refine Cells.write_wf _ _ _ ?_
    generalize (List.range _).map _ = gs
    induction gs generalizing st with
    | nil => exact h
    | cons g gs ih => exact ih _ (Store.validate_wf st gr g h)

theorem Store.invalidateFrom_wf (st : Store) (gr g : Nat) (h : Cells.wf st.cells = true) : Cells.wf (st.invalidateFrom gr g).cells = true :=
  Cells.filter_wf _ _ h

/-- The memories at reset list nothing. -/
theorem reset_memory : State.reset.sys.mem.dram = [] ∧ State.reset.sys.mem.host = [] := ⟨rfl, rfl⟩

theorem reset_memory_wf : Cells.wf State.reset.sys.mem.dram = true ∧ Cells.wf State.reset.sys.mem.host = true := ⟨rfl, rfl⟩

end Sys2Proof.Machine
end

