-- ==== Sys2Proof/Laws/State.lean ====
section
/-! SUPPORT. One lemma per block per update: what a block modifier leaves, true by rfl, so that no proof unfolds a record update. -/

namespace Sys2Proof.Machine

section
variable (y : Sys) (f : Glob → Glob)
@[simp] theorem Sys.modGlob_glob : (y.modGlob f).glob = f y.glob := rfl
@[simp] theorem Sys.modGlob_mem : (y.modGlob f).mem = y.mem := rfl
@[simp] theorem Sys.modGlob_link : (y.modGlob f).link = y.link := rfl
@[simp] theorem Sys.modGlob_cons : (y.modGlob f).cons = y.cons := rfl
@[simp] theorem Sys.modGlob_bridle : (y.modGlob f).bridle = y.bridle := rfl
@[simp] theorem Sys.modGlob_work : (y.modGlob f).work = y.work := rfl
@[simp] theorem Sys.modGlob_girth : (y.modGlob f).girth = y.girth := rfl
@[simp] theorem Sys.modGlob_beam : (y.modGlob f).beam = y.beam := rfl
@[simp] theorem Sys.modGlob_stalls : (y.modGlob f).stalls = y.stalls := rfl
@[simp] theorem Sys.modGlob_cores : (y.modGlob f).cores = y.cores := rfl
@[simp] theorem Sys.modGlob_dma : (y.modGlob f).dma = y.dma := rfl
@[simp] theorem Sys.modGlob_duo : (y.modGlob f).duo = y.duo := rfl
@[simp] theorem Sys.modGlob_flt : (y.modGlob f).flt = y.flt := rfl
@[simp] theorem Sys.modGlob_sec : (y.modGlob f).sec = y.sec := rfl
@[simp] theorem Sys.modGlob_kv : (y.modGlob f).kv = y.kv := rfl
@[simp] theorem Sys.modGlob_raster : (y.modGlob f).raster = y.raster := rfl
@[simp] theorem Sys.modGlob_vision : (y.modGlob f).vision = y.vision := rfl
@[simp] theorem Sys.modGlob_fg : (y.modGlob f).fg = y.fg := rfl
@[simp] theorem Sys.modGlob_pipe0 : (y.modGlob f).pipe0 = y.pipe0 := rfl
@[simp] theorem Sys.modGlob_pipe1 : (y.modGlob f).pipe1 = y.pipe1 := rfl
@[simp] theorem Sys.modGlob_out : (y.modGlob f).out = y.out := rfl
@[simp] theorem Sys.modGlob_chance : (y.modGlob f).chance = y.chance := rfl
@[simp] theorem Sys.modGlob_flits : (y.modGlob f).flits = y.flits := rfl
end

section
variable (y : Sys) (f : MemSys → MemSys)
@[simp] theorem Sys.modMem_glob : (y.modMem f).glob = y.glob := rfl
@[simp] theorem Sys.modMem_mem : (y.modMem f).mem = f y.mem := rfl
@[simp] theorem Sys.modMem_link : (y.modMem f).link = y.link := rfl
@[simp] theorem Sys.modMem_cons : (y.modMem f).cons = y.cons := rfl
@[simp] theorem Sys.modMem_bridle : (y.modMem f).bridle = y.bridle := rfl
@[simp] theorem Sys.modMem_work : (y.modMem f).work = y.work := rfl
@[simp] theorem Sys.modMem_girth : (y.modMem f).girth = y.girth := rfl
@[simp] theorem Sys.modMem_beam : (y.modMem f).beam = y.beam := rfl
@[simp] theorem Sys.modMem_stalls : (y.modMem f).stalls = y.stalls := rfl
@[simp] theorem Sys.modMem_cores : (y.modMem f).cores = y.cores := rfl
@[simp] theorem Sys.modMem_dma : (y.modMem f).dma = y.dma := rfl
@[simp] theorem Sys.modMem_duo : (y.modMem f).duo = y.duo := rfl
@[simp] theorem Sys.modMem_flt : (y.modMem f).flt = y.flt := rfl
@[simp] theorem Sys.modMem_sec : (y.modMem f).sec = y.sec := rfl
@[simp] theorem Sys.modMem_kv : (y.modMem f).kv = y.kv := rfl
@[simp] theorem Sys.modMem_raster : (y.modMem f).raster = y.raster := rfl
@[simp] theorem Sys.modMem_vision : (y.modMem f).vision = y.vision := rfl
@[simp] theorem Sys.modMem_fg : (y.modMem f).fg = y.fg := rfl
@[simp] theorem Sys.modMem_pipe0 : (y.modMem f).pipe0 = y.pipe0 := rfl
@[simp] theorem Sys.modMem_pipe1 : (y.modMem f).pipe1 = y.pipe1 := rfl
@[simp] theorem Sys.modMem_out : (y.modMem f).out = y.out := rfl
@[simp] theorem Sys.modMem_chance : (y.modMem f).chance = y.chance := rfl
@[simp] theorem Sys.modMem_flits : (y.modMem f).flits = y.flits := rfl
end

section
variable (y : Sys) (f : Link → Link)
@[simp] theorem Sys.modLink_glob : (y.modLink f).glob = y.glob := rfl
@[simp] theorem Sys.modLink_mem : (y.modLink f).mem = y.mem := rfl
@[simp] theorem Sys.modLink_link : (y.modLink f).link = f y.link := rfl
@[simp] theorem Sys.modLink_cons : (y.modLink f).cons = y.cons := rfl
@[simp] theorem Sys.modLink_bridle : (y.modLink f).bridle = y.bridle := rfl
@[simp] theorem Sys.modLink_work : (y.modLink f).work = y.work := rfl
@[simp] theorem Sys.modLink_girth : (y.modLink f).girth = y.girth := rfl
@[simp] theorem Sys.modLink_beam : (y.modLink f).beam = y.beam := rfl
@[simp] theorem Sys.modLink_stalls : (y.modLink f).stalls = y.stalls := rfl
@[simp] theorem Sys.modLink_cores : (y.modLink f).cores = y.cores := rfl
@[simp] theorem Sys.modLink_dma : (y.modLink f).dma = y.dma := rfl
@[simp] theorem Sys.modLink_duo : (y.modLink f).duo = y.duo := rfl
@[simp] theorem Sys.modLink_flt : (y.modLink f).flt = y.flt := rfl
@[simp] theorem Sys.modLink_sec : (y.modLink f).sec = y.sec := rfl
@[simp] theorem Sys.modLink_kv : (y.modLink f).kv = y.kv := rfl
@[simp] theorem Sys.modLink_raster : (y.modLink f).raster = y.raster := rfl
@[simp] theorem Sys.modLink_vision : (y.modLink f).vision = y.vision := rfl
@[simp] theorem Sys.modLink_fg : (y.modLink f).fg = y.fg := rfl
@[simp] theorem Sys.modLink_pipe0 : (y.modLink f).pipe0 = y.pipe0 := rfl
@[simp] theorem Sys.modLink_pipe1 : (y.modLink f).pipe1 = y.pipe1 := rfl
@[simp] theorem Sys.modLink_out : (y.modLink f).out = y.out := rfl
@[simp] theorem Sys.modLink_chance : (y.modLink f).chance = y.chance := rfl
@[simp] theorem Sys.modLink_flits : (y.modLink f).flits = y.flits := rfl
end

section
variable (y : Sys) (f : Cons → Cons)
@[simp] theorem Sys.modCons_glob : (y.modCons f).glob = y.glob := rfl
@[simp] theorem Sys.modCons_mem : (y.modCons f).mem = y.mem := rfl
@[simp] theorem Sys.modCons_link : (y.modCons f).link = y.link := rfl
@[simp] theorem Sys.modCons_cons : (y.modCons f).cons = f y.cons := rfl
@[simp] theorem Sys.modCons_bridle : (y.modCons f).bridle = y.bridle := rfl
@[simp] theorem Sys.modCons_work : (y.modCons f).work = y.work := rfl
@[simp] theorem Sys.modCons_girth : (y.modCons f).girth = y.girth := rfl
@[simp] theorem Sys.modCons_beam : (y.modCons f).beam = y.beam := rfl
@[simp] theorem Sys.modCons_stalls : (y.modCons f).stalls = y.stalls := rfl
@[simp] theorem Sys.modCons_cores : (y.modCons f).cores = y.cores := rfl
@[simp] theorem Sys.modCons_dma : (y.modCons f).dma = y.dma := rfl
@[simp] theorem Sys.modCons_duo : (y.modCons f).duo = y.duo := rfl
@[simp] theorem Sys.modCons_flt : (y.modCons f).flt = y.flt := rfl
@[simp] theorem Sys.modCons_sec : (y.modCons f).sec = y.sec := rfl
@[simp] theorem Sys.modCons_kv : (y.modCons f).kv = y.kv := rfl
@[simp] theorem Sys.modCons_raster : (y.modCons f).raster = y.raster := rfl
@[simp] theorem Sys.modCons_vision : (y.modCons f).vision = y.vision := rfl
@[simp] theorem Sys.modCons_fg : (y.modCons f).fg = y.fg := rfl
@[simp] theorem Sys.modCons_pipe0 : (y.modCons f).pipe0 = y.pipe0 := rfl
@[simp] theorem Sys.modCons_pipe1 : (y.modCons f).pipe1 = y.pipe1 := rfl
@[simp] theorem Sys.modCons_out : (y.modCons f).out = y.out := rfl
@[simp] theorem Sys.modCons_chance : (y.modCons f).chance = y.chance := rfl
@[simp] theorem Sys.modCons_flits : (y.modCons f).flits = y.flits := rfl
end

section
variable (y : Sys) (f : Bridle → Bridle)
@[simp] theorem Sys.modBridle_glob : (y.modBridle f).glob = y.glob := rfl
@[simp] theorem Sys.modBridle_mem : (y.modBridle f).mem = y.mem := rfl
@[simp] theorem Sys.modBridle_link : (y.modBridle f).link = y.link := rfl
@[simp] theorem Sys.modBridle_cons : (y.modBridle f).cons = y.cons := rfl
@[simp] theorem Sys.modBridle_bridle : (y.modBridle f).bridle = f y.bridle := rfl
@[simp] theorem Sys.modBridle_work : (y.modBridle f).work = y.work := rfl
@[simp] theorem Sys.modBridle_girth : (y.modBridle f).girth = y.girth := rfl
@[simp] theorem Sys.modBridle_beam : (y.modBridle f).beam = y.beam := rfl
@[simp] theorem Sys.modBridle_stalls : (y.modBridle f).stalls = y.stalls := rfl
@[simp] theorem Sys.modBridle_cores : (y.modBridle f).cores = y.cores := rfl
@[simp] theorem Sys.modBridle_dma : (y.modBridle f).dma = y.dma := rfl
@[simp] theorem Sys.modBridle_duo : (y.modBridle f).duo = y.duo := rfl
@[simp] theorem Sys.modBridle_flt : (y.modBridle f).flt = y.flt := rfl
@[simp] theorem Sys.modBridle_sec : (y.modBridle f).sec = y.sec := rfl
@[simp] theorem Sys.modBridle_kv : (y.modBridle f).kv = y.kv := rfl
@[simp] theorem Sys.modBridle_raster : (y.modBridle f).raster = y.raster := rfl
@[simp] theorem Sys.modBridle_vision : (y.modBridle f).vision = y.vision := rfl
@[simp] theorem Sys.modBridle_fg : (y.modBridle f).fg = y.fg := rfl
@[simp] theorem Sys.modBridle_pipe0 : (y.modBridle f).pipe0 = y.pipe0 := rfl
@[simp] theorem Sys.modBridle_pipe1 : (y.modBridle f).pipe1 = y.pipe1 := rfl
@[simp] theorem Sys.modBridle_out : (y.modBridle f).out = y.out := rfl
@[simp] theorem Sys.modBridle_chance : (y.modBridle f).chance = y.chance := rfl
@[simp] theorem Sys.modBridle_flits : (y.modBridle f).flits = y.flits := rfl
end

section
variable (y : Sys) (f : Work → Work)
@[simp] theorem Sys.modWork_glob : (y.modWork f).glob = y.glob := rfl
@[simp] theorem Sys.modWork_mem : (y.modWork f).mem = y.mem := rfl
@[simp] theorem Sys.modWork_link : (y.modWork f).link = y.link := rfl
@[simp] theorem Sys.modWork_cons : (y.modWork f).cons = y.cons := rfl
@[simp] theorem Sys.modWork_bridle : (y.modWork f).bridle = y.bridle := rfl
@[simp] theorem Sys.modWork_work : (y.modWork f).work = f y.work := rfl
@[simp] theorem Sys.modWork_girth : (y.modWork f).girth = y.girth := rfl
@[simp] theorem Sys.modWork_beam : (y.modWork f).beam = y.beam := rfl
@[simp] theorem Sys.modWork_stalls : (y.modWork f).stalls = y.stalls := rfl
@[simp] theorem Sys.modWork_cores : (y.modWork f).cores = y.cores := rfl
@[simp] theorem Sys.modWork_dma : (y.modWork f).dma = y.dma := rfl
@[simp] theorem Sys.modWork_duo : (y.modWork f).duo = y.duo := rfl
@[simp] theorem Sys.modWork_flt : (y.modWork f).flt = y.flt := rfl
@[simp] theorem Sys.modWork_sec : (y.modWork f).sec = y.sec := rfl
@[simp] theorem Sys.modWork_kv : (y.modWork f).kv = y.kv := rfl
@[simp] theorem Sys.modWork_raster : (y.modWork f).raster = y.raster := rfl
@[simp] theorem Sys.modWork_vision : (y.modWork f).vision = y.vision := rfl
@[simp] theorem Sys.modWork_fg : (y.modWork f).fg = y.fg := rfl
@[simp] theorem Sys.modWork_pipe0 : (y.modWork f).pipe0 = y.pipe0 := rfl
@[simp] theorem Sys.modWork_pipe1 : (y.modWork f).pipe1 = y.pipe1 := rfl
@[simp] theorem Sys.modWork_out : (y.modWork f).out = y.out := rfl
@[simp] theorem Sys.modWork_chance : (y.modWork f).chance = y.chance := rfl
@[simp] theorem Sys.modWork_flits : (y.modWork f).flits = y.flits := rfl
end

section
variable (y : Sys) (f : Girth → Girth)
@[simp] theorem Sys.modGirth_glob : (y.modGirth f).glob = y.glob := rfl
@[simp] theorem Sys.modGirth_mem : (y.modGirth f).mem = y.mem := rfl
@[simp] theorem Sys.modGirth_link : (y.modGirth f).link = y.link := rfl
@[simp] theorem Sys.modGirth_cons : (y.modGirth f).cons = y.cons := rfl
@[simp] theorem Sys.modGirth_bridle : (y.modGirth f).bridle = y.bridle := rfl
@[simp] theorem Sys.modGirth_work : (y.modGirth f).work = y.work := rfl
@[simp] theorem Sys.modGirth_girth : (y.modGirth f).girth = f y.girth := rfl
@[simp] theorem Sys.modGirth_beam : (y.modGirth f).beam = y.beam := rfl
@[simp] theorem Sys.modGirth_stalls : (y.modGirth f).stalls = y.stalls := rfl
@[simp] theorem Sys.modGirth_cores : (y.modGirth f).cores = y.cores := rfl
@[simp] theorem Sys.modGirth_dma : (y.modGirth f).dma = y.dma := rfl
@[simp] theorem Sys.modGirth_duo : (y.modGirth f).duo = y.duo := rfl
@[simp] theorem Sys.modGirth_flt : (y.modGirth f).flt = y.flt := rfl
@[simp] theorem Sys.modGirth_sec : (y.modGirth f).sec = y.sec := rfl
@[simp] theorem Sys.modGirth_kv : (y.modGirth f).kv = y.kv := rfl
@[simp] theorem Sys.modGirth_raster : (y.modGirth f).raster = y.raster := rfl
@[simp] theorem Sys.modGirth_vision : (y.modGirth f).vision = y.vision := rfl
@[simp] theorem Sys.modGirth_fg : (y.modGirth f).fg = y.fg := rfl
@[simp] theorem Sys.modGirth_pipe0 : (y.modGirth f).pipe0 = y.pipe0 := rfl
@[simp] theorem Sys.modGirth_pipe1 : (y.modGirth f).pipe1 = y.pipe1 := rfl
@[simp] theorem Sys.modGirth_out : (y.modGirth f).out = y.out := rfl
@[simp] theorem Sys.modGirth_chance : (y.modGirth f).chance = y.chance := rfl
@[simp] theorem Sys.modGirth_flits : (y.modGirth f).flits = y.flits := rfl
end

section
variable (y : Sys) (f : Beam → Beam)
@[simp] theorem Sys.modBeam_glob : (y.modBeam f).glob = y.glob := rfl
@[simp] theorem Sys.modBeam_mem : (y.modBeam f).mem = y.mem := rfl
@[simp] theorem Sys.modBeam_link : (y.modBeam f).link = y.link := rfl
@[simp] theorem Sys.modBeam_cons : (y.modBeam f).cons = y.cons := rfl
@[simp] theorem Sys.modBeam_bridle : (y.modBeam f).bridle = y.bridle := rfl
@[simp] theorem Sys.modBeam_work : (y.modBeam f).work = y.work := rfl
@[simp] theorem Sys.modBeam_girth : (y.modBeam f).girth = y.girth := rfl
@[simp] theorem Sys.modBeam_beam : (y.modBeam f).beam = f y.beam := rfl
@[simp] theorem Sys.modBeam_stalls : (y.modBeam f).stalls = y.stalls := rfl
@[simp] theorem Sys.modBeam_cores : (y.modBeam f).cores = y.cores := rfl
@[simp] theorem Sys.modBeam_dma : (y.modBeam f).dma = y.dma := rfl
@[simp] theorem Sys.modBeam_duo : (y.modBeam f).duo = y.duo := rfl
@[simp] theorem Sys.modBeam_flt : (y.modBeam f).flt = y.flt := rfl
@[simp] theorem Sys.modBeam_sec : (y.modBeam f).sec = y.sec := rfl
@[simp] theorem Sys.modBeam_kv : (y.modBeam f).kv = y.kv := rfl
@[simp] theorem Sys.modBeam_raster : (y.modBeam f).raster = y.raster := rfl
@[simp] theorem Sys.modBeam_vision : (y.modBeam f).vision = y.vision := rfl
@[simp] theorem Sys.modBeam_fg : (y.modBeam f).fg = y.fg := rfl
@[simp] theorem Sys.modBeam_pipe0 : (y.modBeam f).pipe0 = y.pipe0 := rfl
@[simp] theorem Sys.modBeam_pipe1 : (y.modBeam f).pipe1 = y.pipe1 := rfl
@[simp] theorem Sys.modBeam_out : (y.modBeam f).out = y.out := rfl
@[simp] theorem Sys.modBeam_chance : (y.modBeam f).chance = y.chance := rfl
@[simp] theorem Sys.modBeam_flits : (y.modBeam f).flits = y.flits := rfl
end

section
variable (y : Sys) (f : Tab Stall → Tab Stall)
@[simp] theorem Sys.modStalls_glob : (y.modStalls f).glob = y.glob := rfl
@[simp] theorem Sys.modStalls_mem : (y.modStalls f).mem = y.mem := rfl
@[simp] theorem Sys.modStalls_link : (y.modStalls f).link = y.link := rfl
@[simp] theorem Sys.modStalls_cons : (y.modStalls f).cons = y.cons := rfl
@[simp] theorem Sys.modStalls_bridle : (y.modStalls f).bridle = y.bridle := rfl
@[simp] theorem Sys.modStalls_work : (y.modStalls f).work = y.work := rfl
@[simp] theorem Sys.modStalls_girth : (y.modStalls f).girth = y.girth := rfl
@[simp] theorem Sys.modStalls_beam : (y.modStalls f).beam = y.beam := rfl
@[simp] theorem Sys.modStalls_stalls : (y.modStalls f).stalls = f y.stalls := rfl
@[simp] theorem Sys.modStalls_cores : (y.modStalls f).cores = y.cores := rfl
@[simp] theorem Sys.modStalls_dma : (y.modStalls f).dma = y.dma := rfl
@[simp] theorem Sys.modStalls_duo : (y.modStalls f).duo = y.duo := rfl
@[simp] theorem Sys.modStalls_flt : (y.modStalls f).flt = y.flt := rfl
@[simp] theorem Sys.modStalls_sec : (y.modStalls f).sec = y.sec := rfl
@[simp] theorem Sys.modStalls_kv : (y.modStalls f).kv = y.kv := rfl
@[simp] theorem Sys.modStalls_raster : (y.modStalls f).raster = y.raster := rfl
@[simp] theorem Sys.modStalls_vision : (y.modStalls f).vision = y.vision := rfl
@[simp] theorem Sys.modStalls_fg : (y.modStalls f).fg = y.fg := rfl
@[simp] theorem Sys.modStalls_pipe0 : (y.modStalls f).pipe0 = y.pipe0 := rfl
@[simp] theorem Sys.modStalls_pipe1 : (y.modStalls f).pipe1 = y.pipe1 := rfl
@[simp] theorem Sys.modStalls_out : (y.modStalls f).out = y.out := rfl
@[simp] theorem Sys.modStalls_chance : (y.modStalls f).chance = y.chance := rfl
@[simp] theorem Sys.modStalls_flits : (y.modStalls f).flits = y.flits := rfl
end

section
variable (y : Sys) (f : Tab Core → Tab Core)
@[simp] theorem Sys.modCores_glob : (y.modCores f).glob = y.glob := rfl
@[simp] theorem Sys.modCores_mem : (y.modCores f).mem = y.mem := rfl
@[simp] theorem Sys.modCores_link : (y.modCores f).link = y.link := rfl
@[simp] theorem Sys.modCores_cons : (y.modCores f).cons = y.cons := rfl
@[simp] theorem Sys.modCores_bridle : (y.modCores f).bridle = y.bridle := rfl
@[simp] theorem Sys.modCores_work : (y.modCores f).work = y.work := rfl
@[simp] theorem Sys.modCores_girth : (y.modCores f).girth = y.girth := rfl
@[simp] theorem Sys.modCores_beam : (y.modCores f).beam = y.beam := rfl
@[simp] theorem Sys.modCores_stalls : (y.modCores f).stalls = y.stalls := rfl
@[simp] theorem Sys.modCores_cores : (y.modCores f).cores = f y.cores := rfl
@[simp] theorem Sys.modCores_dma : (y.modCores f).dma = y.dma := rfl
@[simp] theorem Sys.modCores_duo : (y.modCores f).duo = y.duo := rfl
@[simp] theorem Sys.modCores_flt : (y.modCores f).flt = y.flt := rfl
@[simp] theorem Sys.modCores_sec : (y.modCores f).sec = y.sec := rfl
@[simp] theorem Sys.modCores_kv : (y.modCores f).kv = y.kv := rfl
@[simp] theorem Sys.modCores_raster : (y.modCores f).raster = y.raster := rfl
@[simp] theorem Sys.modCores_vision : (y.modCores f).vision = y.vision := rfl
@[simp] theorem Sys.modCores_fg : (y.modCores f).fg = y.fg := rfl
@[simp] theorem Sys.modCores_pipe0 : (y.modCores f).pipe0 = y.pipe0 := rfl
@[simp] theorem Sys.modCores_pipe1 : (y.modCores f).pipe1 = y.pipe1 := rfl
@[simp] theorem Sys.modCores_out : (y.modCores f).out = y.out := rfl
@[simp] theorem Sys.modCores_chance : (y.modCores f).chance = y.chance := rfl
@[simp] theorem Sys.modCores_flits : (y.modCores f).flits = y.flits := rfl
end

section
variable (y : Sys) (f : Dma → Dma)
@[simp] theorem Sys.modDma_glob : (y.modDma f).glob = y.glob := rfl
@[simp] theorem Sys.modDma_mem : (y.modDma f).mem = y.mem := rfl
@[simp] theorem Sys.modDma_link : (y.modDma f).link = y.link := rfl
@[simp] theorem Sys.modDma_cons : (y.modDma f).cons = y.cons := rfl
@[simp] theorem Sys.modDma_bridle : (y.modDma f).bridle = y.bridle := rfl
@[simp] theorem Sys.modDma_work : (y.modDma f).work = y.work := rfl
@[simp] theorem Sys.modDma_girth : (y.modDma f).girth = y.girth := rfl
@[simp] theorem Sys.modDma_beam : (y.modDma f).beam = y.beam := rfl
@[simp] theorem Sys.modDma_stalls : (y.modDma f).stalls = y.stalls := rfl
@[simp] theorem Sys.modDma_cores : (y.modDma f).cores = y.cores := rfl
@[simp] theorem Sys.modDma_dma : (y.modDma f).dma = f y.dma := rfl
@[simp] theorem Sys.modDma_duo : (y.modDma f).duo = y.duo := rfl
@[simp] theorem Sys.modDma_flt : (y.modDma f).flt = y.flt := rfl
@[simp] theorem Sys.modDma_sec : (y.modDma f).sec = y.sec := rfl
@[simp] theorem Sys.modDma_kv : (y.modDma f).kv = y.kv := rfl
@[simp] theorem Sys.modDma_raster : (y.modDma f).raster = y.raster := rfl
@[simp] theorem Sys.modDma_vision : (y.modDma f).vision = y.vision := rfl
@[simp] theorem Sys.modDma_fg : (y.modDma f).fg = y.fg := rfl
@[simp] theorem Sys.modDma_pipe0 : (y.modDma f).pipe0 = y.pipe0 := rfl
@[simp] theorem Sys.modDma_pipe1 : (y.modDma f).pipe1 = y.pipe1 := rfl
@[simp] theorem Sys.modDma_out : (y.modDma f).out = y.out := rfl
@[simp] theorem Sys.modDma_chance : (y.modDma f).chance = y.chance := rfl
@[simp] theorem Sys.modDma_flits : (y.modDma f).flits = y.flits := rfl
end

section
variable (y : Sys) (f : Duo → Duo)
@[simp] theorem Sys.modDuo_glob : (y.modDuo f).glob = y.glob := rfl
@[simp] theorem Sys.modDuo_mem : (y.modDuo f).mem = y.mem := rfl
@[simp] theorem Sys.modDuo_link : (y.modDuo f).link = y.link := rfl
@[simp] theorem Sys.modDuo_cons : (y.modDuo f).cons = y.cons := rfl
@[simp] theorem Sys.modDuo_bridle : (y.modDuo f).bridle = y.bridle := rfl
@[simp] theorem Sys.modDuo_work : (y.modDuo f).work = y.work := rfl
@[simp] theorem Sys.modDuo_girth : (y.modDuo f).girth = y.girth := rfl
@[simp] theorem Sys.modDuo_beam : (y.modDuo f).beam = y.beam := rfl
@[simp] theorem Sys.modDuo_stalls : (y.modDuo f).stalls = y.stalls := rfl
@[simp] theorem Sys.modDuo_cores : (y.modDuo f).cores = y.cores := rfl
@[simp] theorem Sys.modDuo_dma : (y.modDuo f).dma = y.dma := rfl
@[simp] theorem Sys.modDuo_duo : (y.modDuo f).duo = f y.duo := rfl
@[simp] theorem Sys.modDuo_flt : (y.modDuo f).flt = y.flt := rfl
@[simp] theorem Sys.modDuo_sec : (y.modDuo f).sec = y.sec := rfl
@[simp] theorem Sys.modDuo_kv : (y.modDuo f).kv = y.kv := rfl
@[simp] theorem Sys.modDuo_raster : (y.modDuo f).raster = y.raster := rfl
@[simp] theorem Sys.modDuo_vision : (y.modDuo f).vision = y.vision := rfl
@[simp] theorem Sys.modDuo_fg : (y.modDuo f).fg = y.fg := rfl
@[simp] theorem Sys.modDuo_pipe0 : (y.modDuo f).pipe0 = y.pipe0 := rfl
@[simp] theorem Sys.modDuo_pipe1 : (y.modDuo f).pipe1 = y.pipe1 := rfl
@[simp] theorem Sys.modDuo_out : (y.modDuo f).out = y.out := rfl
@[simp] theorem Sys.modDuo_chance : (y.modDuo f).chance = y.chance := rfl
@[simp] theorem Sys.modDuo_flits : (y.modDuo f).flits = y.flits := rfl
end

section
variable (y : Sys) (f : Fault0 → Fault0)
@[simp] theorem Sys.modFlt_glob : (y.modFlt f).glob = y.glob := rfl
@[simp] theorem Sys.modFlt_mem : (y.modFlt f).mem = y.mem := rfl
@[simp] theorem Sys.modFlt_link : (y.modFlt f).link = y.link := rfl
@[simp] theorem Sys.modFlt_cons : (y.modFlt f).cons = y.cons := rfl
@[simp] theorem Sys.modFlt_bridle : (y.modFlt f).bridle = y.bridle := rfl
@[simp] theorem Sys.modFlt_work : (y.modFlt f).work = y.work := rfl
@[simp] theorem Sys.modFlt_girth : (y.modFlt f).girth = y.girth := rfl
@[simp] theorem Sys.modFlt_beam : (y.modFlt f).beam = y.beam := rfl
@[simp] theorem Sys.modFlt_stalls : (y.modFlt f).stalls = y.stalls := rfl
@[simp] theorem Sys.modFlt_cores : (y.modFlt f).cores = y.cores := rfl
@[simp] theorem Sys.modFlt_dma : (y.modFlt f).dma = y.dma := rfl
@[simp] theorem Sys.modFlt_duo : (y.modFlt f).duo = y.duo := rfl
@[simp] theorem Sys.modFlt_flt : (y.modFlt f).flt = f y.flt := rfl
@[simp] theorem Sys.modFlt_sec : (y.modFlt f).sec = y.sec := rfl
@[simp] theorem Sys.modFlt_kv : (y.modFlt f).kv = y.kv := rfl
@[simp] theorem Sys.modFlt_raster : (y.modFlt f).raster = y.raster := rfl
@[simp] theorem Sys.modFlt_vision : (y.modFlt f).vision = y.vision := rfl
@[simp] theorem Sys.modFlt_fg : (y.modFlt f).fg = y.fg := rfl
@[simp] theorem Sys.modFlt_pipe0 : (y.modFlt f).pipe0 = y.pipe0 := rfl
@[simp] theorem Sys.modFlt_pipe1 : (y.modFlt f).pipe1 = y.pipe1 := rfl
@[simp] theorem Sys.modFlt_out : (y.modFlt f).out = y.out := rfl
@[simp] theorem Sys.modFlt_chance : (y.modFlt f).chance = y.chance := rfl
@[simp] theorem Sys.modFlt_flits : (y.modFlt f).flits = y.flits := rfl
end

section
variable (y : Sys) (f : Sec → Sec)
@[simp] theorem Sys.modSec_glob : (y.modSec f).glob = y.glob := rfl
@[simp] theorem Sys.modSec_mem : (y.modSec f).mem = y.mem := rfl
@[simp] theorem Sys.modSec_link : (y.modSec f).link = y.link := rfl
@[simp] theorem Sys.modSec_cons : (y.modSec f).cons = y.cons := rfl
@[simp] theorem Sys.modSec_bridle : (y.modSec f).bridle = y.bridle := rfl
@[simp] theorem Sys.modSec_work : (y.modSec f).work = y.work := rfl
@[simp] theorem Sys.modSec_girth : (y.modSec f).girth = y.girth := rfl
@[simp] theorem Sys.modSec_beam : (y.modSec f).beam = y.beam := rfl
@[simp] theorem Sys.modSec_stalls : (y.modSec f).stalls = y.stalls := rfl
@[simp] theorem Sys.modSec_cores : (y.modSec f).cores = y.cores := rfl
@[simp] theorem Sys.modSec_dma : (y.modSec f).dma = y.dma := rfl
@[simp] theorem Sys.modSec_duo : (y.modSec f).duo = y.duo := rfl
@[simp] theorem Sys.modSec_flt : (y.modSec f).flt = y.flt := rfl
@[simp] theorem Sys.modSec_sec : (y.modSec f).sec = f y.sec := rfl
@[simp] theorem Sys.modSec_kv : (y.modSec f).kv = y.kv := rfl
@[simp] theorem Sys.modSec_raster : (y.modSec f).raster = y.raster := rfl
@[simp] theorem Sys.modSec_vision : (y.modSec f).vision = y.vision := rfl
@[simp] theorem Sys.modSec_fg : (y.modSec f).fg = y.fg := rfl
@[simp] theorem Sys.modSec_pipe0 : (y.modSec f).pipe0 = y.pipe0 := rfl
@[simp] theorem Sys.modSec_pipe1 : (y.modSec f).pipe1 = y.pipe1 := rfl
@[simp] theorem Sys.modSec_out : (y.modSec f).out = y.out := rfl
@[simp] theorem Sys.modSec_chance : (y.modSec f).chance = y.chance := rfl
@[simp] theorem Sys.modSec_flits : (y.modSec f).flits = y.flits := rfl
end

section
variable (y : Sys) (f : Kv → Kv)
@[simp] theorem Sys.modKv_glob : (y.modKv f).glob = y.glob := rfl
@[simp] theorem Sys.modKv_mem : (y.modKv f).mem = y.mem := rfl
@[simp] theorem Sys.modKv_link : (y.modKv f).link = y.link := rfl
@[simp] theorem Sys.modKv_cons : (y.modKv f).cons = y.cons := rfl
@[simp] theorem Sys.modKv_bridle : (y.modKv f).bridle = y.bridle := rfl
@[simp] theorem Sys.modKv_work : (y.modKv f).work = y.work := rfl
@[simp] theorem Sys.modKv_girth : (y.modKv f).girth = y.girth := rfl
@[simp] theorem Sys.modKv_beam : (y.modKv f).beam = y.beam := rfl
@[simp] theorem Sys.modKv_stalls : (y.modKv f).stalls = y.stalls := rfl
@[simp] theorem Sys.modKv_cores : (y.modKv f).cores = y.cores := rfl
@[simp] theorem Sys.modKv_dma : (y.modKv f).dma = y.dma := rfl
@[simp] theorem Sys.modKv_duo : (y.modKv f).duo = y.duo := rfl
@[simp] theorem Sys.modKv_flt : (y.modKv f).flt = y.flt := rfl
@[simp] theorem Sys.modKv_sec : (y.modKv f).sec = y.sec := rfl
@[simp] theorem Sys.modKv_kv : (y.modKv f).kv = f y.kv := rfl
@[simp] theorem Sys.modKv_raster : (y.modKv f).raster = y.raster := rfl
@[simp] theorem Sys.modKv_vision : (y.modKv f).vision = y.vision := rfl
@[simp] theorem Sys.modKv_fg : (y.modKv f).fg = y.fg := rfl
@[simp] theorem Sys.modKv_pipe0 : (y.modKv f).pipe0 = y.pipe0 := rfl
@[simp] theorem Sys.modKv_pipe1 : (y.modKv f).pipe1 = y.pipe1 := rfl
@[simp] theorem Sys.modKv_out : (y.modKv f).out = y.out := rfl
@[simp] theorem Sys.modKv_chance : (y.modKv f).chance = y.chance := rfl
@[simp] theorem Sys.modKv_flits : (y.modKv f).flits = y.flits := rfl
end

section
variable (y : Sys) (f : Raster → Raster)
@[simp] theorem Sys.modRaster_glob : (y.modRaster f).glob = y.glob := rfl
@[simp] theorem Sys.modRaster_mem : (y.modRaster f).mem = y.mem := rfl
@[simp] theorem Sys.modRaster_link : (y.modRaster f).link = y.link := rfl
@[simp] theorem Sys.modRaster_cons : (y.modRaster f).cons = y.cons := rfl
@[simp] theorem Sys.modRaster_bridle : (y.modRaster f).bridle = y.bridle := rfl
@[simp] theorem Sys.modRaster_work : (y.modRaster f).work = y.work := rfl
@[simp] theorem Sys.modRaster_girth : (y.modRaster f).girth = y.girth := rfl
@[simp] theorem Sys.modRaster_beam : (y.modRaster f).beam = y.beam := rfl
@[simp] theorem Sys.modRaster_stalls : (y.modRaster f).stalls = y.stalls := rfl
@[simp] theorem Sys.modRaster_cores : (y.modRaster f).cores = y.cores := rfl
@[simp] theorem Sys.modRaster_dma : (y.modRaster f).dma = y.dma := rfl
@[simp] theorem Sys.modRaster_duo : (y.modRaster f).duo = y.duo := rfl
@[simp] theorem Sys.modRaster_flt : (y.modRaster f).flt = y.flt := rfl
@[simp] theorem Sys.modRaster_sec : (y.modRaster f).sec = y.sec := rfl
@[simp] theorem Sys.modRaster_kv : (y.modRaster f).kv = y.kv := rfl
@[simp] theorem Sys.modRaster_raster : (y.modRaster f).raster = f y.raster := rfl
@[simp] theorem Sys.modRaster_vision : (y.modRaster f).vision = y.vision := rfl
@[simp] theorem Sys.modRaster_fg : (y.modRaster f).fg = y.fg := rfl
@[simp] theorem Sys.modRaster_pipe0 : (y.modRaster f).pipe0 = y.pipe0 := rfl
@[simp] theorem Sys.modRaster_pipe1 : (y.modRaster f).pipe1 = y.pipe1 := rfl
@[simp] theorem Sys.modRaster_out : (y.modRaster f).out = y.out := rfl
@[simp] theorem Sys.modRaster_chance : (y.modRaster f).chance = y.chance := rfl
@[simp] theorem Sys.modRaster_flits : (y.modRaster f).flits = y.flits := rfl
end

section
variable (y : Sys) (f : Vision → Vision)
@[simp] theorem Sys.modVision_glob : (y.modVision f).glob = y.glob := rfl
@[simp] theorem Sys.modVision_mem : (y.modVision f).mem = y.mem := rfl
@[simp] theorem Sys.modVision_link : (y.modVision f).link = y.link := rfl
@[simp] theorem Sys.modVision_cons : (y.modVision f).cons = y.cons := rfl
@[simp] theorem Sys.modVision_bridle : (y.modVision f).bridle = y.bridle := rfl
@[simp] theorem Sys.modVision_work : (y.modVision f).work = y.work := rfl
@[simp] theorem Sys.modVision_girth : (y.modVision f).girth = y.girth := rfl
@[simp] theorem Sys.modVision_beam : (y.modVision f).beam = y.beam := rfl
@[simp] theorem Sys.modVision_stalls : (y.modVision f).stalls = y.stalls := rfl
@[simp] theorem Sys.modVision_cores : (y.modVision f).cores = y.cores := rfl
@[simp] theorem Sys.modVision_dma : (y.modVision f).dma = y.dma := rfl
@[simp] theorem Sys.modVision_duo : (y.modVision f).duo = y.duo := rfl
@[simp] theorem Sys.modVision_flt : (y.modVision f).flt = y.flt := rfl
@[simp] theorem Sys.modVision_sec : (y.modVision f).sec = y.sec := rfl
@[simp] theorem Sys.modVision_kv : (y.modVision f).kv = y.kv := rfl
@[simp] theorem Sys.modVision_raster : (y.modVision f).raster = y.raster := rfl
@[simp] theorem Sys.modVision_vision : (y.modVision f).vision = f y.vision := rfl
@[simp] theorem Sys.modVision_fg : (y.modVision f).fg = y.fg := rfl
@[simp] theorem Sys.modVision_pipe0 : (y.modVision f).pipe0 = y.pipe0 := rfl
@[simp] theorem Sys.modVision_pipe1 : (y.modVision f).pipe1 = y.pipe1 := rfl
@[simp] theorem Sys.modVision_out : (y.modVision f).out = y.out := rfl
@[simp] theorem Sys.modVision_chance : (y.modVision f).chance = y.chance := rfl
@[simp] theorem Sys.modVision_flits : (y.modVision f).flits = y.flits := rfl
end

section
variable (y : Sys) (f : Fg → Fg)
@[simp] theorem Sys.modFg_glob : (y.modFg f).glob = y.glob := rfl
@[simp] theorem Sys.modFg_mem : (y.modFg f).mem = y.mem := rfl
@[simp] theorem Sys.modFg_link : (y.modFg f).link = y.link := rfl
@[simp] theorem Sys.modFg_cons : (y.modFg f).cons = y.cons := rfl
@[simp] theorem Sys.modFg_bridle : (y.modFg f).bridle = y.bridle := rfl
@[simp] theorem Sys.modFg_work : (y.modFg f).work = y.work := rfl
@[simp] theorem Sys.modFg_girth : (y.modFg f).girth = y.girth := rfl
@[simp] theorem Sys.modFg_beam : (y.modFg f).beam = y.beam := rfl
@[simp] theorem Sys.modFg_stalls : (y.modFg f).stalls = y.stalls := rfl
@[simp] theorem Sys.modFg_cores : (y.modFg f).cores = y.cores := rfl
@[simp] theorem Sys.modFg_dma : (y.modFg f).dma = y.dma := rfl
@[simp] theorem Sys.modFg_duo : (y.modFg f).duo = y.duo := rfl
@[simp] theorem Sys.modFg_flt : (y.modFg f).flt = y.flt := rfl
@[simp] theorem Sys.modFg_sec : (y.modFg f).sec = y.sec := rfl
@[simp] theorem Sys.modFg_kv : (y.modFg f).kv = y.kv := rfl
@[simp] theorem Sys.modFg_raster : (y.modFg f).raster = y.raster := rfl
@[simp] theorem Sys.modFg_vision : (y.modFg f).vision = y.vision := rfl
@[simp] theorem Sys.modFg_fg : (y.modFg f).fg = f y.fg := rfl
@[simp] theorem Sys.modFg_pipe0 : (y.modFg f).pipe0 = y.pipe0 := rfl
@[simp] theorem Sys.modFg_pipe1 : (y.modFg f).pipe1 = y.pipe1 := rfl
@[simp] theorem Sys.modFg_out : (y.modFg f).out = y.out := rfl
@[simp] theorem Sys.modFg_chance : (y.modFg f).chance = y.chance := rfl
@[simp] theorem Sys.modFg_flits : (y.modFg f).flits = y.flits := rfl
end

section
variable (y : Sys) (f : Pipe → Pipe)
@[simp] theorem Sys.modPipe0_glob : (y.modPipe0 f).glob = y.glob := rfl
@[simp] theorem Sys.modPipe0_mem : (y.modPipe0 f).mem = y.mem := rfl
@[simp] theorem Sys.modPipe0_link : (y.modPipe0 f).link = y.link := rfl
@[simp] theorem Sys.modPipe0_cons : (y.modPipe0 f).cons = y.cons := rfl
@[simp] theorem Sys.modPipe0_bridle : (y.modPipe0 f).bridle = y.bridle := rfl
@[simp] theorem Sys.modPipe0_work : (y.modPipe0 f).work = y.work := rfl
@[simp] theorem Sys.modPipe0_girth : (y.modPipe0 f).girth = y.girth := rfl
@[simp] theorem Sys.modPipe0_beam : (y.modPipe0 f).beam = y.beam := rfl
@[simp] theorem Sys.modPipe0_stalls : (y.modPipe0 f).stalls = y.stalls := rfl
@[simp] theorem Sys.modPipe0_cores : (y.modPipe0 f).cores = y.cores := rfl
@[simp] theorem Sys.modPipe0_dma : (y.modPipe0 f).dma = y.dma := rfl
@[simp] theorem Sys.modPipe0_duo : (y.modPipe0 f).duo = y.duo := rfl
@[simp] theorem Sys.modPipe0_flt : (y.modPipe0 f).flt = y.flt := rfl
@[simp] theorem Sys.modPipe0_sec : (y.modPipe0 f).sec = y.sec := rfl
@[simp] theorem Sys.modPipe0_kv : (y.modPipe0 f).kv = y.kv := rfl
@[simp] theorem Sys.modPipe0_raster : (y.modPipe0 f).raster = y.raster := rfl
@[simp] theorem Sys.modPipe0_vision : (y.modPipe0 f).vision = y.vision := rfl
@[simp] theorem Sys.modPipe0_fg : (y.modPipe0 f).fg = y.fg := rfl
@[simp] theorem Sys.modPipe0_pipe0 : (y.modPipe0 f).pipe0 = f y.pipe0 := rfl
@[simp] theorem Sys.modPipe0_pipe1 : (y.modPipe0 f).pipe1 = y.pipe1 := rfl
@[simp] theorem Sys.modPipe0_out : (y.modPipe0 f).out = y.out := rfl
@[simp] theorem Sys.modPipe0_chance : (y.modPipe0 f).chance = y.chance := rfl
@[simp] theorem Sys.modPipe0_flits : (y.modPipe0 f).flits = y.flits := rfl
end

section
variable (y : Sys) (f : Pipe → Pipe)
@[simp] theorem Sys.modPipe1_glob : (y.modPipe1 f).glob = y.glob := rfl
@[simp] theorem Sys.modPipe1_mem : (y.modPipe1 f).mem = y.mem := rfl
@[simp] theorem Sys.modPipe1_link : (y.modPipe1 f).link = y.link := rfl
@[simp] theorem Sys.modPipe1_cons : (y.modPipe1 f).cons = y.cons := rfl
@[simp] theorem Sys.modPipe1_bridle : (y.modPipe1 f).bridle = y.bridle := rfl
@[simp] theorem Sys.modPipe1_work : (y.modPipe1 f).work = y.work := rfl
@[simp] theorem Sys.modPipe1_girth : (y.modPipe1 f).girth = y.girth := rfl
@[simp] theorem Sys.modPipe1_beam : (y.modPipe1 f).beam = y.beam := rfl
@[simp] theorem Sys.modPipe1_stalls : (y.modPipe1 f).stalls = y.stalls := rfl
@[simp] theorem Sys.modPipe1_cores : (y.modPipe1 f).cores = y.cores := rfl
@[simp] theorem Sys.modPipe1_dma : (y.modPipe1 f).dma = y.dma := rfl
@[simp] theorem Sys.modPipe1_duo : (y.modPipe1 f).duo = y.duo := rfl
@[simp] theorem Sys.modPipe1_flt : (y.modPipe1 f).flt = y.flt := rfl
@[simp] theorem Sys.modPipe1_sec : (y.modPipe1 f).sec = y.sec := rfl
@[simp] theorem Sys.modPipe1_kv : (y.modPipe1 f).kv = y.kv := rfl
@[simp] theorem Sys.modPipe1_raster : (y.modPipe1 f).raster = y.raster := rfl
@[simp] theorem Sys.modPipe1_vision : (y.modPipe1 f).vision = y.vision := rfl
@[simp] theorem Sys.modPipe1_fg : (y.modPipe1 f).fg = y.fg := rfl
@[simp] theorem Sys.modPipe1_pipe0 : (y.modPipe1 f).pipe0 = y.pipe0 := rfl
@[simp] theorem Sys.modPipe1_pipe1 : (y.modPipe1 f).pipe1 = f y.pipe1 := rfl
@[simp] theorem Sys.modPipe1_out : (y.modPipe1 f).out = y.out := rfl
@[simp] theorem Sys.modPipe1_chance : (y.modPipe1 f).chance = y.chance := rfl
@[simp] theorem Sys.modPipe1_flits : (y.modPipe1 f).flits = y.flits := rfl
end

section
variable (y : Sys) (f : List OutPkt → List OutPkt)
@[simp] theorem Sys.modOut_glob : (y.modOut f).glob = y.glob := rfl
@[simp] theorem Sys.modOut_mem : (y.modOut f).mem = y.mem := rfl
@[simp] theorem Sys.modOut_link : (y.modOut f).link = y.link := rfl
@[simp] theorem Sys.modOut_cons : (y.modOut f).cons = y.cons := rfl
@[simp] theorem Sys.modOut_bridle : (y.modOut f).bridle = y.bridle := rfl
@[simp] theorem Sys.modOut_work : (y.modOut f).work = y.work := rfl
@[simp] theorem Sys.modOut_girth : (y.modOut f).girth = y.girth := rfl
@[simp] theorem Sys.modOut_beam : (y.modOut f).beam = y.beam := rfl
@[simp] theorem Sys.modOut_stalls : (y.modOut f).stalls = y.stalls := rfl
@[simp] theorem Sys.modOut_cores : (y.modOut f).cores = y.cores := rfl
@[simp] theorem Sys.modOut_dma : (y.modOut f).dma = y.dma := rfl
@[simp] theorem Sys.modOut_duo : (y.modOut f).duo = y.duo := rfl
@[simp] theorem Sys.modOut_flt : (y.modOut f).flt = y.flt := rfl
@[simp] theorem Sys.modOut_sec : (y.modOut f).sec = y.sec := rfl
@[simp] theorem Sys.modOut_kv : (y.modOut f).kv = y.kv := rfl
@[simp] theorem Sys.modOut_raster : (y.modOut f).raster = y.raster := rfl
@[simp] theorem Sys.modOut_vision : (y.modOut f).vision = y.vision := rfl
@[simp] theorem Sys.modOut_fg : (y.modOut f).fg = y.fg := rfl
@[simp] theorem Sys.modOut_pipe0 : (y.modOut f).pipe0 = y.pipe0 := rfl
@[simp] theorem Sys.modOut_pipe1 : (y.modOut f).pipe1 = y.pipe1 := rfl
@[simp] theorem Sys.modOut_out : (y.modOut f).out = f y.out := rfl
@[simp] theorem Sys.modOut_chance : (y.modOut f).chance = y.chance := rfl
@[simp] theorem Sys.modOut_flits : (y.modOut f).flits = y.flits := rfl
end

section
variable (y : Sys) (f : Nat → Nat)
@[simp] theorem Sys.modChance_glob : (y.modChance f).glob = y.glob := rfl
@[simp] theorem Sys.modChance_mem : (y.modChance f).mem = y.mem := rfl
@[simp] theorem Sys.modChance_link : (y.modChance f).link = y.link := rfl
@[simp] theorem Sys.modChance_cons : (y.modChance f).cons = y.cons := rfl
@[simp] theorem Sys.modChance_bridle : (y.modChance f).bridle = y.bridle := rfl
@[simp] theorem Sys.modChance_work : (y.modChance f).work = y.work := rfl
@[simp] theorem Sys.modChance_girth : (y.modChance f).girth = y.girth := rfl
@[simp] theorem Sys.modChance_beam : (y.modChance f).beam = y.beam := rfl
@[simp] theorem Sys.modChance_stalls : (y.modChance f).stalls = y.stalls := rfl
@[simp] theorem Sys.modChance_cores : (y.modChance f).cores = y.cores := rfl
@[simp] theorem Sys.modChance_dma : (y.modChance f).dma = y.dma := rfl
@[simp] theorem Sys.modChance_duo : (y.modChance f).duo = y.duo := rfl
@[simp] theorem Sys.modChance_flt : (y.modChance f).flt = y.flt := rfl
@[simp] theorem Sys.modChance_sec : (y.modChance f).sec = y.sec := rfl
@[simp] theorem Sys.modChance_kv : (y.modChance f).kv = y.kv := rfl
@[simp] theorem Sys.modChance_raster : (y.modChance f).raster = y.raster := rfl
@[simp] theorem Sys.modChance_vision : (y.modChance f).vision = y.vision := rfl
@[simp] theorem Sys.modChance_fg : (y.modChance f).fg = y.fg := rfl
@[simp] theorem Sys.modChance_pipe0 : (y.modChance f).pipe0 = y.pipe0 := rfl
@[simp] theorem Sys.modChance_pipe1 : (y.modChance f).pipe1 = y.pipe1 := rfl
@[simp] theorem Sys.modChance_out : (y.modChance f).out = y.out := rfl
@[simp] theorem Sys.modChance_chance : (y.modChance f).chance = f y.chance := rfl
@[simp] theorem Sys.modChance_flits : (y.modChance f).flits = y.flits := rfl
end

end Sys2Proof.Machine
end

