-- ==== Sys2Proof/Laws/Sent.lean ====
section
/-! SUPPORT. What sending to the host can do: packets, messages and events change the link, host memory, the credit pools and the list of what
left the die, and nothing else. -/

namespace Sys2Proof.Machine

/-- From y to z only sending has happened: the link, host memory, the pools and what left the die may differ. -/
structure Sys.Sent (y z : Sys) : Prop where
  glob : z.glob = y.glob
  bridle : z.bridle = y.bridle
  work : z.work = y.work
  girth : z.girth = y.girth
  beam : z.beam = y.beam
  stalls : z.stalls = y.stalls
  cores : z.cores = y.cores
  dma : z.dma = y.dma
  duo : z.duo = y.duo
  flt : z.flt = y.flt
  sec : z.sec = y.sec
  kv : z.kv = y.kv
  raster : z.raster = y.raster
  vision : z.vision = y.vision
  fg : z.fg = y.fg
  pipe0 : z.pipe0 = y.pipe0
  pipe1 : z.pipe1 = y.pipe1
  chance : z.chance = y.chance
  flits : z.flits = y.flits
  mem : z.mem = { y.mem with host := z.mem.host }
  hostWf : Cells.wf y.mem.host = true → Cells.wf z.mem.host = true

theorem Sys.Sent.refl (y : Sys) : Sys.Sent y y := ⟨rfl, rfl, rfl, rfl, rfl, rfl, rfl, rfl, rfl, rfl, rfl, rfl, rfl, rfl, rfl, rfl, rfl, rfl, rfl, rfl, id⟩

theorem Sys.Sent.trans {x y z : Sys} (a : Sys.Sent x y) (b : Sys.Sent y z) : Sys.Sent x z :=
  ⟨b.glob.trans a.glob, b.bridle.trans a.bridle, b.work.trans a.work, b.girth.trans a.girth, b.beam.trans a.beam,
   b.stalls.trans a.stalls, b.cores.trans a.cores, b.dma.trans a.dma, b.duo.trans a.duo, b.flt.trans a.flt,
   b.sec.trans a.sec, b.kv.trans a.kv, b.raster.trans a.raster, b.vision.trans a.vision, b.fg.trans a.fg,
   b.pipe0.trans a.pipe0, b.pipe1.trans a.pipe1, b.chance.trans a.chance, b.flits.trans a.flits,
   by rw [b.mem, a.mem], fun h => b.hostWf (a.hostWf h)⟩

theorem Sys.Sent.modLink (y : Sys) (f : Link → Link) : Sys.Sent y (y.modLink f) := ⟨rfl, rfl, rfl, rfl, rfl, rfl, rfl, rfl, rfl, rfl, rfl, rfl, rfl, rfl, rfl, rfl, rfl, rfl, rfl, rfl, id⟩

theorem Sys.Sent.modModule (y : Sys) (m : Nat) (f : Module → Module) : Sys.Sent y (y.modModule m f) := ⟨rfl, rfl, rfl, rfl, rfl, rfl, rfl, rfl, rfl, rfl, rfl, rfl, rfl, rfl, rfl, rfl, rfl, rfl, rfl, rfl, id⟩

theorem Sys.Sent.modPool (y : Sys) (p i : Nat) (f : Pool → Pool) : Sys.Sent y (y.modPool p i f) := ⟨rfl, rfl, rfl, rfl, rfl, rfl, rfl, rfl, rfl, rfl, rfl, rfl, rfl, rfl, rfl, rfl, rfl, rfl, rfl, rfl, id⟩

theorem Sys.Sent.emit (y : Sys) (p : OutPkt) : Sys.Sent y (y.emit p) := ⟨rfl, rfl, rfl, rfl, rfl, rfl, rfl, rfl, rfl, rfl, rfl, rfl, rfl, rfl, rfl, rfl, rfl, rfl, rfl, rfl, id⟩

theorem Sys.Sent.hostWrite (y : Sys) (a : Nat) (bs : List Byte) :
    Sys.Sent y (y.modMem fun m => { m with host := Cells.write m.host a bs }) :=
  ⟨rfl, rfl, rfl, rfl, rfl, rfl, rfl, rfl, rfl, rfl, rfl, rfl, rfl, rfl, rfl, rfl, rfl, rfl, rfl, rfl, Cells.write_wf _ _ _⟩

/-- A fold of sends is a send. -/
theorem Sys.Sent.foldl {α : Type} (f : Sys → α → Sys) (h : ∀ y a, Sys.Sent y (f y a)) (l : List α) (y : Sys) : Sys.Sent y (l.foldl f y) := by
  induction l generalizing y with
  | nil => exact .refl y
  | cons a l ih => exact (h y a).trans (ih _)

theorem Sys.sendOne_sent (m : Nat) (y : Sys) : Sys.Sent y (y.sendOne m) := by
  unfold Sys.sendOne
  simp only []
  split
  · exact .refl y
  · split
    · refine Sys.Sent.trans ?_ (.emit _ _)
      split
      · exact (((Sys.Sent.modPool _ _ _ _).trans (.modPool _ _ _ _)).trans (.modModule _ _ _)).trans (.hostWrite _ _ _)
      · exact ((Sys.Sent.modPool _ _ _ _).trans (.modPool _ _ _ _)).trans (.modModule _ _ _)
    · exact .refl y

theorem Sys.flush_sent (m : Nat) (y : Sys) : Sys.Sent y (y.flush m) := Sys.Sent.foldl _ (fun y _ => Sys.sendOne_sent m y) _ _

theorem Sys.post_sent (m : Nat) (p : OutPkt) (y : Sys) : Sys.Sent y (y.post m p) := (Sys.Sent.modModule y m _).trans (Sys.flush_sent m _)

theorem Sys.postFirst_sent (m : Nat) (ps : List OutPkt) (y : Sys) : Sys.Sent y (y.postFirst m ps) :=
  (Sys.Sent.modModule y m _).trans (Sys.flush_sent m _)

theorem Sys.sendCpl_sent (m : Nat) (p : OutPkt) (y : Sys) : Sys.Sent y (y.sendCpl m p) := by
  unfold Sys.sendCpl; split
  · exact .emit y p
  · exact Sys.post_sent m p y

theorem Sys.queueMsg_sent (m v : Nat) (y : Sys) : Sys.Sent y (y.queueMsg m v) := by
  unfold Sys.queueMsg; split
  · exact .refl y
  · exact Sys.post_sent m _ y

theorem Sys.raise_sent (m v : Nat) (y : Sys) : Sys.Sent y (y.raise m v) := by
  unfold Sys.raise; split
  · exact .refl y
  · simp only []; split
    · exact .modLink y _
    · exact Sys.queueMsg_sent m _ y

theorem Sys.raiseIf_sent (irq k : Nat) (y : Sys) : Sys.Sent y (y.raiseIf irq k) := by
  unfold Sys.raiseIf; split
  · exact Sys.raise_sent 0 _ y
  · exact .refl y

theorem Sys.hostWritePackets_sent (ctx a : Nat) (bs : List Byte) (y : Sys) : Sys.Sent y (y.hostWrite ctx a bs) := by
  unfold Sys.hostWrite; simp only []; split
  · exact .refl y
  · exact Sys.Sent.foldl _ (fun y p => Sys.post_sent _ p y) _ _

theorem Sys.linkEvent_sent (k : Nat) (y : Sys) : Sys.Sent y (y.linkEvent k) := (Sys.Sent.modLink y _).trans (Sys.raiseIf_sent _ _ _)

/-! ### Fields that a post, a raise or an event leaves alone -/

section
variable (m : Nat) (p : OutPkt) (y : Sys)
@[simp] theorem Sys.post_glob : (y.post m p).glob = y.glob := (Sys.post_sent m p y).glob
@[simp] theorem Sys.post_bridle : (y.post m p).bridle = y.bridle := (Sys.post_sent m p y).bridle
@[simp] theorem Sys.post_work : (y.post m p).work = y.work := (Sys.post_sent m p y).work
@[simp] theorem Sys.post_girth : (y.post m p).girth = y.girth := (Sys.post_sent m p y).girth
@[simp] theorem Sys.post_beam : (y.post m p).beam = y.beam := (Sys.post_sent m p y).beam
@[simp] theorem Sys.post_stalls : (y.post m p).stalls = y.stalls := (Sys.post_sent m p y).stalls
@[simp] theorem Sys.post_cores : (y.post m p).cores = y.cores := (Sys.post_sent m p y).cores
@[simp] theorem Sys.post_dma : (y.post m p).dma = y.dma := (Sys.post_sent m p y).dma
@[simp] theorem Sys.post_duo : (y.post m p).duo = y.duo := (Sys.post_sent m p y).duo
@[simp] theorem Sys.post_flt : (y.post m p).flt = y.flt := (Sys.post_sent m p y).flt
@[simp] theorem Sys.post_sec : (y.post m p).sec = y.sec := (Sys.post_sent m p y).sec
@[simp] theorem Sys.post_kv : (y.post m p).kv = y.kv := (Sys.post_sent m p y).kv
@[simp] theorem Sys.post_raster : (y.post m p).raster = y.raster := (Sys.post_sent m p y).raster
@[simp] theorem Sys.post_vision : (y.post m p).vision = y.vision := (Sys.post_sent m p y).vision
@[simp] theorem Sys.post_fg : (y.post m p).fg = y.fg := (Sys.post_sent m p y).fg
@[simp] theorem Sys.post_pipe0 : (y.post m p).pipe0 = y.pipe0 := (Sys.post_sent m p y).pipe0
@[simp] theorem Sys.post_pipe1 : (y.post m p).pipe1 = y.pipe1 := (Sys.post_sent m p y).pipe1
@[simp] theorem Sys.post_chance : (y.post m p).chance = y.chance := (Sys.post_sent m p y).chance
@[simp] theorem Sys.post_flits : (y.post m p).flits = y.flits := (Sys.post_sent m p y).flits
theorem Sys.post_dram : (y.post m p).mem.dram = y.mem.dram := by rw [(Sys.post_sent m p y).mem]
end

section
variable (m k : Nat) (y : Sys)
@[simp] theorem Sys.raise_glob : (y.raise m k).glob = y.glob := (Sys.raise_sent m k y).glob
@[simp] theorem Sys.raise_bridle : (y.raise m k).bridle = y.bridle := (Sys.raise_sent m k y).bridle
@[simp] theorem Sys.raise_work : (y.raise m k).work = y.work := (Sys.raise_sent m k y).work
@[simp] theorem Sys.raise_girth : (y.raise m k).girth = y.girth := (Sys.raise_sent m k y).girth
@[simp] theorem Sys.raise_beam : (y.raise m k).beam = y.beam := (Sys.raise_sent m k y).beam
@[simp] theorem Sys.raise_stalls : (y.raise m k).stalls = y.stalls := (Sys.raise_sent m k y).stalls
@[simp] theorem Sys.raise_cores : (y.raise m k).cores = y.cores := (Sys.raise_sent m k y).cores
@[simp] theorem Sys.raise_dma : (y.raise m k).dma = y.dma := (Sys.raise_sent m k y).dma
@[simp] theorem Sys.raise_duo : (y.raise m k).duo = y.duo := (Sys.raise_sent m k y).duo
@[simp] theorem Sys.raise_flt : (y.raise m k).flt = y.flt := (Sys.raise_sent m k y).flt
@[simp] theorem Sys.raise_sec : (y.raise m k).sec = y.sec := (Sys.raise_sent m k y).sec
@[simp] theorem Sys.raise_kv : (y.raise m k).kv = y.kv := (Sys.raise_sent m k y).kv
@[simp] theorem Sys.raise_raster : (y.raise m k).raster = y.raster := (Sys.raise_sent m k y).raster
@[simp] theorem Sys.raise_vision : (y.raise m k).vision = y.vision := (Sys.raise_sent m k y).vision
@[simp] theorem Sys.raise_fg : (y.raise m k).fg = y.fg := (Sys.raise_sent m k y).fg
@[simp] theorem Sys.raise_pipe0 : (y.raise m k).pipe0 = y.pipe0 := (Sys.raise_sent m k y).pipe0
@[simp] theorem Sys.raise_pipe1 : (y.raise m k).pipe1 = y.pipe1 := (Sys.raise_sent m k y).pipe1
@[simp] theorem Sys.raise_chance : (y.raise m k).chance = y.chance := (Sys.raise_sent m k y).chance
@[simp] theorem Sys.raise_flits : (y.raise m k).flits = y.flits := (Sys.raise_sent m k y).flits
theorem Sys.raise_dram : (y.raise m k).mem.dram = y.mem.dram := by rw [(Sys.raise_sent m k y).mem]
end

section
variable (q k : Nat) (y : Sys)
@[simp] theorem Sys.raiseIf_glob : (y.raiseIf q k).glob = y.glob := (Sys.raiseIf_sent q k y).glob
@[simp] theorem Sys.raiseIf_bridle : (y.raiseIf q k).bridle = y.bridle := (Sys.raiseIf_sent q k y).bridle
@[simp] theorem Sys.raiseIf_work : (y.raiseIf q k).work = y.work := (Sys.raiseIf_sent q k y).work
@[simp] theorem Sys.raiseIf_girth : (y.raiseIf q k).girth = y.girth := (Sys.raiseIf_sent q k y).girth
@[simp] theorem Sys.raiseIf_beam : (y.raiseIf q k).beam = y.beam := (Sys.raiseIf_sent q k y).beam
@[simp] theorem Sys.raiseIf_stalls : (y.raiseIf q k).stalls = y.stalls := (Sys.raiseIf_sent q k y).stalls
@[simp] theorem Sys.raiseIf_cores : (y.raiseIf q k).cores = y.cores := (Sys.raiseIf_sent q k y).cores
@[simp] theorem Sys.raiseIf_dma : (y.raiseIf q k).dma = y.dma := (Sys.raiseIf_sent q k y).dma
@[simp] theorem Sys.raiseIf_duo : (y.raiseIf q k).duo = y.duo := (Sys.raiseIf_sent q k y).duo
@[simp] theorem Sys.raiseIf_flt : (y.raiseIf q k).flt = y.flt := (Sys.raiseIf_sent q k y).flt
@[simp] theorem Sys.raiseIf_sec : (y.raiseIf q k).sec = y.sec := (Sys.raiseIf_sent q k y).sec
@[simp] theorem Sys.raiseIf_kv : (y.raiseIf q k).kv = y.kv := (Sys.raiseIf_sent q k y).kv
@[simp] theorem Sys.raiseIf_raster : (y.raiseIf q k).raster = y.raster := (Sys.raiseIf_sent q k y).raster
@[simp] theorem Sys.raiseIf_vision : (y.raiseIf q k).vision = y.vision := (Sys.raiseIf_sent q k y).vision
@[simp] theorem Sys.raiseIf_fg : (y.raiseIf q k).fg = y.fg := (Sys.raiseIf_sent q k y).fg
@[simp] theorem Sys.raiseIf_pipe0 : (y.raiseIf q k).pipe0 = y.pipe0 := (Sys.raiseIf_sent q k y).pipe0
@[simp] theorem Sys.raiseIf_pipe1 : (y.raiseIf q k).pipe1 = y.pipe1 := (Sys.raiseIf_sent q k y).pipe1
@[simp] theorem Sys.raiseIf_chance : (y.raiseIf q k).chance = y.chance := (Sys.raiseIf_sent q k y).chance
@[simp] theorem Sys.raiseIf_flits : (y.raiseIf q k).flits = y.flits := (Sys.raiseIf_sent q k y).flits
theorem Sys.raiseIf_dram : (y.raiseIf q k).mem.dram = y.mem.dram := by rw [(Sys.raiseIf_sent q k y).mem]
end

section
variable (k : Nat) (y : Sys)
@[simp] theorem Sys.linkEvent_glob : (y.linkEvent k).glob = y.glob := (Sys.linkEvent_sent k y).glob
@[simp] theorem Sys.linkEvent_bridle : (y.linkEvent k).bridle = y.bridle := (Sys.linkEvent_sent k y).bridle
@[simp] theorem Sys.linkEvent_work : (y.linkEvent k).work = y.work := (Sys.linkEvent_sent k y).work
@[simp] theorem Sys.linkEvent_girth : (y.linkEvent k).girth = y.girth := (Sys.linkEvent_sent k y).girth
@[simp] theorem Sys.linkEvent_beam : (y.linkEvent k).beam = y.beam := (Sys.linkEvent_sent k y).beam
@[simp] theorem Sys.linkEvent_stalls : (y.linkEvent k).stalls = y.stalls := (Sys.linkEvent_sent k y).stalls
@[simp] theorem Sys.linkEvent_cores : (y.linkEvent k).cores = y.cores := (Sys.linkEvent_sent k y).cores
@[simp] theorem Sys.linkEvent_dma : (y.linkEvent k).dma = y.dma := (Sys.linkEvent_sent k y).dma
@[simp] theorem Sys.linkEvent_duo : (y.linkEvent k).duo = y.duo := (Sys.linkEvent_sent k y).duo
@[simp] theorem Sys.linkEvent_flt : (y.linkEvent k).flt = y.flt := (Sys.linkEvent_sent k y).flt
@[simp] theorem Sys.linkEvent_sec : (y.linkEvent k).sec = y.sec := (Sys.linkEvent_sent k y).sec
@[simp] theorem Sys.linkEvent_kv : (y.linkEvent k).kv = y.kv := (Sys.linkEvent_sent k y).kv
@[simp] theorem Sys.linkEvent_raster : (y.linkEvent k).raster = y.raster := (Sys.linkEvent_sent k y).raster
@[simp] theorem Sys.linkEvent_vision : (y.linkEvent k).vision = y.vision := (Sys.linkEvent_sent k y).vision
@[simp] theorem Sys.linkEvent_fg : (y.linkEvent k).fg = y.fg := (Sys.linkEvent_sent k y).fg
@[simp] theorem Sys.linkEvent_pipe0 : (y.linkEvent k).pipe0 = y.pipe0 := (Sys.linkEvent_sent k y).pipe0
@[simp] theorem Sys.linkEvent_pipe1 : (y.linkEvent k).pipe1 = y.pipe1 := (Sys.linkEvent_sent k y).pipe1
@[simp] theorem Sys.linkEvent_chance : (y.linkEvent k).chance = y.chance := (Sys.linkEvent_sent k y).chance
@[simp] theorem Sys.linkEvent_flits : (y.linkEvent k).flits = y.flits := (Sys.linkEvent_sent k y).flits
theorem Sys.linkEvent_dram : (y.linkEvent k).mem.dram = y.mem.dram := by rw [(Sys.linkEvent_sent k y).mem]
end

section
variable (k : Nat) (y : Sys)
@[simp] theorem Sys.bridleEvent_glob : (y.bridleEvent k).glob = y.glob := (Sys.raiseIf_sent _ _ _).glob
@[simp] theorem Sys.bridleEvent_bridle : (y.bridleEvent k).bridle = { y.bridle with events := setBit y.bridle.events k } := (Sys.raiseIf_sent _ _ _).bridle
@[simp] theorem Sys.bridleEvent_work : (y.bridleEvent k).work = y.work := (Sys.raiseIf_sent _ _ _).work
@[simp] theorem Sys.bridleEvent_girth : (y.bridleEvent k).girth = y.girth := (Sys.raiseIf_sent _ _ _).girth
@[simp] theorem Sys.bridleEvent_beam : (y.bridleEvent k).beam = y.beam := (Sys.raiseIf_sent _ _ _).beam
@[simp] theorem Sys.bridleEvent_stalls : (y.bridleEvent k).stalls = y.stalls := (Sys.raiseIf_sent _ _ _).stalls
@[simp] theorem Sys.bridleEvent_cores : (y.bridleEvent k).cores = y.cores := (Sys.raiseIf_sent _ _ _).cores
@[simp] theorem Sys.bridleEvent_dma : (y.bridleEvent k).dma = y.dma := (Sys.raiseIf_sent _ _ _).dma
@[simp] theorem Sys.bridleEvent_duo : (y.bridleEvent k).duo = y.duo := (Sys.raiseIf_sent _ _ _).duo
@[simp] theorem Sys.bridleEvent_flt : (y.bridleEvent k).flt = y.flt := (Sys.raiseIf_sent _ _ _).flt
@[simp] theorem Sys.bridleEvent_sec : (y.bridleEvent k).sec = y.sec := (Sys.raiseIf_sent _ _ _).sec
@[simp] theorem Sys.bridleEvent_kv : (y.bridleEvent k).kv = y.kv := (Sys.raiseIf_sent _ _ _).kv
@[simp] theorem Sys.bridleEvent_raster : (y.bridleEvent k).raster = y.raster := (Sys.raiseIf_sent _ _ _).raster
@[simp] theorem Sys.bridleEvent_vision : (y.bridleEvent k).vision = y.vision := (Sys.raiseIf_sent _ _ _).vision
@[simp] theorem Sys.bridleEvent_fg : (y.bridleEvent k).fg = y.fg := (Sys.raiseIf_sent _ _ _).fg
@[simp] theorem Sys.bridleEvent_pipe0 : (y.bridleEvent k).pipe0 = y.pipe0 := (Sys.raiseIf_sent _ _ _).pipe0
@[simp] theorem Sys.bridleEvent_pipe1 : (y.bridleEvent k).pipe1 = y.pipe1 := (Sys.raiseIf_sent _ _ _).pipe1
@[simp] theorem Sys.bridleEvent_chance : (y.bridleEvent k).chance = y.chance := (Sys.raiseIf_sent _ _ _).chance
@[simp] theorem Sys.bridleEvent_flits : (y.bridleEvent k).flits = y.flits := (Sys.raiseIf_sent _ _ _).flits
theorem Sys.bridleEvent_dram : (y.bridleEvent k).mem.dram = y.mem.dram := by unfold Sys.bridleEvent; rw [Sys.raiseIf_dram]; rfl
end

section
variable (k : Nat) (y : Sys)
@[simp] theorem Sys.girthEvent_glob : (y.girthEvent k).glob = y.glob := (Sys.raiseIf_sent _ _ _).glob
@[simp] theorem Sys.girthEvent_bridle : (y.girthEvent k).bridle = y.bridle := (Sys.raiseIf_sent _ _ _).bridle
@[simp] theorem Sys.girthEvent_work : (y.girthEvent k).work = y.work := (Sys.raiseIf_sent _ _ _).work
@[simp] theorem Sys.girthEvent_girth : (y.girthEvent k).girth = { y.girth with events := setBit y.girth.events k } := (Sys.raiseIf_sent _ _ _).girth
@[simp] theorem Sys.girthEvent_beam : (y.girthEvent k).beam = y.beam := (Sys.raiseIf_sent _ _ _).beam
@[simp] theorem Sys.girthEvent_stalls : (y.girthEvent k).stalls = y.stalls := (Sys.raiseIf_sent _ _ _).stalls
@[simp] theorem Sys.girthEvent_cores : (y.girthEvent k).cores = y.cores := (Sys.raiseIf_sent _ _ _).cores
@[simp] theorem Sys.girthEvent_dma : (y.girthEvent k).dma = y.dma := (Sys.raiseIf_sent _ _ _).dma
@[simp] theorem Sys.girthEvent_duo : (y.girthEvent k).duo = y.duo := (Sys.raiseIf_sent _ _ _).duo
@[simp] theorem Sys.girthEvent_flt : (y.girthEvent k).flt = y.flt := (Sys.raiseIf_sent _ _ _).flt
@[simp] theorem Sys.girthEvent_sec : (y.girthEvent k).sec = y.sec := (Sys.raiseIf_sent _ _ _).sec
@[simp] theorem Sys.girthEvent_kv : (y.girthEvent k).kv = y.kv := (Sys.raiseIf_sent _ _ _).kv
@[simp] theorem Sys.girthEvent_raster : (y.girthEvent k).raster = y.raster := (Sys.raiseIf_sent _ _ _).raster
@[simp] theorem Sys.girthEvent_vision : (y.girthEvent k).vision = y.vision := (Sys.raiseIf_sent _ _ _).vision
@[simp] theorem Sys.girthEvent_fg : (y.girthEvent k).fg = y.fg := (Sys.raiseIf_sent _ _ _).fg
@[simp] theorem Sys.girthEvent_pipe0 : (y.girthEvent k).pipe0 = y.pipe0 := (Sys.raiseIf_sent _ _ _).pipe0
@[simp] theorem Sys.girthEvent_pipe1 : (y.girthEvent k).pipe1 = y.pipe1 := (Sys.raiseIf_sent _ _ _).pipe1
@[simp] theorem Sys.girthEvent_chance : (y.girthEvent k).chance = y.chance := (Sys.raiseIf_sent _ _ _).chance
@[simp] theorem Sys.girthEvent_flits : (y.girthEvent k).flits = y.flits := (Sys.raiseIf_sent _ _ _).flits
theorem Sys.girthEvent_dram : (y.girthEvent k).mem.dram = y.mem.dram := by unfold Sys.girthEvent; rw [Sys.raiseIf_dram]; rfl
end

section
variable (k : Nat) (y : Sys)
@[simp] theorem Sys.beamEvent_glob : (y.beamEvent k).glob = y.glob := (Sys.raiseIf_sent _ _ _).glob
@[simp] theorem Sys.beamEvent_bridle : (y.beamEvent k).bridle = y.bridle := (Sys.raiseIf_sent _ _ _).bridle
@[simp] theorem Sys.beamEvent_work : (y.beamEvent k).work = y.work := (Sys.raiseIf_sent _ _ _).work
@[simp] theorem Sys.beamEvent_girth : (y.beamEvent k).girth = y.girth := (Sys.raiseIf_sent _ _ _).girth
@[simp] theorem Sys.beamEvent_beam : (y.beamEvent k).beam = { y.beam with events := setBit y.beam.events k } := (Sys.raiseIf_sent _ _ _).beam
@[simp] theorem Sys.beamEvent_stalls : (y.beamEvent k).stalls = y.stalls := (Sys.raiseIf_sent _ _ _).stalls
@[simp] theorem Sys.beamEvent_cores : (y.beamEvent k).cores = y.cores := (Sys.raiseIf_sent _ _ _).cores
@[simp] theorem Sys.beamEvent_dma : (y.beamEvent k).dma = y.dma := (Sys.raiseIf_sent _ _ _).dma
@[simp] theorem Sys.beamEvent_duo : (y.beamEvent k).duo = y.duo := (Sys.raiseIf_sent _ _ _).duo
@[simp] theorem Sys.beamEvent_flt : (y.beamEvent k).flt = y.flt := (Sys.raiseIf_sent _ _ _).flt
@[simp] theorem Sys.beamEvent_sec : (y.beamEvent k).sec = y.sec := (Sys.raiseIf_sent _ _ _).sec
@[simp] theorem Sys.beamEvent_kv : (y.beamEvent k).kv = y.kv := (Sys.raiseIf_sent _ _ _).kv
@[simp] theorem Sys.beamEvent_raster : (y.beamEvent k).raster = y.raster := (Sys.raiseIf_sent _ _ _).raster
@[simp] theorem Sys.beamEvent_vision : (y.beamEvent k).vision = y.vision := (Sys.raiseIf_sent _ _ _).vision
@[simp] theorem Sys.beamEvent_fg : (y.beamEvent k).fg = y.fg := (Sys.raiseIf_sent _ _ _).fg
@[simp] theorem Sys.beamEvent_pipe0 : (y.beamEvent k).pipe0 = y.pipe0 := (Sys.raiseIf_sent _ _ _).pipe0
@[simp] theorem Sys.beamEvent_pipe1 : (y.beamEvent k).pipe1 = y.pipe1 := (Sys.raiseIf_sent _ _ _).pipe1
@[simp] theorem Sys.beamEvent_chance : (y.beamEvent k).chance = y.chance := (Sys.raiseIf_sent _ _ _).chance
@[simp] theorem Sys.beamEvent_flits : (y.beamEvent k).flits = y.flits := (Sys.raiseIf_sent _ _ _).flits
theorem Sys.beamEvent_dram : (y.beamEvent k).mem.dram = y.mem.dram := by unfold Sys.beamEvent; rw [Sys.raiseIf_dram]; rfl
end

section
variable (k : Nat) (y : Sys)
@[simp] theorem Sys.duoEvent_glob : (y.duoEvent k).glob = y.glob := (Sys.raiseIf_sent _ _ _).glob
@[simp] theorem Sys.duoEvent_bridle : (y.duoEvent k).bridle = y.bridle := (Sys.raiseIf_sent _ _ _).bridle
@[simp] theorem Sys.duoEvent_work : (y.duoEvent k).work = y.work := (Sys.raiseIf_sent _ _ _).work
@[simp] theorem Sys.duoEvent_girth : (y.duoEvent k).girth = y.girth := (Sys.raiseIf_sent _ _ _).girth
@[simp] theorem Sys.duoEvent_beam : (y.duoEvent k).beam = y.beam := (Sys.raiseIf_sent _ _ _).beam
@[simp] theorem Sys.duoEvent_stalls : (y.duoEvent k).stalls = y.stalls := (Sys.raiseIf_sent _ _ _).stalls
@[simp] theorem Sys.duoEvent_cores : (y.duoEvent k).cores = y.cores := (Sys.raiseIf_sent _ _ _).cores
@[simp] theorem Sys.duoEvent_dma : (y.duoEvent k).dma = y.dma := (Sys.raiseIf_sent _ _ _).dma
@[simp] theorem Sys.duoEvent_duo : (y.duoEvent k).duo = { y.duo with events := setBit y.duo.events k } := (Sys.raiseIf_sent _ _ _).duo
@[simp] theorem Sys.duoEvent_flt : (y.duoEvent k).flt = y.flt := (Sys.raiseIf_sent _ _ _).flt
@[simp] theorem Sys.duoEvent_sec : (y.duoEvent k).sec = y.sec := (Sys.raiseIf_sent _ _ _).sec
@[simp] theorem Sys.duoEvent_kv : (y.duoEvent k).kv = y.kv := (Sys.raiseIf_sent _ _ _).kv
@[simp] theorem Sys.duoEvent_raster : (y.duoEvent k).raster = y.raster := (Sys.raiseIf_sent _ _ _).raster
@[simp] theorem Sys.duoEvent_vision : (y.duoEvent k).vision = y.vision := (Sys.raiseIf_sent _ _ _).vision
@[simp] theorem Sys.duoEvent_fg : (y.duoEvent k).fg = y.fg := (Sys.raiseIf_sent _ _ _).fg
@[simp] theorem Sys.duoEvent_pipe0 : (y.duoEvent k).pipe0 = y.pipe0 := (Sys.raiseIf_sent _ _ _).pipe0
@[simp] theorem Sys.duoEvent_pipe1 : (y.duoEvent k).pipe1 = y.pipe1 := (Sys.raiseIf_sent _ _ _).pipe1
@[simp] theorem Sys.duoEvent_chance : (y.duoEvent k).chance = y.chance := (Sys.raiseIf_sent _ _ _).chance
@[simp] theorem Sys.duoEvent_flits : (y.duoEvent k).flits = y.flits := (Sys.raiseIf_sent _ _ _).flits
theorem Sys.duoEvent_dram : (y.duoEvent k).mem.dram = y.mem.dram := by unfold Sys.duoEvent; rw [Sys.raiseIf_dram]; rfl
end

section
variable (k : Nat) (y : Sys)
@[simp] theorem Sys.fltEvent_glob : (y.fltEvent k).glob = y.glob := (Sys.raiseIf_sent _ _ _).glob
@[simp] theorem Sys.fltEvent_bridle : (y.fltEvent k).bridle = y.bridle := (Sys.raiseIf_sent _ _ _).bridle
@[simp] theorem Sys.fltEvent_work : (y.fltEvent k).work = y.work := (Sys.raiseIf_sent _ _ _).work
@[simp] theorem Sys.fltEvent_girth : (y.fltEvent k).girth = y.girth := (Sys.raiseIf_sent _ _ _).girth
@[simp] theorem Sys.fltEvent_beam : (y.fltEvent k).beam = y.beam := (Sys.raiseIf_sent _ _ _).beam
@[simp] theorem Sys.fltEvent_stalls : (y.fltEvent k).stalls = y.stalls := (Sys.raiseIf_sent _ _ _).stalls
@[simp] theorem Sys.fltEvent_cores : (y.fltEvent k).cores = y.cores := (Sys.raiseIf_sent _ _ _).cores
@[simp] theorem Sys.fltEvent_dma : (y.fltEvent k).dma = y.dma := (Sys.raiseIf_sent _ _ _).dma
@[simp] theorem Sys.fltEvent_duo : (y.fltEvent k).duo = y.duo := (Sys.raiseIf_sent _ _ _).duo
@[simp] theorem Sys.fltEvent_flt : (y.fltEvent k).flt = { y.flt with events := setBit y.flt.events k } := (Sys.raiseIf_sent _ _ _).flt
@[simp] theorem Sys.fltEvent_sec : (y.fltEvent k).sec = y.sec := (Sys.raiseIf_sent _ _ _).sec
@[simp] theorem Sys.fltEvent_kv : (y.fltEvent k).kv = y.kv := (Sys.raiseIf_sent _ _ _).kv
@[simp] theorem Sys.fltEvent_raster : (y.fltEvent k).raster = y.raster := (Sys.raiseIf_sent _ _ _).raster
@[simp] theorem Sys.fltEvent_vision : (y.fltEvent k).vision = y.vision := (Sys.raiseIf_sent _ _ _).vision
@[simp] theorem Sys.fltEvent_fg : (y.fltEvent k).fg = y.fg := (Sys.raiseIf_sent _ _ _).fg
@[simp] theorem Sys.fltEvent_pipe0 : (y.fltEvent k).pipe0 = y.pipe0 := (Sys.raiseIf_sent _ _ _).pipe0
@[simp] theorem Sys.fltEvent_pipe1 : (y.fltEvent k).pipe1 = y.pipe1 := (Sys.raiseIf_sent _ _ _).pipe1
@[simp] theorem Sys.fltEvent_chance : (y.fltEvent k).chance = y.chance := (Sys.raiseIf_sent _ _ _).chance
@[simp] theorem Sys.fltEvent_flits : (y.fltEvent k).flits = y.flits := (Sys.raiseIf_sent _ _ _).flits
theorem Sys.fltEvent_dram : (y.fltEvent k).mem.dram = y.mem.dram := by unfold Sys.fltEvent; rw [Sys.raiseIf_dram]; rfl
end

section
variable (k : Nat) (y : Sys)
@[simp] theorem Sys.secEvent_glob : (y.secEvent k).glob = y.glob := (Sys.raiseIf_sent _ _ _).glob
@[simp] theorem Sys.secEvent_bridle : (y.secEvent k).bridle = y.bridle := (Sys.raiseIf_sent _ _ _).bridle
@[simp] theorem Sys.secEvent_work : (y.secEvent k).work = y.work := (Sys.raiseIf_sent _ _ _).work
@[simp] theorem Sys.secEvent_girth : (y.secEvent k).girth = y.girth := (Sys.raiseIf_sent _ _ _).girth
@[simp] theorem Sys.secEvent_beam : (y.secEvent k).beam = y.beam := (Sys.raiseIf_sent _ _ _).beam
@[simp] theorem Sys.secEvent_stalls : (y.secEvent k).stalls = y.stalls := (Sys.raiseIf_sent _ _ _).stalls
@[simp] theorem Sys.secEvent_cores : (y.secEvent k).cores = y.cores := (Sys.raiseIf_sent _ _ _).cores
@[simp] theorem Sys.secEvent_dma : (y.secEvent k).dma = y.dma := (Sys.raiseIf_sent _ _ _).dma
@[simp] theorem Sys.secEvent_duo : (y.secEvent k).duo = y.duo := (Sys.raiseIf_sent _ _ _).duo
@[simp] theorem Sys.secEvent_flt : (y.secEvent k).flt = y.flt := (Sys.raiseIf_sent _ _ _).flt
@[simp] theorem Sys.secEvent_sec : (y.secEvent k).sec = { y.sec with events := setBit y.sec.events k } := (Sys.raiseIf_sent _ _ _).sec
@[simp] theorem Sys.secEvent_kv : (y.secEvent k).kv = y.kv := (Sys.raiseIf_sent _ _ _).kv
@[simp] theorem Sys.secEvent_raster : (y.secEvent k).raster = y.raster := (Sys.raiseIf_sent _ _ _).raster
@[simp] theorem Sys.secEvent_vision : (y.secEvent k).vision = y.vision := (Sys.raiseIf_sent _ _ _).vision
@[simp] theorem Sys.secEvent_fg : (y.secEvent k).fg = y.fg := (Sys.raiseIf_sent _ _ _).fg
@[simp] theorem Sys.secEvent_pipe0 : (y.secEvent k).pipe0 = y.pipe0 := (Sys.raiseIf_sent _ _ _).pipe0
@[simp] theorem Sys.secEvent_pipe1 : (y.secEvent k).pipe1 = y.pipe1 := (Sys.raiseIf_sent _ _ _).pipe1
@[simp] theorem Sys.secEvent_chance : (y.secEvent k).chance = y.chance := (Sys.raiseIf_sent _ _ _).chance
@[simp] theorem Sys.secEvent_flits : (y.secEvent k).flits = y.flits := (Sys.raiseIf_sent _ _ _).flits
theorem Sys.secEvent_dram : (y.secEvent k).mem.dram = y.mem.dram := by unfold Sys.secEvent; rw [Sys.raiseIf_dram]; rfl
end

section
variable (k : Nat) (y : Sys)
@[simp] theorem Sys.memEvent_glob : (y.memEvent k).glob = y.glob := (Sys.raiseIf_sent _ _ _).glob
@[simp] theorem Sys.memEvent_bridle : (y.memEvent k).bridle = y.bridle := (Sys.raiseIf_sent _ _ _).bridle
@[simp] theorem Sys.memEvent_work : (y.memEvent k).work = y.work := (Sys.raiseIf_sent _ _ _).work
@[simp] theorem Sys.memEvent_girth : (y.memEvent k).girth = y.girth := (Sys.raiseIf_sent _ _ _).girth
@[simp] theorem Sys.memEvent_beam : (y.memEvent k).beam = y.beam := (Sys.raiseIf_sent _ _ _).beam
@[simp] theorem Sys.memEvent_stalls : (y.memEvent k).stalls = y.stalls := (Sys.raiseIf_sent _ _ _).stalls
@[simp] theorem Sys.memEvent_cores : (y.memEvent k).cores = y.cores := (Sys.raiseIf_sent _ _ _).cores
@[simp] theorem Sys.memEvent_dma : (y.memEvent k).dma = y.dma := (Sys.raiseIf_sent _ _ _).dma
@[simp] theorem Sys.memEvent_duo : (y.memEvent k).duo = y.duo := (Sys.raiseIf_sent _ _ _).duo
@[simp] theorem Sys.memEvent_flt : (y.memEvent k).flt = y.flt := (Sys.raiseIf_sent _ _ _).flt
@[simp] theorem Sys.memEvent_sec : (y.memEvent k).sec = y.sec := (Sys.raiseIf_sent _ _ _).sec
@[simp] theorem Sys.memEvent_kv : (y.memEvent k).kv = y.kv := (Sys.raiseIf_sent _ _ _).kv
@[simp] theorem Sys.memEvent_raster : (y.memEvent k).raster = y.raster := (Sys.raiseIf_sent _ _ _).raster
@[simp] theorem Sys.memEvent_vision : (y.memEvent k).vision = y.vision := (Sys.raiseIf_sent _ _ _).vision
@[simp] theorem Sys.memEvent_fg : (y.memEvent k).fg = y.fg := (Sys.raiseIf_sent _ _ _).fg
@[simp] theorem Sys.memEvent_pipe0 : (y.memEvent k).pipe0 = y.pipe0 := (Sys.raiseIf_sent _ _ _).pipe0
@[simp] theorem Sys.memEvent_pipe1 : (y.memEvent k).pipe1 = y.pipe1 := (Sys.raiseIf_sent _ _ _).pipe1
@[simp] theorem Sys.memEvent_chance : (y.memEvent k).chance = y.chance := (Sys.raiseIf_sent _ _ _).chance
@[simp] theorem Sys.memEvent_flits : (y.memEvent k).flits = y.flits := (Sys.raiseIf_sent _ _ _).flits
theorem Sys.memEvent_dram : (y.memEvent k).mem.dram = y.mem.dram := by unfold Sys.memEvent; rw [Sys.raiseIf_dram]; rfl
end

end Sys2Proof.Machine
end

