-- ==== Sys2Proof/Laws/Access.lean ====
section
/-! SUPPORT. What an access of memory through a context can do: it changes memory, the link, the Harness queue, pools, the fault log and what left
the die, it keeps the canonical form of the memories, and it changes nothing else. -/

namespace Sys2Proof.Machine

/-! ### Device memory -/

/-- From m to n only accesses have happened: a memory in canonical form stays so, host memory stays. -/
structure MemSys.Kept (m n : MemSys) : Prop where
  wf : Cells.wf m.dram = true → Cells.wf n.dram = true
  host : n.host = m.host

theorem MemSys.Kept.refl (m : MemSys) : MemSys.Kept m m := ⟨id, rfl⟩

theorem MemSys.Kept.trans {l m n : MemSys} (a : MemSys.Kept l m) (b : MemSys.Kept m n) : MemSys.Kept l n :=
  ⟨fun h => b.wf (a.wf h), b.host.trans a.host⟩

theorem MemSys.Kept.foldl {α : Type} (f : MemSys → α → MemSys) (h : ∀ m a, MemSys.Kept m (f m a)) (l : List α) (m : MemSys) :
    MemSys.Kept m (l.foldl f m) := by
  induction l generalizing m with
  | nil => exact .refl m
  | cons a l ih => exact (h m a).trans (ih _)

theorem MemSys.dramWrite_kept (m : MemSys) (a : Nat) (bs : List Byte) : MemSys.Kept m (m.dramWrite a bs) := ⟨Cells.write_wf _ _ _, rfl⟩

theorem MemSys.writeBack_kept (m : MemSys) (l : LoftLine) : MemSys.Kept m (m.writeBack l) := by
  unfold MemSys.writeBack; split
  · exact MemSys.dramWrite_kept _ _ _
  · exact .refl m

theorem MemSys.loftAlloc_kept (m : MemSys) (d line : Nat) : MemSys.Kept m (m.loftAlloc d line) := by
  unfold MemSys.loftAlloc; simp only []
  split
  · exact ⟨id, rfl⟩
  · split
    · exact .refl m
    · exact (MemSys.writeBack_kept m _).trans ⟨id, rfl⟩

theorem MemSys.touch_kept (m : MemSys) (src : Src) (line : Nat) : MemSys.Kept m (m.touch src line) := by
  unfold MemSys.touch
  split
  · exact .refl m
  · split
    · exact .refl m
    · split
      · exact ⟨id, rfl⟩
      · simp only []; split
        · exact MemSys.Kept.trans (m := { m with misses := tmod 0 m.misses _ satInc }) ⟨id, rfl⟩ (MemSys.loftAlloc_kept _ _ _)
        · exact ⟨id, rfl⟩

/-- A read of device memory (R352). -/
theorem MemSys.load_kept (m : MemSys) (src : Src) (a n : Nat) : MemSys.Kept m (m.load src a n).1 :=
  MemSys.Kept.foldl _ (fun m l => MemSys.touch_kept m src l) _ m

theorem MemSys.storeLine_kept (m : MemSys) (src : Src) (a : Nat) (bs : List Byte) (line : Nat) : MemSys.Kept m (m.storeLine src a bs line) := by
  unfold MemSys.storeLine; simp only []
  refine (MemSys.touch_kept m src line).trans ?_
  split
  · exact MemSys.dramWrite_kept _ _ _
  · split
    · exact (MemSys.dramWrite_kept _ _ _).trans ⟨id, rfl⟩
    · exact ⟨id, rfl⟩

/-- A write of device memory (R352). -/
theorem MemSys.store_kept (m : MemSys) (src : Src) (a : Nat) (bs : List Byte) : MemSys.Kept m (m.store src a bs) :=
  MemSys.Kept.foldl _ (fun m l => MemSys.storeLine_kept m src a bs l) _ m

/-- A clean of a domain's lines (R354). -/
theorem MemSys.cleanDom_kept (m : MemSys) (d : Nat) (inval : Bool) : MemSys.Kept m (m.cleanDom d inval) :=
  (MemSys.Kept.foldl _ (fun m l => MemSys.writeBack_kept m l) _ m).trans ⟨id, rfl⟩

/-! ### Accesses through a context -/

/-- From y to z only accesses of memory have happened. -/
structure Sys.Accessed (y z : Sys) : Prop where
  glob : z.glob = y.glob
  bridle : z.bridle = y.bridle
  work : z.work = y.work
  girth : z.girth = y.girth
  beam : z.beam = y.beam
  stalls : z.stalls = y.stalls
  cores : z.cores = y.cores
  dma : z.dma = y.dma
  sec : z.sec = y.sec
  kv : z.kv = y.kv
  raster : z.raster = y.raster
  vision : z.vision = y.vision
  fg : z.fg = y.fg
  pipe0 : z.pipe0 = y.pipe0
  pipe1 : z.pipe1 = y.pipe1
  dramWf : Cells.wf y.mem.dram = true → Cells.wf z.mem.dram = true
  hostWf : Cells.wf y.mem.host = true → Cells.wf z.mem.host = true

theorem Sys.Accessed.refl (y : Sys) : Sys.Accessed y y := ⟨rfl, rfl, rfl, rfl, rfl, rfl, rfl, rfl, rfl, rfl, rfl, rfl, rfl, rfl, rfl, id, id⟩

theorem Sys.Accessed.trans {x y z : Sys} (a : Sys.Accessed x y) (b : Sys.Accessed y z) : Sys.Accessed x z :=
  ⟨b.glob.trans a.glob, b.bridle.trans a.bridle, b.work.trans a.work, b.girth.trans a.girth, b.beam.trans a.beam,
   b.stalls.trans a.stalls, b.cores.trans a.cores, b.dma.trans a.dma, b.sec.trans a.sec, b.kv.trans a.kv,
   b.raster.trans a.raster, b.vision.trans a.vision, b.fg.trans a.fg, b.pipe0.trans a.pipe0, b.pipe1.trans a.pipe1,
   fun h => b.dramWf (a.dramWf h), fun h => b.hostWf (a.hostWf h)⟩

theorem Sys.Sent.accessed {y z : Sys} (a : Sys.Sent y z) : Sys.Accessed y z :=
  ⟨a.glob, a.bridle, a.work, a.girth, a.beam,
   a.stalls, a.cores, a.dma, a.sec, a.kv,
   a.raster, a.vision, a.fg, a.pipe0, a.pipe1,
   fun h => by rw [a.mem]; exact h, a.hostWf⟩

theorem Sys.Accessed.mem {y : Sys} {m : MemSys} (h : MemSys.Kept y.mem m) : Sys.Accessed y { y with mem := m } :=
  ⟨rfl, rfl, rfl, rfl, rfl, rfl, rfl, rfl, rfl, rfl, rfl, rfl, rfl, rfl, rfl, h.wf, fun w => by rw [h.host]; exact w⟩

theorem Sys.Accessed.foldl {α : Type} (f : Sys → α → Sys) (h : ∀ y a, Sys.Accessed y (f y a)) (l : List α) (y : Sys) :
    Sys.Accessed y (l.foldl f y) := by
  induction l generalizing y with
  | nil => exact .refl y
  | cons a l ih => exact (h y a).trans (ih _)

theorem Sys.hsendOne_accessed (y : Sys) : Sys.Accessed y y.hsendOne := by
  unfold Sys.hsendOne; simp only []
  split
  · exact .refl y
  · split
    · exact ⟨rfl, rfl, rfl, rfl, rfl, rfl, rfl, rfl, rfl, rfl, rfl, rfl, rfl, rfl, rfl, id, id⟩
    · exact .refl y

/-- A packet to the other die (R384). -/
theorem Sys.hpost_accessed (p : OutPkt) (y : Sys) : Sys.Accessed y (y.hpost p) :=
  Sys.Accessed.trans (y := y.modDuo fun u => { u with hm := { u.hm with txq := u.hm.txq ++ [p] } }) ⟨rfl, rfl, rfl, rfl, rfl, rfl, rfl, rfl, rfl, rfl, rfl, rfl, rfl, rfl, rfl, id, id⟩
    (Sys.Accessed.foldl _ (fun y _ => Sys.hsendOne_accessed y) _ _)

theorem Sys.fltEvent_accessed (k : Nat) (y : Sys) : Sys.Accessed y (y.fltEvent k) :=
  Sys.Accessed.trans (y := y.modFlt fun f => { f with events := setBit f.events k }) ⟨rfl, rfl, rfl, rfl, rfl, rfl, rfl, rfl, rfl, rfl, rfl, rfl, rfl, rfl, rfl, id, id⟩ (Sys.raiseIf_sent _ _ _).accessed

/-- An entry of the error log (R405, R406). -/
theorem Sys.logFault_accessed (e : LogE) (y : Sys) : Sys.Accessed y (y.logFault e) := by
  unfold Sys.logFault; simp only []
  have base : Sys.Accessed y (Sys.fltEvent 0 (y.modFlt fun f =>
      { f with log := tset f.log (y.flt.logCount % 512) (e.words y.glob.refCycles), logCount := satInc f.logCount })) :=
    Sys.Accessed.trans (y := y.modFlt _) ⟨rfl, rfl, rfl, rfl, rfl, rfl, rfl, rfl, rfl, rfl, rfl, rfl, rfl, rfl, rfl, id, id⟩ (Sys.fltEvent_accessed _ _)
  split
  · exact base.trans (Sys.fltEvent_accessed _ _)
  · exact base

/-- A translation fault (R332). -/
theorem Sys.xlatFault_accessed (ctx va : Nat) (k : XKind) (wr : Bool) (y : Sys) : Sys.Accessed y (y.xlatFault ctx va k wr) := by
  unfold Sys.xlatFault; simp only []
  have base := ((Sys.Sent.modLink y (fun l => if bitAt l.xlatInfo 9 then l
    else { l with xlatAddr := va, xlatInfo := put ctx 0 6 + put k.code 6 2 + putb wr 8 + 2 ^ 9 })).trans (Sys.linkEvent_sent 5 _)).accessed
  split
  · exact base.trans (Sys.logFault_accessed _ _)
  · exact base

/-- A translation, answered or faulted (R331, R332). -/
theorem Sys.translate_accessed (who : Option Nat) (ctx va n : Nat) (wr : Bool) (y : Sys) : Sys.Accessed y (y.translate who ctx va n wr).1 := by
  unfold Sys.translate
  generalize (match who with
    | some s => (tget [] y.mem.stallTlb s).find? (fun x : Xlat => x.covers ctx va)
    | none => none).or (y.mem.tlb.find? fun x : Xlat => x.covers ctx va) = hit
  simp only []
  split
  · exact Sys.xlatFault_accessed _ _ _ _ _
  · have last : ∀ (z : Sys) (x : Xlat), Sys.Accessed y z → Sys.Accessed y
        (if wr && (!x.write || (!x.host && z.sealed (x.pa + (va - x.va)) n)) then
          (z.xlatFault ctx va .writeProtect wr, (.error .writeProtect : Except XKind Xlat)) else (z, .ok x)).1 := by
      intro z x h
      split
      · exact h.trans (Sys.xlatFault_accessed ctx va .writeProtect wr z)
      · exact h
    split
    · exact last _ _ (.refl y)
    · exact last _ _ ⟨rfl, rfl, rfl, rfl, rfl, rfl, rfl, rfl, rfl, rfl, rfl, rfl, rfl, rfl, rfl, id, id⟩

theorem Sys.uncorrectable_accessed (blk : Nat) (y : Sys) : Sys.Accessed y (y.uncorrectable blk) := by
  unfold Sys.uncorrectable Sys.memEvent
  refine Sys.Accessed.trans ?_ (Sys.raiseIf_sent _ _ _).accessed
  refine Sys.Accessed.mem ⟨?_, ?_⟩
  · intro h; simp only [Sys.modMem_mem]; split <;> exact h
  · simp only [Sys.modMem_mem]; split <;> rfl

theorem Sys.readPiece_accessed (who : Option Nat) (ctx va n : Nat) (y : Sys) : Sys.Accessed y (y.readPiece who ctx va n).1 := by
  have t := Sys.translate_accessed who ctx va n false y
  unfold Sys.readPiece
  split
  · rename_i e; rw [e] at t; exact t
  · rename_i e; rw [e] at t
    simp only []
    split
    · exact t
    · split
      · exact t.trans ⟨rfl, rfl, rfl, rfl, rfl, rfl, rfl, rfl, rfl, rfl, rfl, rfl, rfl, rfl, rfl, id, id⟩
      · split
        · exact t.trans (Sys.uncorrectable_accessed _ _)
        · exact t.trans (Sys.Accessed.mem (MemSys.load_kept _ _ _ _))

/-- A read through a context, answered or faulted (R332, R350). -/
theorem Sys.vread_accessed (who : Option Nat) (ctx va n : Nat) (y : Sys) : Sys.Accessed y (y.vread who ctx va n).1 := by
  unfold Sys.vread
  suffices h : ∀ (l : List (Nat × Nat)) (acc : Sys × Except Nat (List Byte)), Sys.Accessed y acc.1 → Sys.Accessed y (l.foldl (fun acc p =>
      match acc with
      | (y, .error e) => (y, .error e)
      | (y, .ok bs) => match y.readPiece who ctx p.1 p.2 with
        | (y, .error e) => (y, .error e)
        | (y, .ok b) => (y, .ok (bs ++ b))) acc).1 from h _ _ (.refl y)
  intro l
  induction l with
  | nil => intro acc h; exact h
  | cons p l ih =>
    intro acc h
    refine ih _ ?_
    obtain ⟨z, r⟩ := acc
    cases r with
    | error e => exact h
    | ok bs =>
      have t := Sys.readPiece_accessed who ctx p.1 p.2 z
      simp only []
      split
      · rename_i e; rw [e] at t; exact h.trans t
      · rename_i e; rw [e] at t; exact h.trans t

theorem Sys.writePiece_accessed (who : Option Nat) (ctx va : Nat) (bs : List Byte) (y : Sys) : Sys.Accessed y (y.writePiece who ctx va bs).1 := by
  have t := Sys.translate_accessed who ctx va bs.length true y
  unfold Sys.writePiece
  split
  · rename_i e; rw [e] at t; exact t
  · rename_i e; rw [e] at t
    simp only []
    split
    · exact t.trans (Sys.hostWritePackets_sent _ _ _ _).accessed
    · split
      · exact t.trans (Sys.Accessed.foldl _ (fun y p => Sys.hpost_accessed p y) _ _)
      · exact t.trans (Sys.Accessed.mem (MemSys.store_kept _ _ _ _))

/-- A write through a context for no task group, done or faulted (R308, R332). -/
theorem Sys.vwrite_accessed (who : Option Nat) (ctx va : Nat) (bs : List Byte) (y : Sys) : Sys.Accessed y (y.vwrite who ctx va bs none).1 := by
  unfold Sys.vwrite
  suffices h : ∀ (l : List (Nat × Nat)) (acc : Sys × Except Nat Unit), Sys.Accessed y acc.1 → Sys.Accessed y (l.foldl (fun acc p =>
      match acc with
      | (y, .error e) => (y, .error e)
      | (y, .ok _) => y.writePiece who ctx p.1 ((bs.drop (p.1 - va)).take p.2)) acc).1 from h _ _ (.refl y)
  intro l
  induction l with
  | nil => intro acc h; exact h
  | cons p l ih =>
    intro acc h
    refine ih _ ?_
    obtain ⟨z, r⟩ := acc
    cases r with
    | error e => exact h
    | ok _ => exact h.trans (Sys.writePiece_accessed who ctx p.1 _ z)

end Sys2Proof.Machine
end

