-- ==== Sys2Proof/Laws/Ops.lean ====
section
/-! SUPPORT. Tables, accessors, pools and the small operations that every meaning uses: what a read gives after a change. -/

namespace Sys2Proof.Machine

/-! ### Tables -/

@[simp] theorem tget_tset_same {α : Type} (d v : α) (t : Tab α) (k : Nat) : tget d (tset t k v) k = v := by
  induction t with
  | nil => simp [tset, tget]
  | cons p t ih =>
    obtain ⟨i, w⟩ := p
    simp only [tset]
    split
    · simp [tget]
    · split
      · simp [tget]
      · rename_i h _; simp [tget, h, ih]

theorem tget_tset_other {α : Type} (d v : α) (t : Tab α) (k j : Nat) (h : j ≠ k) : tget d (tset t k v) j = tget d t j := by
  induction t with
  | nil => simp [tset, tget, Ne.symm h]
  | cons p t ih =>
    obtain ⟨i, w⟩ := p
    simp only [tset]
    split
    · rename_i e; subst e; simp [tget, Ne.symm h]
    · split
      · simp [tget, Ne.symm h]
      · simp only [tget, ih]

@[simp] theorem tset_tset {α : Type} (t : Tab α) (k : Nat) (v w : α) : tset (tset t k v) k w = tset t k w := by
  induction t with
  | nil => simp [tset]
  | cons p t ih =>
    obtain ⟨i, u⟩ := p
    simp only [tset]
    split
    · simp [tset]
    · split
      · simp [tset]
      · rename_i h1 h2; simp [tset, h1, h2, ih]

@[simp] theorem tget_tmod_same {α : Type} (d : α) (t : Tab α) (k : Nat) (f : α → α) : tget d (tmod d t k f) k = f (tget d t k) :=
  tget_tset_same d _ t k

theorem tget_tmod_other {α : Type} (d : α) (t : Tab α) (k j : Nat) (f : α → α) (h : j ≠ k) : tget d (tmod d t k f) j = tget d t j :=
  tget_tset_other d _ t k j h

theorem tfind_tset_same {α : Type} (v : α) (t : Tab α) (k : Nat) : tfind (tset t k v) k = some v := by
  induction t with
  | nil => simp [tset, tfind]
  | cons p t ih =>
    obtain ⟨i, w⟩ := p
    simp only [tset]
    split
    · simp [tfind]
    · split
      · simp [tfind]
      · rename_i h _; simp [tfind, h, ih]

theorem tget_tdel_other {α : Type} (d : α) (t : Tab α) (k j : Nat) (h : j ≠ k) : tget d (tdel t k) j = tget d t j := by
  induction t with
  | nil => rfl
  | cons p t ih =>
    obtain ⟨i, w⟩ := p
    simp only [tdel]
    split
    · rename_i e; subst e; simp [tget, Ne.symm h]
    · simp only [tget, ih]

theorem tget_tmap {α : Type} (d : α) (t : Tab α) (f : Nat → α → α) (k : Nat) (h : f k d = d) : tget d (tmap t f) k = f k (tget d t k) := by
  induction t with
  | nil => simp [tmap, tget, h]
  | cons p t ih =>
    obtain ⟨i, w⟩ := p
    by_cases e : i = k
    · subst e; simp [tmap, tget]
    · have : tget d (tmap t f) k = f k (tget d t k) := ih
      simpa [tmap, tget, e] using this

/-! ### Entries of the block tables -/

section
variable (y : Sys) (k j : Nat)

@[simp] theorem Sys.core_modCore_same (f : Core → Core) : (y.modCore k f).core k = f (y.core k) := tget_tmod_same _ _ _ _
theorem Sys.core_modCore_other (f : Core → Core) (h : j ≠ k) : (y.modCore k f).core j = y.core j := tget_tmod_other _ _ _ _ _ h
@[simp] theorem Sys.stall_modStall_same (f : Stall → Stall) : (y.modStall k f).stall k = f (y.stall k) := tget_tmod_same _ _ _ _
theorem Sys.stall_modStall_other (f : Stall → Stall) (h : j ≠ k) : (y.modStall k f).stall j = y.stall j := tget_tmod_other _ _ _ _ _ h
@[simp] theorem Sys.queue_modQueue_same (f : Queue → Queue) : (y.modQueue k f).queue k = f (y.queue k) := tget_tmod_same _ _ _ _
theorem Sys.queue_modQueue_other (f : Queue → Queue) (h : j ≠ k) : (y.modQueue k f).queue j = y.queue j := tget_tset_other _ _ _ _ _ h
@[simp] theorem Sys.ctx_modCtx_same (f : Ctx → Ctx) : (y.modCtx k f).ctx k = f (y.ctx k) := tget_tmod_same _ _ _ _
theorem Sys.ctx_modCtx_other (f : Ctx → Ctx) (h : j ≠ k) : (y.modCtx k f).ctx j = y.ctx j := tget_tmod_other _ _ _ _ _ h
@[simp] theorem Sys.job_modJob_same (f : Job → Job) : (y.modJob k f).job k = f (y.job k) := tget_tmod_same _ _ _ _
theorem Sys.job_modJob_other (f : Job → Job) (h : j ≠ k) : (y.modJob k f).job j = y.job j := tget_tmod_other _ _ _ _ _ h
@[simp] theorem Sys.sem_modSem_same (f : Sem → Sem) : (y.modSem k f).sem k = f (y.sem k) := tget_tmod_same _ _ _ _
theorem Sys.sem_modSem_other (f : Sem → Sem) (h : j ≠ k) : (y.modSem k f).sem j = y.sem j := tget_tmod_other _ _ _ _ _ h
@[simp] theorem Sys.tg_modTg_same (f : Tg → Tg) : (y.modTg k f).tg k = f (y.tg k) := tget_tmod_same _ _ _ _
theorem Sys.tg_modTg_other (f : Tg → Tg) (h : j ≠ k) : (y.modTg k f).tg j = y.tg j := tget_tmod_other _ _ _ _ _ h
end

section
variable (y : Sys) (p i : Nat) (f : Pool → Pool)

@[simp] theorem Sys.pool_modPool_same : (y.modPool p i f).pool p i = f (y.pool p i) := tget_tmod_same _ _ _ _

/-- Pool instances are numbered below 64, so a change of one leaves every other (R310). -/
theorem Sys.pool_modPool_other (q j : Nat) (hi : i < 64) (hj : j < 64) (h : q ≠ p ∨ j ≠ i) : (y.modPool p i f).pool q j = y.pool q j :=
  tget_tmod_other _ _ _ _ _ (by unfold poolKey; omega)

@[simp] theorem Sys.modPool_cores : (y.modPool p i f).cores = y.cores := rfl
@[simp] theorem Sys.modPool_bridle : (y.modPool p i f).bridle = y.bridle := rfl
@[simp] theorem Sys.modPool_work : (y.modPool p i f).work = y.work := rfl
@[simp] theorem Sys.modPool_mem : (y.modPool p i f).mem = y.mem := rfl
@[simp] theorem Sys.modPool_link : (y.modPool p i f).link = y.link := rfl
@[simp] theorem Sys.modPool_duo : (y.modPool p i f).duo = y.duo := rfl
@[simp] theorem Sys.modPool_glob : (y.modPool p i f).glob = y.glob := rfl
@[simp] theorem Sys.modPool_girth : (y.modPool p i f).girth = y.girth := rfl
@[simp] theorem Sys.modPool_stalls : (y.modPool p i f).stalls = y.stalls := rfl
end

/-! ### Pools (R311) -/

/-- Taking what is free keeps the instance's equation. -/
theorem Pool.take_ok {n : Nat} {p : Pool} (h : p.ok = true) (hn : n ≤ p.free) : (p.take n).ok = true := by
  simp [Pool.ok, Pool.take] at *; omega

/-- Returning what is held keeps it. -/
theorem Pool.give_ok {n : Nat} {p : Pool} (h : p.ok = true) (hn : n ≤ p.held) : (p.give n).ok = true := by
  simp [Pool.ok, Pool.give] at *; omega

/-- A grant keeps it. -/
theorem Pool.grow_ok {n : Nat} {p : Pool} (h : p.ok = true) : (p.grow n).ok = true := by
  simp [Pool.ok, Pool.grow] at *; omega

/-! ### Commands and forwarded writes -/

/-- A command that acts on the block's registers and memories answers a next state and leaves the queue, bring-up and the TAP alone. -/
theorem onSys_next (f : Sys → Sys) (s : State) : onSys f s = .next { s with sys := f s.sys } := rfl

/-- Outside TANDEM a forwarded write is only the write. -/
theorem Sys.mirrored_plain {off w : Nat} {f : Sys → Sys} {y : Sys} (h : y.glob.config ≠ 2) : y.mirrored off w f = f y := by
  simp [Sys.mirrored, Sys.mirrorWorker, h]

/-- A forwarded register's write on the TANDEM worker's own module is rejected (R391). -/
theorem Sys.mirrored_worker {off w : Nat} {f : Sys → Sys} {y : Sys} (h : y.mirrorWorker = true) : y.mirrored off w f = y.reject := by
  simp [Sys.mirrored, h]

end Sys2Proof.Machine
end

