-- ==== Sys2Proof/Laws/Awl.lean ====
section
/-! SUPPORT. What an Awl instruction of a core that may issue does: registers, the next address, and each shared shape of instruction. -/

namespace Sys2Proof.Machine

/-! ### Registers -/

@[simp] theorem Run.setx_pc (r : Run) (d : Nat) (v : Word) : (r.setx d v).pc = r.pc := by unfold Run.setx; split <;> rfl
@[simp] theorem Run.setx_codes (r : Run) (d : Nat) (v : Word) : (r.setx d v).codes = r.codes := by unfold Run.setx; split <;> rfl
@[simp] theorem Run.setx_cmds (r : Run) (d : Nat) (v : Word) : (r.setx d v).cmds = r.cmds := by unfold Run.setx; split <;> rfl
@[simp] theorem Run.setx_wait (r : Run) (d : Nat) (v : Word) : (r.setx d v).wait = r.wait := by unfold Run.setx; split <;> rfl
@[simp] theorem Run.setx_pre (r : Run) (d : Nat) (v : Word) : (r.setx d v).pre = r.pre := by unfold Run.setx; split <;> rfl
@[simp] theorem Run.setx_tg (r : Run) (d : Nat) (v : Word) : (r.setx d v).tg = r.tg := by unfold Run.setx; split <;> rfl

/-- Whether the next word may be fetched does not depend on a register. -/
theorem Run.GoesOn.setx {r : Run} {pc : Nat} (d : Nat) (v : Word) (h : r.GoesOn pc) : (r.setx d v).GoesOn pc :=
  ⟨h.aligned, h.low, h.high, by rw [Run.setx_codes]; exact h.sound⟩

/-! ### The next address -/

/-- An instruction of a core that may issue acts on that core's sliver. -/
theorem onSys_awl {c : Nat} {s : State} {r : Run} (h : s.Issues c r) (f : Run → Sys → Sys) :
    onSys (Sys.awl c f) s = .next { s with sys := f r s.sys } := by
  simp [onSys, Sys.awl, Core.issues, h.running, h.going, h.run, h.ready, h.awl]

/-- A jump to an address that may be fetched from only moves the address. -/
theorem goTo_ok {c : Nat} {r : Run} {pc : Nat} (h : r.GoesOn pc) (y : Sys) :
    y.goTo c r pc = { y with cores := tset y.cores c { y.core c with run := some { r with pc := pc } } } := by
  have low : pc % 4294967296 = pc := Nat.mod_eq_of_lt (by have := h.high; omega)
  have h2 := h.aligned; have h3 := h.low; have h4 := h.high; have h5 := h.sound
  simp [Sys.goTo, low, pcOk, h2, h3, h4, h5, Sys.modCore, Sys.modCores, tmod, Sys.core]

theorem goTo_putRun {c : Nat} {r : Run} {pc : Nat} (h : r.GoesOn pc) (s : State) :
    ({ s with sys := s.sys.goTo c r pc } : State) = s.putRun c { r with pc := pc } := by rw [goTo_ok h]; rfl

/-- An instruction that retires with the next word fetchable leaves the next address and nothing else. -/
theorem retire_ok {c : Nat} {r : Run} (h : r.GoesOn (r.pc + 4)) (y : Sys) :
    y.retire c r = { y with cores := tset y.cores c { y.core c with run := some { r with pc := r.pc + 4 } } } := goTo_ok h y

theorem retire_putRun {c : Nat} {r : Run} (h : r.GoesOn (r.pc + 4)) (s : State) :
    ({ s with sys := s.sys.retire c r } : State) = s.putRun c { r with pc := r.pc + 4 } := goTo_putRun h s

theorem retire_setx {c d : Nat} {r : Run} {v : Word} (h : r.GoesOn (r.pc + 4)) (s : State) :
    ({ s with sys := s.sys.retire c (r.setx d v) } : State) = s.putRun c { r.setx d v with pc := r.pc + 4 } := by
  have := h.setx d v
  rw [retire_ok (by rw [Run.setx_pc]; exact this)]
  simp [State.putRun, State.putCore]

/-! ### Shapes of instructions -/

/-- A scalar operation writes xd and goes on. -/
theorem alu_ok {c d : Nat} {s : State} {r : Run} (h : s.Issues c r) (g : r.GoesOn (r.pc + 4)) (f : Run → Word) :
    alu c d f s = .next (s.putRun c { r.setx d (f r) with pc := r.pc + 4 }) := by
  unfold alu; rw [onSys_awl h, retire_setx g]

/-- The target of a branch whose address may be fetched from is that address. -/
theorem target_eq {r : Run} {pc : Nat} {o : Int} (h : (pc : Int) = r.pc + 4 * o) (g : r.GoesOn pc) : target r.pc o = pc := by
  unfold target; rw [← h]; have := g.high; omega

/-- A conditional branch moves the address and nothing else. -/
theorem branch_ok {c : Nat} {o : BitVec 14} {s : State} {r : Run} {pc : Nat} {f : Run → Bool} (h : s.Issues c r) (g : r.GoesOn pc)
    (e : if f r then (pc : Int) = r.pc + 4 * o.toInt else pc = r.pc + 4) : branch c o f s = .next (s.putRun c { r with pc := pc }) := by
  unfold branch; rw [onSys_awl h]
  cases hf : f r
  · rw [hf] at e; simp only [Bool.false_eq_true, if_false] at e ⊢; subst e; unfold Sys.retire; rw [goTo_putRun g]
  · rw [hf] at e; simp only [if_true] at e ⊢; rw [target_eq e g, goTo_putRun g]

/-- An access of the local store with no EDRAIN in flight waits for nothing. -/
theorem interlock_none {c a n : Nat} {y : Sys} {r : Run} (h : (y.core c).run = some r) (hd : ∀ k ∈ r.cmds, k.kind ≠ .drain) :
    y.interlock c a n = y := by
  have : drainsBefore r.cmds a n = 0 := by
    unfold drainsBefore
    rw [List.filter_eq_nil_iff.2]
    · rfl
    · intro i hi
      cases e : r.cmds[i]? with
      | none => simp
      | some k => have := hd k (List.mem_of_getElem? e); simp [this]
  simp [Sys.interlock, h, this]

/-- A waiting core keeps everything but what it waits for. -/
theorem waitOn_putRun (c : Nat) (r : Run) (w : Wait) (s : State) :
    ({ s with sys := s.sys.waitOn c r w } : State) = s.putRun c { r with wait := w } := rfl

/-- A sliver that nothing stops has nothing to do at a boundary. -/
theorem boundaryActs_undisturbed {r : Run} {y : Sys} (hc : (y.job (y.tg r.tg).job).st ≠ 5) (hw : (y.tg r.tg).cut = false)
    (hs : (y.job (y.tg r.tg).job).st ≠ 3) (hh : y.duo.hold = false) (hp : r.pre = none) : y.boundaryActs r = false := by
  simp [Sys.boundaryActs, Sys.stopStatus, hc, hw, hs, hh, hp]

/-- A tile boundary at which nothing stops the sliver leaves everything as it is, engine commands in flight or not. -/
theorem boundary_undisturbed {c : Nat} {r : Run} {y : Sys} (h : (y.core c).run = some r) (hc : (y.job (y.tg r.tg).job).st ≠ 5)
    (hw : (y.tg r.tg).cut = false) (hs : (y.job (y.tg r.tg).job).st ≠ 3) (hh : y.duo.hold = false) (hp : r.pre = none) : y.boundary c = y := by
  simp [Sys.boundary, h, boundaryActs_undisturbed hc hw hs hh hp, Sys.stopStatus, hc, hw, hs, hh, hp]

end Sys2Proof.Machine
end

