-- ==== Sys2Proof/Laws/Packets.lean ====
section
/-! SUPPORT. The shared shapes of packets at the head of a queue and of semaphore grants. -/

namespace Sys2Proof.Machine

/-- A head packet of the wanted type that may run is given to its meaning. -/
theorem atHead_run {q : Nat} {want : Nat → Bool} {f : Pkt → Sys → Sys} {y z : Sys} {p : Pkt} {rest : List Pkt} (h : (y.queue q).slots = p :: rest)
    (w : want p.type = true) (t : y.takeIn q = (z, some p)) : y.atHead q want f = f p z := by
  simp [Sys.atHead, Sys.headIs, h, w, t]

/-- A head packet of the wanted type that may not run leaves what taking it in did. -/
theorem atHead_wait {q : Nat} {want : Nat → Bool} {f : Pkt → Sys → Sys} {y z : Sys} {p : Pkt} {rest : List Pkt} (h : (y.queue q).slots = p :: rest)
    (w : want p.type = true) (t : y.takeIn q = (z, none)) : y.atHead q want f = z := by
  simp [Sys.atHead, Sys.headIs, h, w, t]

/-- A row of another type than the head packet's does nothing. -/
theorem atHead_other {q : Nat} {want : Nat → Bool} {f : Pkt → Sys → Sys} {y : Sys} (h : ∀ p rest, (y.queue q).slots = p :: rest → want p.type = false) :
    y.atHead q want f = y := by
  cases e : (y.queue q).slots with
  | nil => simp [Sys.atHead, Sys.headIs, e]
  | cons p rest => simp [Sys.atHead, Sys.headIs, e, h p rest e]

/-- The oldest request of a semaphore gets its tokens when they are free, and its holder now lends and is lent to (R282, R306). -/
theorem semGrant_ok {n : Nat} {y : Sys} {r : SemReq} {rest : List SemReq} (h : (y.sem n).waits = r :: rest) (hf : (y.sem n).need r ≤ (y.sem n).free)
    (ht : (y.sem n).total ≠ 0) : y.semGrant n = (y.countLends ((y.modSem n fun s => { s with waits := rest, holds := s.holds ++ [{ who := r.who, n := (y.sem n).need r }] }).modPool 4 0
      (Pool.take ((y.sem n).need r))), some r.who) := by
  simp [Sys.semGrant, h, hf, ht]

/-- Without free tokens the oldest request waits, and every later one behind it. -/
theorem semGrant_wait {n : Nat} {y : Sys} {r : SemReq} {rest : List SemReq} (h : (y.sem n).waits = r :: rest)
    (hf : (y.sem n).free < (y.sem n).need r) : y.semGrant n = (y, none) := by
  simp [Sys.semGrant, h, Nat.not_le.2 hf]

end Sys2Proof.Machine
end

