-- ==== Sys2Proof/WellFormed.lean ====
section
/-! DEFINITION. Which commands are well formed: every number lies in the range of the field, register number or unit it names. A meaning
reduces a larger number to its field, so that exec is total; a statement about a command speaks of well-formed ones where it matters. -/

namespace Sys2Proof

/-- The numbers of a command, each beside the bound it lies below. -/
def Instr.bounds : Instr → List (Nat × Nat)
  | .registerWrite module offset word size => [(module, 2), (offset, 2 ^ 26), (word.word, 2 ^ 32), (word.same, 2 ^ 32), (size, 257)]
  | .reg64LowRead module tag offset size => [(module, 2), (tag, 1024), (offset, 2 ^ 26), (size, 257)]
  | .reg64HighWrite offset word => [(offset, 2 ^ 26), (word, 2 ^ 32)]
  | .reg64LowWrite offset word => [(offset, 2 ^ 26), (word, 2 ^ 32)]
  | .clrRejects _ => []
  | .pwrgoodRise _ _ _ => []
  | .recordReadDone _ _ => []
  | .pufIdentityDone _ _ => []
  | .linkTrainDone _ _ => []
  | .loadFw _ => []
  | .firmwareVerifyDone => []
  | .loadPattern _ => []
  | .patternCheckDone => []
  | .applyPllLockDone _ => []
  | .stallInitDone => []
  | .memTrainDone failed _ => [(failed, 2 ^ 16)]
  | .amend _ => []
  | .amendmentEnd => []
  | .globalResetWarm => []
  | .globalResetReload => []
  | .resetPinLow _ => []
  | .pwrgoodFall => []
  | .supplyFault => []
  | .tapReset => []
  | .jtagBypass _ => []
  | .jtagSamplePreload levels _ => [(levels, 2 ^ 29)]
  | .jtagExtest levels _ => [(levels, 2 ^ 29)]
  | .jtagIdcode => []
  | .beamTick => []
  | .ghostTick => []
  | .beamLineRead => []
  | .beamGateOpen mask => [(mask, 2 ^ 16)]
  | .beamPhaseSlip => []
  | .beamClrCounts => []
  | .heldFireRelease => []
  | .fgEnable word => [(word, 2 ^ 32)]
  | .fgDisable word => [(word, 2 ^ 32)]
  | .fgClrCounts => []
  | .sourceRegister queue => [(queue, 2 ^ 18)]
  | .add core d a b => [(core, 4096), (d, 32), (a, 32), (b, 32)]
  | .sub core d a b => [(core, 4096), (d, 32), (a, 32), (b, 32)]
  | .and core d a b => [(core, 4096), (d, 32), (a, 32), (b, 32)]
  | .or core d a b => [(core, 4096), (d, 32), (a, 32), (b, 32)]
  | .xor core d a b => [(core, 4096), (d, 32), (a, 32), (b, 32)]
  | .shl core d a b => [(core, 4096), (d, 32), (a, 32), (b, 32)]
  | .shr core d a b => [(core, 4096), (d, 32), (a, 32), (b, 32)]
  | .sra core d a b => [(core, 4096), (d, 32), (a, 32), (b, 32)]
  | .mul core d a b => [(core, 4096), (d, 32), (a, 32), (b, 32)]
  | .mulh core d a b => [(core, 4096), (d, 32), (a, 32), (b, 32)]
  | .mulhu core d a b => [(core, 4096), (d, 32), (a, 32), (b, 32)]
  | .slt core d a b => [(core, 4096), (d, 32), (a, 32), (b, 32)]
  | .sltu core d a b => [(core, 4096), (d, 32), (a, 32), (b, 32)]
  | .min core d a b => [(core, 4096), (d, 32), (a, 32), (b, 32)]
  | .max core d a b => [(core, 4096), (d, 32), (a, 32), (b, 32)]
  | .clz core d a => [(core, 4096), (d, 32), (a, 32)]
  | .popc core d a => [(core, 4096), (d, 32), (a, 32)]
  | .addi core d a _ => [(core, 4096), (d, 32), (a, 32)]
  | .andi core d a _ => [(core, 4096), (d, 32), (a, 32)]
  | .ori core d a _ => [(core, 4096), (d, 32), (a, 32)]
  | .xori core d a _ => [(core, 4096), (d, 32), (a, 32)]
  | .shli core d a _ => [(core, 4096), (d, 32), (a, 32)]
  | .shri core d a _ => [(core, 4096), (d, 32), (a, 32)]
  | .srai core d a _ => [(core, 4096), (d, 32), (a, 32)]
  | .slti core d a _ => [(core, 4096), (d, 32), (a, 32)]
  | .lui core d _ => [(core, 4096), (d, 32)]
  | .ldw core d a _ => [(core, 4096), (d, 32), (a, 32)]
  | .ldh core d a _ => [(core, 4096), (d, 32), (a, 32)]
  | .ldb core d a _ => [(core, 4096), (d, 32), (a, 32)]
  | .stw core d a _ => [(core, 4096), (d, 32), (a, 32)]
  | .sth core d a _ => [(core, 4096), (d, 32), (a, 32)]
  | .stb core d a _ => [(core, 4096), (d, 32), (a, 32)]
  | .ldp core d a _ => [(core, 4096), (d, 32), (a, 32)]
  | .stp core d a _ => [(core, 4096), (d, 32), (a, 32)]
  | .beq core a b _ => [(core, 4096), (a, 32), (b, 32)]
  | .bne core a b _ => [(core, 4096), (a, 32), (b, 32)]
  | .blt core a b _ => [(core, 4096), (a, 32), (b, 32)]
  | .bge core a b _ => [(core, 4096), (a, 32), (b, 32)]
  | .bltu core a b _ => [(core, 4096), (a, 32), (b, 32)]
  | .bgeu core a b _ => [(core, 4096), (a, 32), (b, 32)]
  | .jmp core _ => [(core, 4096)]
  | .call core _ => [(core, 4096)]
  | .jr core a => [(core, 4096), (a, 32)]
  | .illegalInstruction core => [(core, 4096)]
  | .emma core a => [(core, 4096), (a, 32)]
  | .emmaEnd core => [(core, 4096)]
  | .econvMacMain core a => [(core, 4096), (a, 32)]
  | .econvMacEdge core a => [(core, 4096), (a, 32)]
  | .econvMax core a => [(core, 4096), (a, 32)]
  | .econvAvg core a => [(core, 4096), (a, 32)]
  | .econvEnd core => [(core, 4096)]
  | .ezero core mask => [(core, 4096), (mask, 16)]
  | .ezeroApply core engine => [(core, 4096), (engine, 4)]
  | .eswap core mask => [(core, 4096), (mask, 16)]
  | .eswapApply core engine => [(core, 4096), (engine, 4)]
  | .edrain core a mask => [(core, 4096), (a, 32), (mask, 16)]
  | .edrainEnd core => [(core, 4096)]
  | .ewait core mask => [(core, 4096), (mask, 16)]
  | .vadd core d a b => [(core, 4096), (d, 32), (a, 32), (b, 32)]
  | .vsub core d a b => [(core, 4096), (d, 32), (a, 32), (b, 32)]
  | .vmul core d a b => [(core, 4096), (d, 32), (a, 32), (b, 32)]
  | .vmin core d a b => [(core, 4096), (d, 32), (a, 32), (b, 32)]
  | .vmax core d a b => [(core, 4096), (d, 32), (a, 32), (b, 32)]
  | .vfma core a b => [(core, 4096), (a, 32), (b, 32)]
  | .vlda core a => [(core, 4096), (a, 32)]
  | .vsta core d => [(core, 4096), (d, 32)]
  | .vexp2 core d a => [(core, 4096), (d, 32), (a, 32)]
  | .vrcp core d a => [(core, 4096), (d, 32), (a, 32)]
  | .vrsq core d a => [(core, 4096), (d, 32), (a, 32)]
  | .vdiv core d a b => [(core, 4096), (d, 32), (a, 32), (b, 32)]
  | .vcvti core d a => [(core, 4096), (d, 32), (a, 32)]
  | .vcvtf core d a => [(core, 4096), (d, 32), (a, 32)]
  | .viadd core d a b => [(core, 4096), (d, 32), (a, 32), (b, 32)]
  | .vimul core d a b => [(core, 4096), (d, 32), (a, 32), (b, 32)]
  | .vsum core d a => [(core, 4096), (d, 32), (a, 32)]
  | .vmaxr core d a => [(core, 4096), (d, 32), (a, 32)]
  | .sint core d a => [(core, 4096), (d, 32), (a, 32)]
  | .smrg core d a => [(core, 4096), (d, 32), (a, 32)]
  | .stopk core d a => [(core, 4096), (d, 32), (a, 32)]
  | .scmp core d a => [(core, 4096), (d, 32), (a, 32)]
  | .gath core a => [(core, 4096), (a, 32)]
  | .scat core a => [(core, 4096), (a, 32)]
  | .scadd core a => [(core, 4096), (a, 32)]
  | .dmaCopy core d a => [(core, 4096), (d, 32), (a, 32)]
  | .dmaConvert core d a => [(core, 4096), (d, 32), (a, 32)]
  | .dmaZcStore core d a => [(core, 4096), (d, 32), (a, 32)]
  | .dmaZcLoad core d a => [(core, 4096), (d, 32), (a, 32)]
  | .dmaTicketEnd core ticket => [(core, 4096), (ticket, 2 ^ 32)]
  | .dwait core a => [(core, 4096), (a, 32)]
  | .tile core => [(core, 4096)]
  | .tileOverrun core => [(core, 4096)]
  | .fence core => [(core, 4096)]
  | .semacq core a => [(core, 4096), (a, 32)]
  | .semrel core a => [(core, 4096), (a, 32)]
  | .semGrant sem => [(sem, 4096)]
  | .rwait core d a b => [(core, 4096), (d, 32), (a, 32), (b, 32)]
  | .csrr core d _ => [(core, 4096), (d, 32)]
  | .csrw core a _ => [(core, 4096), (a, 32)]
  | .exit core a => [(core, 4096), (a, 32)]
  | .stallQselWrite stall word => [(stall, 64), (word, 2 ^ 32)]
  | .stallQdataRead stall => [(stall, 64)]
  | .stallClrCounts stall => [(stall, 64)]
  | .stallQclrCounts stall => [(stall, 64)]
  | .taskPacket queue => [(queue, 2 ^ 18)]
  | .attn queue => [(queue, 2 ^ 18)]
  | .attnBwd queue => [(queue, 2 ^ 18)]
  | .kappend queue => [(queue, 2 ^ 18)]
  | .klistEvict queue => [(queue, 2 ^ 18)]
  | .klistPin queue => [(queue, 2 ^ 18)]
  | .klistUnpin queue => [(queue, 2 ^ 18)]
  | .klistSpill queue => [(queue, 2 ^ 18)]
  | .klistCommit queue => [(queue, 2 ^ 18)]
  | .listLockGrant sem => [(sem, 4096)]
  | .prefetchLanded queue _ => [(queue, 2 ^ 18)]
  | .kvWaitExpire queue => [(queue, 2 ^ 18)]
  | .kvGrantDevice count => [(count, 2 ^ 24)]
  | .kvGrantHost count => [(count, 2 ^ 24)]
  | .kvClrCounts => []
  | .nopPacket queue => [(queue, 2 ^ 18)]
  | .rasterPacket queue => [(queue, 2 ^ 18)]
  | .visionFlow queue => [(queue, 2 ^ 18)]
  | .visionStereo queue => [(queue, 2 ^ 18)]
  | .visionFeature queue => [(queue, 2 ^ 18)]
  | .sourcePacket queue => [(queue, 2 ^ 18)]
  | .semAcquirePacket queue => [(queue, 2 ^ 18)]
  | .semReleasePacket queue => [(queue, 2 ^ 18)]
  | .writePacket queue => [(queue, 2 ^ 18)]
  | .reservedPacket queue => [(queue, 2 ^ 18)]
  | .doorbell queue word => [(queue, 2 ^ 18), (word, 2 ^ 32)]
  | .packetFetch queue => [(queue, 2 ^ 18)]
  | .sliverDispatch domain => [(domain, 8)]
  | .permitGrant => []
  | .preemptRequest domain => [(domain, 8)]
  | .saveComplete core => [(core, 4096)]
  | .restoreComplete core => [(core, 4096)]
  | .drainWindowClose core => [(core, 4096)]
  | .holdLimitExpire sem _ => [(sem, 4096)]
  | .suspendCopyLanded job => [(job, 4096)]
  | .breezeInStep => []
  | .stallWake stall => [(stall, 64)]
  | .bridleClrCounts => []
  | .jobOpen => []
  | .jobSuspend => []
  | .jobResume => []
  | .jobCancel => []
  | .jobClose => []
  | .jobCancelEnd job => [(job, 4096)]
  | .semCfgWrite word => [(word, 2 ^ 32)]
  | .qcfgBaseWrite base => [(base, 2 ^ 64)]
  | .qcfgRingWrite word => [(word, 2 ^ 32)]
  | .ctxCalmExit word => [(word, 2 ^ 32)]
  | .consTotalRead => []
  | .consClrCounts => []
  | .auditSweep => []
  | .rasterPassStart => []
  | .primitiveProcess => []
  | .growWaitExpire => []
  | .tileSliceConsume owner => [(owner, 16)]
  | .fragmentRetire owner qx qy _ _ _ => [(owner, 16), (qx, 2 ^ 11), (qy, 2 ^ 11)]
  | .textureSample unit draw idx _ => [(unit, 32), (draw, 2 ^ 16), (idx, 2 ^ 16)]
  | .rasterGrant count => [(count, 2 ^ 24)]
  | .rasterClrCounts => []
  | .visionCommandStart engine => [(engine, 6)]
  | .flagStripeAdvance engine => [(engine.engine, 6)]
  | .visionStop engine row level _ _ => [(engine, 6), (row, 2 ^ 13), (level, 8)]
  | .visionClrCounts => []
  | .pipeEnable pipe => [(pipe, 2)]
  | .linkTrainingEnd pipe _ => [(pipe, 2)]
  | .pipeFrameStart pipe => [(pipe, 2)]
  | .lineFetchStart pipe line _ => [(pipe, 2), (line, 2 ^ 13)]
  | .pipeCalmEnter pipe => [(pipe, 2)]
  | .pipeCalmExit pipe => [(pipe, 2)]
  | .calmTimerExpire pipe => [(pipe, 2)]
  | .stillEnter => []
  | .stillExit pipe => [(pipe, 2)]
  | .suArm first last => [(first, 2 ^ 13), (last, 2 ^ 13)]
  | .pipeClrCounts pipe => [(pipe, 2)]
  | .auxNativeWrite pipe addr len => [(pipe, 2), (addr, 2 ^ 20), (len, 16)]
  | .auxNativeRead pipe addr len => [(pipe, 2), (addr, 2 ^ 20), (len, 16)]
  | .auxI2cWrite pipe addr len => [(pipe, 2), (addr, 2 ^ 20), (len, 16)]
  | .auxI2cRead pipe addr len => [(pipe, 2), (addr, 2 ^ 20), (len, 16)]
  | .auxReply pipe code _ => [(pipe, 2), (code, 4)]
  | .auxDeferRetry pipe => [(pipe, 2)]
  | .auxTimeout pipe => [(pipe, 2)]
  | .hpdLowTimeout pipe => [(pipe, 2)]
  | .hpdPulse pipe => [(pipe, 2)]
  | .laneLockLoss pipe => [(pipe, 2)]
  | .hostDevmemWrite module addr fbe lbe _ => [(module, 2), (addr, 2 ^ 64), (fbe, 16), (lbe, 16)]
  | .hostDevmemRead module tag addr len => [(module, 2), (tag, 1024), (addr, 2 ^ 64), (len, 257)]
  | .hostCpl module tag _ => [(module, 2), (tag, 1024)]
  | .hostCple module tag => [(module, 2), (tag, 1024)]
  | .hostCrd module ph pd nph => [(module, 2), (ph, 2 ^ 10), (pd, 2 ^ 20), (nph, 2 ^ 10)]
  | .hostInit module ph nph pd => [(module, 2), (ph, 2 ^ 10), (nph, 2 ^ 10), (pd, 2 ^ 20)]
  | .malformedPacket module tag _ => [(module, 2), (tag, 1024)]
  | .flitCrcFail module _ => [(module, 2)]
  | .moduleRetrainEnd module _ => [(module, 2)]
  | .linkLaneLoss module => [(module, 2)]
  | .cplTimeout module tag => [(module, 2), (tag, 1024)]
  | .module1TrainEnd _ => []
  | .vecRaiseCmd vector word => [(vector, 256), (word, 2 ^ 32)]
  | .vecMaskClear vector => [(vector, 256)]
  | .invPage context => [(context, 64)]
  | .invContext context => [(context, 64)]
  | .invAll => []
  | .invDone => []
  | .hostlinkClrCounts => []
  | .refreshInterval channel _ => [(channel, 16)]
  | .mr4Poll channel rate _ => [(channel, 16), (rate, 32)]
  | .wckDriftSample channel _ => [(channel, 16)]
  | .selfRefreshEntry channel => [(channel, 16)]
  | .selfRefreshExit channel => [(channel, 16)]
  | .patrolScrub _ found => [(found, 3)]
  | .loftWriteBack domain => [(domain, 8)]
  | .loftWriteBackInvalidate domain => [(domain, 8)]
  | .loftCmdDone domain => [(domain, 8)]
  | .memClrCounts => []
  | .governorDecision => []
  | .powerMeasurement _ rail other => [(rail, 2 ^ 18), (other, 2 ^ 17)]
  | .thermalSample celsius => [(celsius, 2 ^ 8)]
  | .voltageSettled => []
  | .avsTimeout => []
  | .droopTrip detector => [(detector, 8)]
  | .droopClear _ => []
  | .stepResume => []
  | .squallFall => []
  | .squallRise => []
  | .squallHoldExpire => []
  | .gateIdleExpire stall => [(stall, 64)]
  | .girthCapWrite word => [(word, 2 ^ 32)]
  | .girthModeWrite word => [(word, 2 ^ 32)]
  | .girthHintWrite ctx word => [(ctx, 64), (word, 2 ^ 32)]
  | .girthClrCounts => []
  | .harnessTrainEnd => []
  | .hello config duoId _ _ _ => [(config, 4), (duoId, 2)]
  | .duoFormTimeout => []
  | .hbeatSend => []
  | .hbeat word0 epoch digest0 => [(word0, 2 ^ 32), (epoch, 2 ^ 32), (digest0, 2 ^ 32)]
  | .peerSilenceTimeout => []
  | .duoHoldTimeout => []
  | .beampos line tick held source phase frame => [(line, 2 ^ 13), (tick, 16), (held, 2), (source, 4), (phase, 8), (frame, 2 ^ 32)]
  | .sched _ => []
  | .rreq tag stall entry addr len => [(tag, 1024), (stall, 64), (entry, 256), (addr, 2 ^ 64), (len, 257)]
  | .rrsp tag stall entry status _ => [(tag, 1024), (stall, 64), (entry, 256), (status, 256)]
  | .digest _ _ => []
  | .mirror addr value _ => [(addr, 2 ^ 64), (value, 2 ^ 256)]
  | .digestWaitExpire _ => []
  | .bandDigestLate band kind frame => [(band, 256), (kind, 2), (frame, 2 ^ 32)]
  | .takeover => []
  | .assume => []
  | .harnessClrCounts => []
  | .faultDetect site a b _ => [(site, 12), (a, 2 ^ 64), (b, 2 ^ 64)]
  | .autoReloadExpire => []
  | .faultLogRead => []
  | .faultClrCounts => []
  | .seal => []
  | .sealHashDone slot => [(slot, 16)]
  | .unseal => []
  | .regionHashDone job index _ => [(job, 4096), (index, 2 ^ 16)]
  | .attGo => []
  | .attReportWritten _ => []
  | .secClrCounts => []
  | .recordVerifyDone _ => []
  | .textureUnitIdle unit => [(unit, 32)]
  | .stallWakeComplete stall => [(stall, 64)]
  | .arithPllRelock => []
  | .dieStillEntryDone => []
  | .dieStillExitDone => []
  | .hpdRise pipe => [(pipe, 2)]
  | .tapExitTestLogicReset _ => []
  | .peerWindowRequest _ tag addr len _ => [(tag, 1024), (addr, 2 ^ 64), (len, 257)]
  | .peerWindowCompletion tag _ _ => [(tag, 1024)]
  | .harnessCreditReturn ph pd nph => [(ph, 2 ^ 10), (pd, 2 ^ 20), (nph, 2 ^ 10)]

/-- A command is well formed: each number is below its bound. -/
def Instr.wf (i : Instr) : Bool := i.bounds.all fun p => decide (p.1 < p.2)

end Sys2Proof
end

