-- ==== Sys2Proof/Tests/Slice0.lean ====
section
/-! SUPPORT. The model's own tests: what the checks refuse, small functional cases whose results are worked out from the spec's text, and for each
statement with hypotheses a concrete state and operands that meet them. -/

namespace Sys2Proof.Tests

open Sys2Proof.Machine

set_option Elab.async false

/-! ### Well-formedness: one ill-formed command per kind of check -/

theorem test_wf_refuses_register_number : (Instr.add 0 32 1 2).wf = false := by decide
theorem test_wf_refuses_core_number : (Instr.add 4096 1 1 2).wf = false := by decide
theorem test_wf_refuses_module_number : (Instr.registerWrite 2 0 ⟨0, 0⟩ 4).wf = false := by decide
theorem test_wf_refuses_offset : (Instr.registerWrite 0 (2 ^ 26) ⟨0, 0⟩ 4).wf = false := by decide
theorem test_wf_refuses_word : (Instr.registerWrite 0 0 ⟨2 ^ 32, 0⟩ 4).wf = false := by decide
theorem test_wf_refuses_tag : (Instr.reg64LowRead 0 1024 0 4).wf = false := by decide
theorem test_wf_refuses_queue : (Instr.doorbell (2 ^ 18) 0).wf = false := by decide
theorem test_wf_refuses_job : (Instr.jobCancelEnd 4096).wf = false := by decide
theorem test_wf_refuses_slot : (Instr.sealHashDone 16).wf = false := by decide
theorem test_wf_refuses_pipe : (Instr.hpdRise 2).wf = false := by decide
theorem test_wf_refuses_stall : (Instr.stallWakeComplete 64).wf = false := by decide
theorem test_wf_accepts_largest : (Instr.add 4095 31 31 31).wf = true := by decide

theorem test_decode_no_row_has_bits : decodeTableWord 32 0 = none := rfl

/-! ### Awl words, written out by the formats of R77 and the opcodes of R78 -/

theorem test_decode_add : decodeAwl 7 0b00000001000010001000011000000000 0 = .add 7 1 2 3 := by decide
theorem test_decode_clz_ignores_b : decodeAwl 7 0b00010000000010001011111000000000 0 = .clz 7 1 2 := by decide
theorem test_decode_t_low_bits : decodeAwl 7 0b00000001000010001000011000000001 0 = .illegalInstruction 7 := by decide
theorem test_decode_addi_minus_one : decodeAwl 7 0b00011000001000010111111111111111 0 = .addi 7 4 5 0x3FFF := by decide
theorem test_decode_lui : decodeAwl 7 0b00100000001101000000000000000001 0 = .lui 7 6 0x40001 := by decide
theorem test_decode_beq : decodeAwl 7 0b00110000000010001010000000000000 0 = .beq 7 1 2 0x2000 := by decide
theorem test_decode_jmp : decodeAwl 7 0b00110110100000000000000000000001 0 = .jmp 7 0x800001 := by decide
theorem test_decode_stp : decodeAwl 7 0b00101111010000100100000000010000 0 = .stp 7 8 9 16 := by decide
theorem test_decode_emma : decodeAwl 7 0b01000000000000001100000000000000 0 = .emma 7 3 := by decide
theorem test_decode_econv_max : decodeAwl 7 0b01000001000000001100000000000000 2 = .econvMax 7 3 := by decide
theorem test_decode_edrain : decodeAwl 7 0b01000100000000001100000000000101 0 = .edrain 7 3 0b0101 := by decide
theorem test_decode_ewait_engine_4 : decodeAwl 7 0b01000101000000000000000000010000 0 = .illegalInstruction 7 := by decide
theorem test_decode_vadd : decodeAwl 7 0b01001000000010001000011000000000 0 = .vadd 7 1 2 3 := by decide
theorem test_decode_vop_unlisted : decodeAwl 7 0b01001000000010001000011000010010 0 = .illegalInstruction 7 := by decide
theorem test_decode_sint : decodeAwl 7 0b01010000000010001000000000000000 0 = .sint 7 1 2 := by decide
theorem test_decode_gath : decodeAwl 7 0b01011000000000001000000000000000 0 = .gath 7 2 := by decide
theorem test_decode_dma_zc_load : decodeAwl 7 0b01100000000010001000000000000000 3 = .dmaZcLoad 7 1 2 := by decide
theorem test_decode_tile : decodeAwl 7 0b01101000000000000000000000000000 0 = .tile 7 := by decide
theorem test_decode_csrw : decodeAwl 7 0b01101111000000001000000000000011 0 = .csrw 7 2 3 := by decide
theorem test_decode_exit : decodeAwl 7 0b01110000000000010000000000000000 0 = .exit 7 4 := by decide
theorem test_decode_opcode_0 : decodeAwl 7 0b00000000000000000000000000000000 0 = .illegalInstruction 7 := by decide

/-! ### States for the tests -/

/-- The reset state with another block state. -/
def sysState (y : Sys) : State := { State.reset with sys := y }

/-- The reset state with another bring-up state. -/
def bootState (b : Boot) : State := { State.reset with boot := b }

/-- Module 0 of the host link is UP. -/
def up : Link := { m0 := { st := 3 } }

/-! ### Statements 00_scope: the step, resets, the TAP -/

theorem witness_StepRunsFront : State.reset.pending = [] ∧ State.reset.boot.power = false := ⟨rfl, rfl⟩

theorem witness_BootOrderKept : ∃ t, ({ State.reset with pending := [.clrRejects false] } : State).BootOrder ∧
    step { State.reset with pending := [.clrRejects false] } = .next t := by
  refine ⟨_, ⟨?_, ?_, ?_, ?_, ?_, ?_, ?_⟩, rfl⟩ <;> decide

theorem witness_HaltedLeavesByReset :
    (∃ t, exec .globalResetWarm (bootState { power := true, phase := .halted, recordOk := true }) = .next t ∧ t.boot.phase ≠ .halted) ∧
    (∃ t, exec (.resetPinLow true) (bootState { power := true, phase := .halted }) = .next t ∧ t.boot.phase ≠ .halted) :=
  ⟨⟨_, rfl, by decide⟩, _, rfl, by decide⟩

theorem witness_HaltedRegisterWriteLeavesByWarm :
    ((bootState { power := true, phase := .halted, recordOk := true }).hostWriteReg 0 0x34 1 4).boot.phase ≠ .halted := by decide

theorem witness_TapChangesByTapOnly : ∃ t, exec .tapReset { State.reset with tap := { reset := false } } = .next t ∧
    t.tap ≠ ({ reset := false } : Tap) := ⟨_, rfl, by decide⟩

/-! ### Statements 01_organisation: registers -/

theorem witness_OddWidthWriteRejected : ((sysState { link := up }).sys.module 0).st = 3 ∧ (sysState { link := up }).sys.inStill = false ∧
    (1 % 4 ≠ 0 ∨ 4 ≠ 4) ∧ (0 % 4 ≠ 0 ∨ 2 ≠ 4) ∧ (2 ^ 26 - 4) % 4 = 0 := by decide

/-- The wide register GLOBAL_LOAD_ADDR holding a value with both halves. -/
def wide : Sys := { glob := { loadAddr := 0x100000040 } }

theorem witness_WideRegisterProtocol : (∃ v t : Nat, wide.wideReg 0x24 = some v ∧ t = 0x28 ∧ wide.wideReg t = none) ∧ forwarded 0x28 = false ∧
    forwarded 0x24 = false ∧ tfind ({ hiHeld := [(0x24, 5)] } : Glob).hiHeld 0x24 = some 5 ∧ tfind wide.glob.hiHeld 0x24 = none :=
  ⟨⟨_, _, rfl, rfl, rfl⟩, rfl, rfl, rfl, rfl⟩

theorem witness_UnlistedOffsets : (0x420000 ≤ 0x4FFFFC ∧ 0x4FFFFC < 0x500000) ∧ (0xC00000 ≤ 0xFFFFFC ∧ 0xFFFFFC < 0x1000000) ∧
    (0x1400000 ≤ 0x1400000 ∧ 0x1400000 < 0x2000000) ∧ (0x2200000 ≤ 0x3FFFFFC ∧ 0x3FFFFFC < 2 ^ 26 ∧ 0x3FFFFFC % 4 = 0) := by decide

theorem witness_RegisterFieldTypes : ((sysState { link := up }).sys.module 0).st = 3 ∧ (sysState { link := up }).sys.inStill = false := by decide

/-- A die of a TANDEM pair that has formed. -/
def tandem (role : Nat) : Sys := { glob := { config := 2 }, duo := { role := role, st := 3 } }

theorem witness_ForwardedWrites : State.reset.sys.glob.config = 0 ∧
    ((tandem 2).glob.config = 2 ∧ (tandem 2).duo.role = 2 ∧ (tandem 2).duo.alone = false ∧ (tandem 2).duo.st = 3) ∧
    ((tandem 1).glob.config = 2 ∧ (tandem 1).duo.role = 1 ∧ (tandem 1).duo.st = 3 ∧ (tandem 1).duo.alone = false) ∧ forwarded 0x100400 = true := by decide

/-! ### Statements 02_pattern_and_bringup -/

/-- Words as bytes. -/
def bytesOf (ws : List Nat) : List Byte := ws.flatMap (leBytes 4)

/-- Words filled up with zeros to n. -/
def fill (n : Nat) (ws : List Nat) : List Nat := (ws ++ List.replicate n 0).take n

/-- A smallest Pattern, section by section from R29 to R36, R59, R244, R446 and R451: one domain of one stall, one channel and one way, context 0
(REALTIME) with queue 0, a Beam on the ghost, no display. -/
def patternMessage : List Byte := bytesOf (
  fill 48 [0x4E525450, 1, 17312, 11, 0, 0, 0, 0, 0, 192, 192, 12, 256, 36, 320, 268, 640, 16, 704, 32, 768, 128, 896, 40, 960, 12, 1024, 12, 1088, 16224] ++
  fill 16 [2, 0, 0] ++ fill 16 [1, 8, 0, 0, 0x10001, 1, 0, 0, 0] ++ fill 80 (fill 64 [0x101] ++ [1, 0, 1]) ++ fill 16 [1000, 0, 1, 1] ++
  fill 16 [135174, 256, 65538, 0] ++ fill 32 [] ++ fill 16 (fill 8 [] ++ [1000, 1000]) ++ fill 16 [0x102, 3200, startRequired] ++ fill 16 [0, 0, 0])

/-- A signature of zeros. -/
def zeroSig : List Byte := List.replicate sigBytes 0

theorem zeroSig_length : zeroSig.length = sigBytes := List.length_replicate

/-- The Pattern with that signature. -/
def patternImage : List Byte := patternMessage ++ zeroSig

theorem test_pattern_passes : patternCode patternMessage 0 0 1 false = 0 := by decide +kernel

/-- With DUO_MODE strapped against the Pattern's SOLO, 0x25 (R36, R440). -/
theorem test_pattern_duo_strap : patternCode patternMessage 0 0 1 true = 0x25 := by decide +kernel

/-- On a die without an enabled stall, 0x22 (R32, R37). -/
theorem test_pattern_no_stall : patternCode patternMessage 0 0 0 false = 0x22 := by decide +kernel

/-- The signature's length and place, as LENGTH locates them (R31, R454). -/
theorem test_pattern_parts : patParts patternImage = some (patternMessage, zeroSig) := by
  have h0 : wordAt patternImage 0 = 0x4E525450 := by decide +kernel
  have h2 : wordAt patternImage 2 = 17312 := by decide +kernel
  have lm : patternMessage.length = 1088 := by decide +kernel
  have li : patternImage.length = 17312 := by unfold patternImage; rw [List.length_append, lm, zeroSig_length]; rfl
  have e : (17312 - sigBytes : Nat) = patternMessage.length := by rw [lm]; rfl
  unfold patParts
  simp only [h0, h2, li, e]
  rw [if_pos (by rw [lm]; decide)]
  unfold patternImage
  rw [List.take_left' rfl, List.drop_left' rfl, List.take_of_length_le (by rw [zeroSig_length])]

theorem witness_pattern_accepted (h : ∀ n k m s, Config.slhVerify n k m s = true) : patternError [] 0 0 1 false patternImage = 0 := by
  unfold patternError
  rw [test_pattern_parts]
  simp only [signed, h, Bool.not_true, Bool.false_eq_true, if_false]
  exact test_pattern_passes

/-- A firmware image: 64 bytes of header (R425) and a signature of zeros. -/
def firmwareImage : List Byte := bytesOf (fill 16 [0x4D524642, 1, 16288, 7]) ++ zeroSig

/-- A die record (R40, R455): stall 0 enabled with a slot map that names 64 different slots. -/
def recordMessage : List Byte := bytesOf (fill 977 (fill 14 [0x44435244, 1, 20132, 0] ++ [1, 0] ++ [0] ++
  (List.range 14).map (fun i => ((List.range 64).map fun c => c * 2 ^ (7 * c)).sum / 2 ^ (32 * i) % 2 ^ 32)))

def recordImage : List Byte := recordMessage ++ zeroSig

theorem test_record_layout : recordLayout recordMessage = true ∧ recordStalls (wordsOf recordMessage) = 1 := by decide +kernel

theorem test_record_parts : recordParts recordImage = some (recordMessage, zeroSig) := by
  have h0 : wordAt recordImage 0 = 0x44435244 := by decide +kernel
  have h2 : wordAt recordImage 2 = 20132 := by decide +kernel
  have lm : recordMessage.length = 3908 := by decide +kernel
  have li : recordImage.length = 20132 := by unfold recordImage; rw [List.length_append, lm, zeroSig_length]; rfl
  have e : (20132 - sigBytes : Nat) = recordMessage.length := by rw [lm]; rfl
  unfold recordParts
  simp only [h0, h2, li, e]
  rw [if_pos (by decide)]
  unfold recordImage
  rw [List.take_left' rfl, List.drop_left' rfl, List.take_of_length_le (by rw [zeroSig_length])]

theorem witness_record_accepted (h : ∀ n k m s, Config.slhVerify n k m s = true) : recordError true [] recordImage (List.replicate 32 0) = 0 := by
  unfold recordError
  rw [test_record_parts]
  simp only [signed, h, Bool.not_true, Bool.or_false, Bool.false_eq_true, if_false]
  rw [test_record_layout.1, show (recordMessage.drop 24).take 32 = List.replicate 32 0 by decide +kernel]
  decide

theorem witness_firmware_accepted (h : ∀ n k m s, Config.slhVerify n k m s = true) : firmwareCheck [] 0 0 firmwareImage = .ok 7 := by
  have h0 : wordAt firmwareImage 0 = 0x4D524642 := by decide +kernel
  have h2 : wordAt firmwareImage 2 = 16288 := by decide +kernel
  have h3 : wordAt firmwareImage 3 = 7 := by decide +kernel
  have li : firmwareImage.length = 16288 := by
    have : (bytesOf (fill 16 [0x4D524642, 1, 16288, 7])).length = 64 := by decide +kernel
    unfold firmwareImage; rw [List.length_append, this, zeroSig_length]; rfl
  have r : ¬(wordAt firmwareImage 1 ≠ 1 ∨ allWithin ([0xFFFFFF] ++ List.replicate 11 0) ((List.range 12).map fun i => wordAt firmwareImage (4 + i)) = false ∨
      (fld (wordAt firmwareImage 4) 0 16 ≠ 0 ∧ fld (wordAt firmwareImage 4) 0 16 ≠ 0) ∨ 0 < fld (wordAt firmwareImage 4) 16 8) := by decide +kernel
  unfold firmwareCheck
  simp only [h0, h2, li, signed, h, Bool.not_true, Bool.false_eq_true, if_false]
  rw [if_neg (by decide), if_neg r, h3]

/-- A key block whose key the mask ROM accepts (R423). -/
theorem witness_key_block (h : Config.rootKeyHash = Shake.shake256 32 (List.replicate 48 0)) :
    rootKeyOf (bytesOf [0x59454B52] ++ List.replicate 60 0) = some (List.replicate 48 0) := by
  have k : ((bytesOf [0x59454B52] ++ List.replicate 60 (0 : Byte)).drop 4).take 48 = List.replicate 48 0 := by decide
  unfold rootKeyOf
  rw [k, if_pos ⟨by decide, by decide, List.length_replicate, h.symm⟩]

/-- An amendment (KIND 1) that brings new QUEUES and nothing else (R31, R47, R456). -/
def amendMessage : List Byte := bytesOf (
  fill 48 [0x4E525450, 1, 16736, 0x10B, 0, 0, 0, 0, 0, 192, 0, 0, 0, 0, 192, 268, 0, 0, 0, 0, 0, 0, 0, 0, 0, 0, 0, 0, 512, 16224] ++
  fill 80 (fill 64 [0x101] ++ [1, 0, 1]))

def amendImage : List Byte := amendMessage ++ zeroSig

theorem test_amendment_parts : patParts amendImage = some (amendMessage, zeroSig) := by
  have h0 : wordAt amendImage 0 = 0x4E525450 := by decide +kernel
  have h2 : wordAt amendImage 2 = 16736 := by decide +kernel
  have lm : amendMessage.length = 512 := by decide +kernel
  have li : amendImage.length = 16736 := by unfold amendImage; rw [List.length_append, lm, zeroSig_length]; rfl
  have e : (16736 - sigBytes : Nat) = amendMessage.length := by rw [lm]; rfl
  unfold patParts
  simp only [h0, h2, li, e]
  rw [if_pos (by rw [lm]; decide)]
  unfold amendImage
  rw [List.take_left' rfl, List.drop_left' rfl, List.take_of_length_le (by rw [zeroSig_length])]

/-- What that amendment is checked against. -/
def amendLoaded : Loaded :=
  { digest := List.replicate 32 0, doms := [{ stalls := 1, contexts := 1 }], queues := [], permits := [1000, 0, 1, 1], beam := [], display := [], team := false }

theorem witness_amendment_accepted (h : ∀ n k m s, Config.slhVerify n k m s = true) : amendError [] amendLoaded amendImage = 0 ∧
    secLen amendMessage 4 = 0 := by
  refine ⟨?_, by decide +kernel⟩
  unfold amendError
  rw [test_amendment_parts]
  simp only [signed, h, Bool.not_true, Bool.false_eq_true, if_false]
  decide +kernel

theorem witness_BringUpSteps : State.reset.boot.power = false ∧
    (∀ b, b = (bootState { phase := .record }).boot → b.phase = .record ∧ b.recordRead = false ∧ b.pufDone = false) ∧
    (∀ b, b = (bootState { phase := .record, recordRead := true, pufDone := true }).boot → b.phase = .record ∧ b.recordRead = true ∧ b.pufDone = true ∧
      recordError (rootKeyOf []).isSome b.rootKey b.record b.idDigest ≠ 0) ∧
    (bootState { phase := .link }).boot.phase = .link ∧ (sysState { link := { m0 := { st := 2 } } }).sys.link.m0.st = 2 ∧
    (32 ≤ 32 ∧ 32 ≤ 32 ∧ 512 ≤ 512) ∧ ¬ (32 ≤ 31 ∧ 32 ≤ 32 ∧ 512 ≤ 512) ∧ (List.replicate 32 (0 : Byte)).length = 32 := by
  refine ⟨rfl, ?_, ?_, by decide, by decide, by decide, by decide, by decide⟩
  · rintro b rfl; decide
  · rintro b rfl; decide

theorem witness_BringUpLoads : (bootState { phase := .waitFirmware }).boot.phase = .waitFirmware ∧
    (bootState { phase := .waitPattern }).boot.phase = .waitPattern ∧ State.reset.boot.phase ≠ .waitFirmware ∧ State.reset.boot.phase ≠ .waitPattern ∧
    (bootState { phase := .firmware }).boot.phase = .firmware ∧ (bootState { phase := .pattern }).boot.phase = .pattern ∧
    (∃ e, firmwareCheck [] 0 0 [] = .error e) ∧ patternError [] 0 0 0 false [] ≠ 0 := by
  refine ⟨rfl, rfl, by decide, by decide, rfl, rfl, ⟨0x11, by decide⟩, by decide⟩

def applySys : Sys := { glob := { stallEn := 1 }, bridle := { doms := [{ stalls := 1 }] }, mem := { domChans := [1] } }

/-- A die in APPLY with one domain of stall 0 and channel 0. -/
def applying (b : Boot) : State :=
  { State.reset with boot := { b with phase := .apply }, sys := applySys }

theorem witness_ApplySteps : ((applying {}).boot.phase = .apply ∧ (applying {}).boot.pllDone = false) ∧
    ((applying { pllDone := true, memDone := true }).boot.memDone = true) ∧
    (∀ s, s = applying { pllDone := true } → s.boot.phase = .apply ∧ s.boot.pllDone = true ∧ s.boot.stallsDone = false ∧ s.boot.memDone = false ∧
      s.sys.enabled 0 = true ∧ s.sys.domOfStall 0 ≠ none ∧ s.sys.enabled 1 = false ∧
      bitAt (s.sys.mem.domChans.foldl Nat.lor 0) 0 = true ∧ (∀ c, c < 16 → bitAt (s.sys.mem.domChans.foldl Nat.lor 0) c = true →
        bitAt 0 c = false ∧ [0].getD c 3 = 0) ∧ bitAt 1 0 = true ∧ 2 < [3].getD 0 3) := by
  refine ⟨by decide, by decide, ?_⟩
  rintro s rfl; decide

theorem witness_Amendments : (bootState { phase := .ready }).boot.phase = .ready ∧ (bootState { phase := .ready }).sys.glob.amendState ≠ 1 ∧
    State.reset.boot.phase ≠ .ready ∧ (sysState { glob := { amendState := 1 } }).sys.glob.amendState = 1 ∧ patParts [] = none ∧
    State.reset.boot.amendIdle = true ∧ (bootState { amendIdle := false }).boot.amendIdle = false := by decide

theorem witness_ResetKinds : (bootState { power := true, linked := true }).boot.linked = true ∧ (bootState { power := true }).boot.linked = false ∧
    (bootState { phase := .waitPattern }).boot.phase = .waitPattern ∧
    ((sysState { flt := { dieCalm := true, autoReload := true } }).sys.flt.dieCalm = true ∧
      (sysState { flt := { dieCalm := true, autoReload := true } }).sys.flt.autoReload = true) ∧
    ¬ (State.reset.boot.phase = .waitPattern ∨ State.reset.boot.phase = .pattern ∨ State.reset.boot.phase = .apply ∨
      State.reset.boot.phase = .ready) := by decide

theorem witness_TapRows : (bootState { power := true }).boot.power = true ∧ ({ reset := false } : Tap).reset = false ∧
    (List.replicate 29 true).length = 29 := by decide

/-! ### Statements 03_beam_time, 10_frame_generation -/

/-- A Beam on pipe 0, which runs. -/
def beamOnPipe (b : Beam) : Sys := { beam := { b with on := true, source := 0 }, pipe0 := { st := .active } }

/-- A HOLD entry of line 0 on gate 3 with HOLD_MAX 2 (R60). -/
def holdEntry : BEntry := { line := 0, tick := 0, kind := 2, phases := 1, w1 := 3 + 2 * 16 }

/-- A FIRE entry of queue 1, argument 2, context 0. -/
def fireEntry : BEntry := { line := 4, tick := 2, kind := 1, phases := 1, w1 := 1 + 2 * 2 ^ 18 }

theorem witness_BeamTicks : ((beamOnPipe {}).beam.on = true ∧ (beamOnPipe {}).beam.source < 2 ∧ ((beamOnPipe {}).pipe 0).runs = true ∧
      (beamOnPipe {}).beamFollows = false) ∧
    (∀ b, b = ({ on := true, source := 2, acc := 100, ghostTick := 300 } : Beam) → b.acc < b.ghostTick ∧ 256 * 0 + b.acc < b.ghostTick ∧
      b.ghostTick ≤ 256 * (0 + 1) + b.acc) ∧
    ((beamOnPipe {}).glob.config = 0 ∧ (beamOnPipe { tick := 14 }).beam.tick < 15 ∧ (beamOnPipe { tick := 15 }).beam.tick = 15 ∧
      (beamOnPipe { tick := 15 }).holdHere = none) ∧
    (({ line := 7, ghostVtotal := 7 } : Beam).source = 2 ∧ ({ line := 7, ghostVtotal := 7 } : Beam).ghostVtotal ≤ 7) := by
  refine ⟨by decide, ?_, by decide, by decide⟩
  rintro b rfl; decide

/-- A Beam at the end of the HOLD entry's line. -/
def holding (b : Beam) : Sys := { beam := { b with on := true, source := 0, tick := 15, table := [holdEntry] }, pipe0 := { st := .active } }

theorem witness_BeamHoldsAndTable : (holding {}).holdHere = some holdEntry ∧ (holding {}).glob.config = 0 ∧
    ((holding { master := 0 }).beam.master < 2 ∧ ((holding { master := 0 }).pipe 0).vrr = false) ∧ ¬ (holding {}).beam.master < 2 ∧
    bitAt (holding { gates := 8 }).beam.gates (fld holdEntry.w1 0 4) = true ∧ bitAt (holding {}).beam.gates (fld holdEntry.w1 0 4) = false ∧
    fld holdEntry.w1 4 13 ≤ (holding { held := 2 }).beam.held ∧ (holding { held := 1 }).beam.held < fld holdEntry.w1 4 13 ∧
    (∀ b, b = ({ table := [fireEntry], line := 4, tick := 1 } : Beam) → b.table[b.next]? = some fireEntry ∧ fireEntry.line = b.line ∧ b.tick < fireEntry.tick) ∧
    (∀ b, b = ({ table := [fireEntry], line := 4, tick := 2, phase := 1 } : Beam) → fireEntry.tick ≤ b.tick ∧ bitAt fireEntry.phases b.phase = false) ∧
    (∀ b, b = ({ table := [fireEntry], line := 4, tick := 2 } : Beam) → fireEntry.line = b.line ∧ fireEntry.tick = b.tick ∧ bitAt fireEntry.phases b.phase = true ∧
      fireEntry.kind = 1 ∧ bitAt b.heldBack (fld fireEntry.w1 26 6) = false) ∧
    (∀ b, b = ({ table := [fireEntry], line := 4, tick := 3, heldBack := 1 } : Beam) → fireEntry.tick < b.tick ∧ bitAt b.heldBack (fld fireEntry.w1 26 6) = true) ∧
    (∀ k, k = 0 ∨ k = 3 → ∃ e : BEntry, e.kind = k ∧ e.line = 0 ∧ e.tick = 0 ∧ bitAt e.phases 0 = true) ∧
    (∀ y, y = ({ bridle := { queues := [(1, { isOpen := true })], tgs := [(5, { queue := 1, st := .beamWait })] } } : Sys) →
      y.fg.en = false ∧ (y.queue 1).isOpen = true ∧ (y.queue 1).ctx = 0 ∧ y.beamWaiter 1 = some 5 ∧ (y.queue 2).isOpen = false) := by
  refine ⟨by decide, by decide, by decide, by decide, by decide, by decide, by decide, by decide, ?_, ?_, ?_, ?_, ?_, ?_⟩
  · rintro b rfl; decide
  · rintro b rfl; decide
  · rintro b rfl; decide
  · rintro b rfl; decide
  · rintro k (rfl | rfl)
    · exact ⟨⟨0, 0, 0, 1, 0⟩, by decide⟩
    · exact ⟨⟨0, 0, 3, 1, 0⟩, by decide⟩
  · rintro y rfl; decide

/-- A TANDEM worker rejects the Beam's commands (R391). -/
theorem witness_BeamCommands : State.reset.sys.glob.config ≠ 2 ∧ (tandem 1).glob.config = 2 ∧ (tandem 1).duo.role = 1 ∧ (tandem 1).duo.alone = false := by decide

/-- A die whose compositor's context 0 owns queues 0 and 1, with device memory mapped at the context's address 0. -/
def boardSys : Sys :=
  { bridle := { ctxs := [(0, { valid := true, compositor := true, realtime := true })], doms := [{ stalls := 1, contexts := 1 }],
                queues := [(1, { isOpen := true }), (0, { isOpen := true })] },
    mem := { domChans := [1], tlb := [{ ctx := 0, va := 0, lg := 21, pa := 0, write := true, host := false, noalloc := false }] },
    fg := { genQ := 0, warpQ := 1 } }

theorem witness_FrameGeneration : State.reset.sys.glob.config ≠ 2 ∧ State.reset.sys.fgIdle = true ∧ State.reset.sys.fgConfigOk = false ∧
    boardSys.fgIdle = true ∧ boardSys.fgConfigOk = true ∧ (boardSys.fgRegionsOk 0).2 = true ∧
    (∀ h : HeldFire, h = ⟨0, 2, 0⟩ → (boardSys.band h.band).gen ≠ .cancelling ∧ (boardSys.band h.band).frame = h.frame) ∧
    (boardSys.band 2).frame ≠ (⟨0, 2, 1⟩ : HeldFire).frame ∧
    (∃ y : Sys, y.beamWaiter y.fg.genQ = some 5) ∧ (∃ y : Sys, (y.band 1).warp = .done ∧ (y.band 1).reproj = false) ∧
    (∃ y : Sys, (y.band 1).warp = .done ∧ (y.band 1).reproj = true) ∧ (State.reset.sys.band 1).warp = .idle ∧ (State.reset.sys.band 1).gen = .idle := by
  refine ⟨by decide, by decide, by decide, by decide, by decide, by decide, ?_, by decide, ⟨{ bridle := { tgs := [(5, { st := .beamWait })] } }, by decide⟩,
    ⟨{ fg := { bands := [(1, { warp := .done })] } }, by decide⟩, ⟨{ fg := { bands := [(1, { warp := .done, reproj := true })] } }, by decide⟩, by decide, by decide⟩
  rintro h rfl; decide

/-! ### Statements 13_commands_jobs_and_conservation: queues, packets, jobs -/

/-- An answer that is no fault. -/
def good {α : Type} : Except Nat α → Bool
  | .ok _ => true
  | .error _ => false

/-- A READY die: stall 0 in domain 0, context 0 valid, its first 2 MiB mapped to host memory, one task slot. -/
def readySys (k : Queue) : Sys :=
  { glob := { ready := true, stallEn := 1, domainsRun := 2 ^ 17 - 1 }, cons := { pools := [(poolKey 3 0, { total := 1, free := 1 })] },
    bridle := { ctxs := [(0, { valid := true })], doms := [{ stalls := 1, contexts := 1 }], queues := [(0, k)] },
    mem := { domChans := [1], tlb := [{ ctx := 0, va := 0, lg := 21, pa := 0, write := true, host := true, noalloc := false }] } }

theorem witness_DoorbellsAndFetch : State.reset.sys.glob.config ≠ 2 ∧ State.reset.sys.stillWake.glob.ready = false ∧
    (∀ y, y = (readySys { isOpen := true, read := 65535 }).stillWake → y.glob.ready = true ∧ (y.queue 0).isOpen = true ∧ (y.queue 1).isOpen = false ∧
      y.enabled 0 = true ∧ y.domOfStall 0 ≠ none ∧ y.enabled 1 = false ∧
      2 ^ (y.queue 0).ringLog2 < (16 + 2 ^ 16 - (y.queue 0).read) % 2 ^ 16 ∧ (15 + 2 ^ 16 - (y.queue 0).read) % 2 ^ 16 ≤ 2 ^ (y.queue 0).ringLog2 ∧
      0 = (y.queue 0).write ∧ 15 ≠ (y.queue 0).write) ∧
    (∀ y, y = readySys { isOpen := true, write := 1 } → (y.queue 0).read ≠ (y.queue 0).write ∧ (y.queue 0).slots.length < 2 ∧
      (y.queue 0).blocked = false ∧ 0 < (y.pool 3 0).free ∧ (y.ctx 0).calm = false ∧ y.flt.dieCalm = false ∧ bitAt y.glob.heldDomains 0 = false ∧
      good (y.vread none 0 ((y.queue 0).ringBase + 64 * ((y.queue 0).read % 2 ^ (y.queue 0).ringLog2)) 64).2 = true) ∧
    (∀ y, y = readySys { isOpen := true, write := 1, ringBase := 2 ^ 21 } →
      good (y.vread none 0 ((y.queue 0).ringBase + 64 * ((y.queue 0).read % 2 ^ (y.queue 0).ringLog2)) 64).2 = false) := by
  refine ⟨by decide, by decide, ?_, ?_, ?_⟩
  · rintro y rfl; decide
  · rintro y rfl; decide +kernel
  · rintro y rfl; decide +kernel

/-- A queue whose head is a packet of these words, on job 0. -/
def headSys (ws : List Nat) (b : Job) : Sys := { readySys { isOpen := true, slots := [{ words := ws }] } with work := { jobs := [(0, b)] } }

theorem witness_PacketAdmission :
    (∀ y, y = headSys [] {} → (y.queue 0).slots = [{ words := [] }] ∧ ({ words := [] } : Pkt).started = false ∧ (y.ctx 0).calm = false ∧
      y.flt.dieCalm = false ∧ y.duo.hold = false ∧ bitAt y.glob.heldDomains (y.ctx 0).domain = false ∧ (y.job 0).st = 0) ∧
    (∀ n, n = 7 ∨ n = 3 ∨ n = 1 → ((headSys [] { st := n }).job 0).st = n ∧ ((headSys [] { st := n }).job 0).ctx = 0) ∧
    (({ headSys [] { st := 2 } with sec := { brands := [(0, { st := 2 })] } } : Sys).brandOf 0).st = 2 ∧
    ((headSys [] { st := 1 }).brandOf 0).st = 0 ∧ ((headSys [] { st := 1 }).job 0).manifest = 0 ∧
    ({ readySys {} with flt := { dieCalm := true } } : Sys).flt.dieCalm = true ∧
    (({ words := [] } : Pkt).type = 0 ∧ ({ words := [] } : Pkt).irq = false ∧ ({ words := [] } : Pkt).last = false ∧
      ((headSys [] { st := 2 }).job 0).alive = true ∧ publishes 0x21 = true ∧ ((headSys [] { st := 2 }).job 0).lastDone = false) := by
  refine ⟨?_, ?_, by decide, by decide, by decide, by decide, by decide⟩
  · rintro y rfl; decide
  · rintro n (rfl | rfl | rfl) <;> decide

theorem witness_StatusJoining : (∀ c ∈ [0x21, 0x02, 0x01, 0x60, 0x10], c ∈ statusCodes) ∧
    [0x21, 0x02, 0x01, 0x60, 0x10].filter (fun c => c == 0x10 || decide (0x30 ≤ c)) ≠ [] ∧
    [0x21, 0x02, 0x01].filter (fun c => c == 0x10 || decide (0x30 ≤ c)) = [] ∧ 0x01 ∈ [0x21, 0x02, 0x01] ∧ 0x01 ∉ [0x21, 0x02] ∧ 0x02 ∈ [0x21, 0x02] ∧
    0x02 ∉ [0x21, 0x20] := by decide

/-- 0x60 outranks 0x10 and the lower groups; 0x21 is the highest of the last group (R12). -/
theorem test_status_join : statusOf [0x21, 0x02, 0x01, 0x60, 0x10] = 0x60 ∧ statusOf [0x11, 0x21, 0x20] = 0x21 := by decide

/-- A head packet that may run: its job is RUNNING with its Brand started. -/
def runHead (ws : List Nat) : Sys := { headSys ws { st := 2 } with sec := { brands := [(0, { st := 2 })] } }

/-- The head packet of queue 0 may run. -/
def mayRun (y : Sys) : Bool := (y.takeIn 0).2 == (y.queue 0).slots.head? && (y.takeIn 0).2.isSome

theorem witness_HeadPackets : (mayRun (runHead [0]) = true ∧ ({ words := [0] } : Pkt).type = 0) ∧ (mayRun (runHead [7]) = true ∧ 7 ≤ ({ words := [7] } : Pkt).type) ∧
    (mayRun (runHead [6, 0, 4, 0, 9]) = true ∧ ({ words := [6, 0, 4, 0, 9] } : Pkt).type = 6 ∧ ({ words := [6, 0, 4, 0, 9] } : Pkt).reservedOk [2, 3, 4] = true ∧
      good ((runHead [6, 0, 4, 0, 9]).vwrite none 0 4 (leBytes 4 9) none).2 = true) ∧
    good ((runHead [6, 0, 2 ^ 21, 0, 9]).vwrite none 0 (2 ^ 21) (leBytes 4 9) none).2 = false ∧ ({ words := [6, 1] } : Pkt).reservedOk [2, 3, 4] = false ∧
    (mayRun (runHead [4, 3, 8]) = true ∧ ({ words := [4, 3, 8] } : Pkt).type = 4 ∧ ({ words := [4, 3, 8] } : Pkt).reservedOk [1, 2, 3] = true ∧
      fld (({ words := [4, 3, 8] } : Pkt).word 1) 2 30 = 0) ∧ fld (({ words := [4, 4, 8] } : Pkt).word 1) 2 30 ≠ 0 ∧
    (∀ y, y = runHead [4, 3, 8] → y.slotInUse 3 = false ∧ good (y.vread none 0 8 8).2 = true ∧ good (y.vread none 0 (2 ^ 21) 8).2 = false) ∧
    (∀ y, y = ({ runHead [4, 3, 8] with fg := { latches := [{ frame := 0, src := 3, prev := none, age := 0 }] } } : Sys) → y.slotInUse 3 = true) := by
  refine ⟨by decide, by decide, by decide +kernel, by decide +kernel, by decide, by decide, by decide, ?_, ?_⟩
  · rintro y rfl; decide +kernel
  · rintro y rfl; decide

/-- TASK words (R298): kernel in word 1, one sliver, code at 0x4_0000. -/
def taskWords (w0 kernel : Nat) : List Nat := [1 + w0, kernel, 1, 0x40000]

theorem witness_TaskRows : (∀ k, k = 0 ∨ k = 1 ∨ k = 2 ∨ k = 3 ∨ k = 5 → mayRun (runHead (taskWords 0 k)) = true ∧
      (runHead (taskWords 0 k)).headKernel 0 = some (k, 0) ∧ ({ words := taskWords 0 k } : Pkt).type = 1) ∧
    (runHead (taskWords 0 4)).headKernel 0 = some (4, 0) ∧
    (∀ op, op = 1 ∨ op = 2 ∨ op = 3 ∨ op = 4 → ({ runHead (taskWords 0 4) with mem := { (readySys {}).mem with host := [(0, BitVec.ofNat 8 op)] } } : Sys).headKernel 0 =
      some (4, op)) ∧
    taskForm (taskWords 0 0) = true ∧ taskForm (taskWords 0 5) = false ∧ bitAt (taskWords 0 0)[0]! 18 = false ∧ bitAt (taskWords 0 0)[0]! 27 = false ∧
    bitAt (taskWords (2 ^ 18) 0)[0]! 18 = true ∧ ((readySys {}).ctx 0).realtime = false ∧ ({ realtime := true } : Ctx).realtime = true ∧
    (bitAt ([1 + 2 ^ 27, 0, 1, 0x40000 + 2 ^ 20])[0]! 27 = true ∧ taskForm [1 + 2 ^ 27, 0, 1, 0x40000 + 2 ^ 20] = true) := by
  refine ⟨?_, by decide +kernel, ?_, by decide, by decide, by decide, by decide, by decide, by decide, rfl, by decide⟩
  · rintro k (rfl | rfl | rfl | rfl | rfl) <;> decide
  · rintro op (rfl | rfl | rfl | rfl) <;> decide +kernel

theorem witness_KernelRows :
    (∀ y, y = ({ work := { sems := [(2, { total := 1, waits := [⟨.group 0, false⟩] })] } } : Sys) → (y.sem 2).waits = [⟨.group 0, false⟩] ∧
      (y.sem 2).need ⟨.group 0, false⟩ ≤ (y.sem 2).free ∧ (y.sem 2).total ≠ 0) ∧
    (∀ y, y = ({ kv := { prefetches := [⟨0, 0, 4096, 8192⟩] } } : Sys) → y.kv.prefetches.find? (fun x => (y.tg x.tg).queue == 0) = some ⟨0, 0, 4096, 8192⟩) ∧
    (∀ y, y = ({ bridle := { tgs := [(3, { st := .pageWait })] } } : Sys) →
      y.bridle.tgs.find? (fun p => p.2.queue == 0 && p.2.st == .pageWait) = some (3, { st := .pageWait })) ∧
    (∀ y, y = readySys {} → y.glob.config ≠ 2 ∧ y.kv.grantAddr % frameBytes = 0 ∧ y.kv.sel < y.bridle.doms.length ∧
      y.mem.inDom 0 0 (2 ^ 29 / frameBytes * frameBytes) = true ∧ y.mem.inDom 0 0 ((2 ^ 29 / frameBytes + 1) * frameBytes) = false) ∧
    (1 % frameBytes ≠ 0 ∧ State.reset.sys.bridle.doms.length ≤ State.reset.sys.kv.sel) := by
  refine ⟨?_, ?_, ?_, ?_, by decide⟩
  · rintro y rfl; decide
  · rintro y rfl; decide
  · rintro y rfl; decide
  · rintro y rfl; decide

/-- Job 0 in a state, of the valid context 0 with or without a save area. -/
def jobSys (n save : Nat) : Sys := { work := { jobs := [(0, { st := n })] }, bridle := { ctxs := [(0, { valid := true, saveAddr := save })] } }

theorem witness_JobCommands : State.reset.sys.glob.config ≠ 2 ∧ State.reset.sys.bridle.jobSel % 4096 = 0 ∧
    (((jobSys 0 0).job 0).st = 0 ∧ ((jobSys 0 0).ctx 0).valid = true) ∧ (State.reset.sys.ctx 0).valid = false ∧
    (∀ n, n = 1 ∨ n = 2 ∨ n = 3 ∨ n = 4 ∨ n = 5 ∨ n = 6 ∨ n = 7 → ((jobSys n 0).job 0).st = n ∧ ((jobSys n 0).brandOf 0).st ≠ 3) ∧
    (({ jobSys 2 0 with sec := { brands := [(0, { st := 3 })] } } : Sys).brandOf 0).st = 3 ∧ ((jobSys 2 64).ctx 0).saveAddr ≠ 0 ∧ ((jobSys 2 0).ctx 0).saveAddr = 0 ∧
    ((jobSys 5 0).stopJobWork 0).workLeft 0 = false ∧
    (({ jobSys 5 0 with cores := [(0, { st := .running, run := some { tg := 0, sliver := 0 } })], bridle := { tgs := [(0, {})] } } : Sys).stopJobWork 0).workLeft 0 = true ∧
    (jobSys 3 0).notStopped 0 = false := by
  refine ⟨by decide, by decide, by decide, by decide, ?_, by decide, by decide, by decide, by decide +kernel, by decide +kernel, by decide⟩
  rintro n (rfl | rfl | rfl | rfl | rfl | rfl | rfl) <;> decide

theorem witness_JobRegisters : State.reset.sys.glob.config ≠ 2 ∧ ((State.reset.sys.sem 0).holds = [] ∧ (State.reset.sys.sem 0).waits = []) ∧
    ({ holds := [⟨.job 1, 1⟩] } : Sem).holds ≠ [] ∧ ({ waits := [⟨.job 1, true⟩] } : Sem).waits ≠ [] ∧
    ((State.reset.sys.queue 0).slots = [] ∧ (State.reset.sys.queue 0).read = (State.reset.sys.queue 0).write) ∧
    (4 ≤ 4 % 16 ∧ 3 % 16 < 4) ∧ ({ slots := [{ words := [] }] } : Queue).slots ≠ [] ∧ ({ write := 1 } : Queue).read ≠ ({ write := 1 } : Queue).write ∧
    (bitAt 63 6 = false ∧ bitAt 64 6 = true) ∧ (∃ j ∈ (jobSys 5 0).work.jobs, j.2.st = 5 ∧ j.2.ctx = 0) ∧
    (∀ j ∈ State.reset.sys.work.jobs, ¬ (j.2.st = 5 ∧ j.2.ctx = 0)) ∧
    (∀ k ∈ State.reset.sys.instances, State.reset.sys.holderSum k.1 k.2 = (State.reset.sys.pool k.1 k.2).held) ∧
    (State.reset.sys.stall 63).qselWord = 0 ∧ ({ qselWord := 7 } : Stall).qselWord ≠ 0 := by decide +kernel

/-! ### Statements 04_cores_and_engines -/

/-- A sliver at the first address code may be fetched from, with x1 = v. -/
def runWith (v : Word) : Run := { tg := 0, sliver := 0, pc := 0x40000, regs := 0 :: v :: List.replicate 30 0 }

/-- Core 0 runs that sliver of a task group. -/
def onCore (r : Run) (ls : Store) (g : Tg) : State :=
  sysState { cores := [(0, { st := .running, run := some r, ls := ls })], bridle := { tgs := [(0, g)] } }

theorem onCore_issues (r : Run) (ls : Store) (g : Tg) (h : r.wait = .none) (hk : r.kernel = false := by rfl) :
    (onCore r ls g).Issues 0 r := ⟨rfl, rfl, rfl, h, hk⟩

theorem runWith_goesOn (v : Word) : (runWith v).GoesOn ((runWith v).pc + 4) :=
  ⟨show (0x40000 + 4) % 4 = 0 by decide, show 0x40000 ≤ 0x40000 + 4 by decide, show 0x40000 + 4 ≤ 0xFBFFF by decide, show 0 ≠ 0x10 by decide⟩

theorem onCore_undisturbed (r : Run) (ls : Store) (g : Tg) (h : r.pre = none) (hc : g.cut = false := by rfl) : (onCore r ls g).Undisturbed r := by
  refine ⟨by simp [onCore, sysState, Sys.job, tget], ?_, by simp [onCore, sysState, Sys.job, tget], rfl, h⟩
  by_cases ht : r.tg = 0
  · rw [ht]; exact hc
  · have hg : (onCore r ls g).sys.tg r.tg = {} := by simp [onCore, sysState, Sys.tg, tget, Ne.symm ht]
    rw [hg]

/-- The state after a command. -/
def after (i : Instr) (s : State) : State := match exec i s with | .next t => t | _ => s

/-- Register x2 and the address of core 0 after an instruction on x1 = v. -/
def x2After (i : Instr) (v : Word) : Option (Word × Nat) := ((after i (onCore (runWith v) {} {})).sys.core 0).run.map fun r => (r.x 2, r.pc)

theorem test_add_wraps : x2After (.add 0 2 1 1) 0xFFFFFFFF = some (0xFFFFFFFE, 0x40004) := by decide
theorem test_mulh_signed : x2After (.mulh 0 2 1 1) 0x80000000 = some (0x40000000, 0x40004) := by decide
theorem test_sra_sign : x2After (.srai 0 2 1 31) 0x80000000 = some (0xFFFFFFFF, 0x40004) := by decide
theorem test_clz_zero : x2After (.clz 0 2 1) 0 = some (32, 0x40004) := by decide
theorem test_lui : x2After (.lui 0 2 0x7FFFF) 0 = some (0xFFFFE000, 0x40004) := by decide
theorem test_slti_signed : x2After (.slti 0 2 1 0x3FFF) 0xFFFFFFFE = some (1, 0x40004) := by decide
theorem test_andi_zero_extends : x2After (.andi 0 2 1 0x3FFF) 0xFFFFFFFF = some (0x3FFF, 0x40004) := by decide
/-- A local store byte nothing has written reads the pattern of R52. -/
theorem test_ldw_pattern : x2After (.ldw 0 2 1 0) 0x100 = some (0xACBEACBE, 0x40004) := by decide +kernel
theorem test_branch_back_leaves_region : ((after (.jmp 0 (-1)) (onCore (runWith 0) {} {})).sys.core 0).run = none := by decide +kernel

theorem witness_AwlArithmetic : (onCore (runWith 5) {} {}).Issues 0 (runWith 5) ∧ (runWith 5).GoesOn ((runWith 5).pc + 4) :=
  ⟨onCore_issues _ _ _ rfl, runWith_goesOn 5⟩

theorem witness_RegisterZero : (runWith 5).regs.length = 32 ∧ 31 < 32 := by decide

theorem witness_AwlMemory : (onCore (runWith 0x3FFC) {} {}).Issues 0 (runWith 0x3FFC) ∧ (runWith 0x3FFC).GoesOn ((runWith 0x3FFC).pc + 4) ∧
    (((runWith 0x3FFC).x 1 + BitVec.signExtend 32 (0 : BitVec 14)).toNat % 4 = 0 ∧ ((runWith 0x3FFC).x 1 + BitVec.signExtend 32 (0 : BitVec 14)).toNat + 4 ≤ 0x4000) ∧
    (∀ k ∈ (runWith 0x3FFC).cmds, k.kind ≠ .drain) ∧
    (∀ p, p = ((runWith 0xFFFFC).x 1 + BitVec.signExtend 32 (0 : BitVec 14)).toNat → p % 4 = 0 ∧ 0x40000 ≤ p ∧ p + 4 ≤ 0x100000) ∧
    (onCore (runWith 0xFFFFC) {} {}).sys.poolBad 0 0xFFFFC 4 = false ∧ ({} : Store).valid.contains (0 / 64) = false ∧
    ((0xFC000 - 4) + ([0, 0, 0, 0] : List Byte).length ≤ 0xFC000 ∧ (State.reset.sys.stall 0).badPool = []) := by
  refine ⟨onCore_issues _ _ _ rfl, runWith_goesOn _, by decide, by decide, ?_, by decide, by decide, by decide⟩
  rintro p rfl; decide

theorem witness_StoresKeepOtherBytes : 0 < 64 ∧ 64 % 2 = 0 ∧ ([1] : List Byte) ≠ [] := by decide

theorem witness_AwlBranches : (onCore (runWith 0xFBFFC) {} {}).Issues 0 (runWith 0xFBFFC) ∧ (runWith 0).GoesOn 0xFBFFC ∧ ((runWith 0xFBFFC).x 1).toNat = 0xFBFFC ∧
    (((0x40008 : Nat) : Int) = (runWith 0).pc + 4 * (2 : BitVec 14).toInt ∧ (runWith 0).GoesOn 0x40008) ∧
    (((0x40008 : Nat) : Int) = (runWith 0).pc + 4 * (2 : BitVec 24).toInt) :=
  ⟨onCore_issues _ _ _ rfl, ⟨by decide, by decide, by decide, by decide⟩, by decide, ⟨by decide, ⟨by decide, by decide, by decide, by decide⟩⟩, by decide⟩

theorem witness_AwlFormatEnds : (onCore (runWith 0x3FFD) {} {}).Issues 0 (runWith 0x3FFD) ∧ 0x3FFD % 2 ≠ 0 ∧ 0x4000 < 0x3FFE + 4 ∧
    (0x3FFFC < 0x40000 ∧ 0x100000 < 0x100000 + 4) ∧ ((runWith 0xFC000).x 1).toNat > 0xFBFFF ∧ ((onCore (runWith 0) {} {}).sys.core 0).run = some (runWith 0) :=
  ⟨onCore_issues _ _ _ rfl, by decide, by decide, by decide, by decide, rfl⟩

/-- Core 0 at the first code address, where its stall's pool holds the word of ADD x1, x2, x3. -/
theorem witness_AwlFormatEnds_fetched : ∀ y : Sys, y = { (onCore (runWith 0) {} {}).sys with
      stalls := [(0, { pool := Store.write {} poolGr 0x40000 (bytesOf [0b00000001000010001000011000000000]) })] } →
    (y.core 0).run = some (runWith 0) ∧ leNat (y.poolRead (0 / 64) (runWith 0).pc 4) = 0b00000001000010001000011000000000 ∧ y.fetched 0 = some (.add 0 1 2 3) := by
  rintro y rfl; decide +kernel

theorem witness_CsrNumbers : (onCore (runWith 0) {} {}).Issues 0 (runWith 0) ∧ (0x3FFF : BitVec 14).toInt < 0 ∧ 15 < (16 : BitVec 14).toInt ∧
    (11 ≤ (11 : BitVec 14).toInt ∧ (15 : BitVec 14).toInt ≤ 15) ∧ (runWith 0).GoesOn ((runWith 0).pc + 4) :=
  ⟨onCore_issues _ _ _ rfl, by decide, by decide, by decide, runWith_goesOn 0⟩

theorem witness_CsrReadsAndWrites : (onCore (runWith 0x4000) {} {}).Issues 0 (runWith 0x4000) ∧ (runWith 0x4000).GoesOn ((runWith 0x4000).pc + 4) ∧
    (((runWith 0x4000).x 1).toNat % 64 = 0 ∧ 64 ≤ ((runWith 0x4000).x 1).toNat ∧ ((runWith 0x4000).x 1).toNat ≤ 0x4000 ∧ (runWith 0x4000).pre = none) ∧
    ((runWith 1).x 1).toNat ≤ 1 ∧ 0x4000 < ((runWith 0x4040).x 1).toNat ∧
    ((((onCore (runWith 0) {} {}).sys.forceCmds 0 (runWith 0).cmds.length).core 0).run.isSome = true) :=
  ⟨onCore_issues _ _ _ rfl, runWith_goesOn _, by decide, by decide, by decide, by decide⟩

/-- A transfer of core 0's sliver. -/
def aXfer (op ticket : Nat) : Xfer := { id := 0, stall := 0, core := 0, ticket := ticket, tg := 0, sliver := 0, ctx := 0, op := op, words := [] }

theorem witness_WaitsAndBoundaries : (onCore (runWith 0) {} {}).Issues 0 (runWith 0) ∧ (runWith 0).GoesOn ((runWith 0).pc + 4) ∧
    (onCore (runWith 0) {} {}).Undisturbed (runWith 0) ∧ (runWith 0).cmds = [] ∧
    (({ runWith 0 with cmds := [{ kind := .zero, mask := 8 }] } : Run).cmds ≠ [] ∧ (8 : Nat) &&& 8 ≠ 0) ∧
    (ticketKnown 0 0 = false ∧ ticketKnown 1 0 = true ∧ (aXfer 0 0).ticket = ((runWith 0).x 1).toNat) ∧
    ((onCore (runWith 0) {} {}).sys.core 0).st = .running ∧
    (∀ m : Mbox, m = { pending := true } → m.pending = true ∧ m.full = false) ∧
    (∀ m : Mbox, m = { full := true } → m.full = true ∧ m.status = 0 ∧ 0x4000 + m.data.length ≤ 0x4000) ∧
    (tandem 1).glob.config ≠ 0 ∧ 256 ≤ ((runWith 256).x 1).toNat := by
  refine ⟨onCore_issues _ _ _ rfl, runWith_goesOn 0, onCore_undisturbed _ _ _ rfl, rfl, by decide, by decide, rfl, ?_, ?_, by decide, by decide⟩
  · rintro m rfl; decide
  · rintro m rfl; decide

/-- A local store that holds these words from an address on. -/
def lsAt (a : Nat) (ws : List Nat) : Store := Store.write {} 64 a (bytesOf ws)

/-- EMMA of one step on engine 0, operands at address 0 (R76). -/
def emmaWords : List Nat := [2 ^ 28, 1, 0, 0]

theorem witness_EngineCommands : (onCore (runWith 0x100) {} {}).Issues 0 (runWith 0x100) ∧ (runWith 0x100).GoesOn ((runWith 0x100).pc + 4) ∧
    (0x102 % 4 ≠ 0 ∧ 0x4000 < 0x3FF4 + 16) ∧
    (∀ y, y = (onCore (runWith 0x100) (lsAt 0x100 emmaWords) {}).sys.interlock 0 0 0x4000 → (y.core 0).run = some (runWith 0x100) ∧
      (parseEmma (y.lsRead 0 0x100 16)).isSome = true ∧
      ((parseEmma (y.lsRead 0 0x100 16)).bind fun d => captureEmma (fun a n => y.lsRead 0 a n) d 0 0 0).isSome = true) ∧
    parseEmma ((onCore (runWith 0x100) (lsAt 0x100 [0, 0, 0, 0]) {}).sys.lsRead 0 0x100 16) = none ∧
    (0x3F00 % 4 = 0 ∧ 0x3F00 + 64 * popcount 4 15 ≤ 0x4000 ∧ 0x4000 < 0x3F04 + 64 * popcount 4 15) ∧ (∀ q ∈ (runWith 0).cmds, q.kind ≠ .drain) ∧
    (∀ k, k = EngKind.zero ∨ k = .swap ∨ k = .mac ∨ k = .conv ∨ k = .drain → ∃ r : Run, ∃ q : EngCmd, r.cmds = [q] ∧ q.kind = k ∧ bitAt q.mask 3 = true ∧
      q.malformed = false ∧ q.expSat = 0) ∧
    (∃ q : EngCmd, q.malformed = true ∧ q.kind = .mac) ∧
    (∃ (q : EngCmd) (w : EngWork), q.kind = .conv ∧ q.mask = 2 ^ 3 ∧ q.work = [w] ∧ w.engine = 3 ∧ w.steps = [] ∧ w.zeroFirst = true) := by
  refine ⟨onCore_issues _ _ _ rfl, runWith_goesOn _, by decide, ?_, by decide +kernel, by decide, by decide, ?_, ⟨{ kind := .mac, mask := 1, malformed := true }, rfl, rfl⟩,
    ⟨{ kind := .conv, mask := 8, work := [⟨3, true, []⟩] }, ⟨3, true, []⟩, rfl, rfl, rfl, rfl, rfl, rfl⟩⟩
  · rintro y rfl; decide +kernel
  · intro k _; exact ⟨{ runWith 0 with cmds := [{ kind := k, mask := 8 }] }, { kind := k, mask := 8 }, rfl, rfl, show bitAt 8 3 = true by decide, rfl, rfl⟩

/-- A 1 × 1 convolution of one point with 32 channels on engine 0 (R134), with an operation, a form and a kernel height. -/
def econvWords (op edge kh : Nat) : List Nat := [2 ^ 21 + op * 2 ^ 25 + edge * 2 ^ 27, 1, 0, 0, 0, kh + 32, 1 + 2 ^ 13, 32, 0, 0, 0, 0, 2 ^ 13, 2 ^ 13, 0, 0]

/-- Core 0 with that descriptor at 0x100 and zeros before it. -/
def convState (op edge kh : Nat) (g : Tg) : State := onCore (runWith 0x100) (lsAt 0 (fill 64 [] ++ econvWords op edge kh)) g

/-- The descriptor as the model reads it there. -/
def convD (s : State) : Econv := econvFields (s.sys.lsRead 0 0x100 64)

theorem witness_ConvolutionCommands : (convState 0 0 1 { eng := 1 }).Issues 0 (runWith 0x100) ∧
    (∀ op edge kh, (op, edge, kh) ∈ [(0, 0, 1), (0, 0, 3), (0, 1, 1), (1, 0, 1), (1, 0, 3), (2, 0, 1)] → ∀ s, s = convState op edge kh { eng := 1 } →
      ((s.sys.interlock 0 0 0x4000).core 0).run = some (runWith 0x100) ∧ econvReserved (s.sys.lsRead 0 0x100 64) = true ∧ (convD s).ok = true ∧
      (convD s).op = op ∧ (convD s).edge = decide (edge = 1) ∧ (convD s).empty = decide (kh = 3)) ∧
    (∀ s, s = convState 3 0 1 {} → (convD s).ok = false) ∧ popcount 4 1 ≤ ({ eng := 1 } : Tg).eng ∧ ({} : Tg).eng < popcount 4 1 ∧
    ({} : Tg).setgs = false ∧ ({} : Tg).vec = false ∧ 0x4000 < 0x3FC4 + 64 ∧
    (∀ s, s = convState 0 0 1 { eng := 1 } → ((convD s).capture (s.sys.lsGet 0) (s.sys.lbGet 0 (convD s).lbPool true) 0 0 0).isSome = true) ∧
    (∀ s, s = convState 1 0 1 { vec := true } → ∃ tg, (convD s).tensorGroup (s.sys.lsGet 0) = some tg ∧ ∀ q < 16, (convD s).chBase + q < (convD s).c →
      ∀ x ∈ (((List.range ((convD s).kh * (convD s).kw)).filter (convD s).included).map fun k =>
        (convD s).aEl (s.sys.lbGet 0 (convD s).lbPool true) tg (convD s).ox k ((convD s).chBase + q)), x ≠ .out ∧ x ≠ .broken) := by
  refine ⟨onCore_issues _ _ _ rfl, ?_, ?_, by decide, by decide, rfl, rfl, by decide, ?_, ?_⟩
  · intro op edge kh h s hs
    subst hs
    simp only [List.mem_cons, Prod.mk.injEq, List.not_mem_nil, or_false] at h
    rcases h with ⟨rfl, rfl, rfl⟩ | ⟨rfl, rfl, rfl⟩ | ⟨rfl, rfl, rfl⟩ | ⟨rfl, rfl, rfl⟩ | ⟨rfl, rfl, rfl⟩ | ⟨rfl, rfl, rfl⟩ <;> decide +kernel
  · rintro s rfl; decide +kernel
  · rintro s rfl; decide +kernel
  · rintro s rfl; exact ⟨none, by decide +kernel, by decide +kernel⟩

theorem witness_VectorRows : (onCore (runWith 0x3FC0) {} {}).Issues 0 (runWith 0x3FC0) ∧ lanesOk 0x3FC0 = true ∧ lanesOk 0x3FC4 = false ∧ lanesOk 2 = false ∧
    (∀ q ∈ (runWith 0).cmds, q.kind ≠ .drain) := ⟨onCore_issues _ _ _ rfl, by decide, by decide, by decide, by decide⟩

/-- A set descriptor at 0x100 (R86): A = [3, 5] at 0x200, B = [5, 9] at 0x240, output at 0x280, K = 1. -/
def setState : State := onCore (runWith 0x100) (lsAt 0x100 (fill 64 [2 + 2 * 2 ^ 16, 0x200, 0x240, 0x280, 4] ++ fill 16 [3, 5] ++ [5, 9])) {}

/-- SINT keeps 5, the one key in A and in B (R88). -/
theorem test_sint : leNat ((after (.sint 0 2 1) setState).sys.lsRead 0 0x280 4) = 5 := by decide +kernel

/-- A gather descriptor at 0x100 (R90): indices [1, 9] at 0x200, B of words at 0x240, output at 0x280; size is the element size. -/
def gatherState (out : Nat) : State := onCore (runWith 0x100) (lsAt 0x100 (fill 64 [2 + 4 * 2 ^ 16 + 2 ^ 20, 0x200, 0x240, out] ++ fill 16 [1, 9] ++ [7, 8])) {}

theorem witness_SetAndGatherRows : (setState.Issues 0 (runWith 0x100) ∧ ((setState.sys.interlock 0 0 0x4000).core 0).run = some (runWith 0x100)) ∧
    (∃ q, parseSet (setState.sys.lsRead 0 0x100 20) = some q ∧ q.a.ok (q.nA * q.size) = true ∧ q.b.ok (q.nB * q.size) = true ∧
      setState.sys.placeBad 0 q.a 0 (q.nA * q.size) = false ∧ setState.sys.placeBad 0 q.b 0 (q.nB * q.size) = false ∧
      q.sorted (q.elems q.nA (setState.sys.placeRead 0 q.a 0 (q.nA * q.size))) = true ∧ q.sorted (q.elems q.nB (setState.sys.placeRead 0 q.b 0 (q.nB * q.size))) = true ∧
      q.out.ok 0 = true ∧ q.out.ok (4 * 4) = true ∧ 1 ≤ q.k ∧ q.k ≤ 256 ∧ q.nB + q.nA ≤ 0x4000) ∧
    ((gatherState 0x280).Issues 0 (runWith 0x100) ∧ (((gatherState 0x280).sys.interlock 0 0 0x4000).core 0).run = some (runWith 0x100)) ∧
    (∃ q, parseGs ((gatherState 0x280).sys.lsRead 0 0x100 16) = some q ∧ (gatherState 0x280).sys.placeBad 0 q.a 0 q.idxBytes = false ∧ q.a.ok q.idxBytes = true ∧
      q.out.ok (q.n * q.size) = true ∧ q.out.ok 0 = true ∧ q.b.ok 0 = true ∧ q.b.ok (q.n * q.size) = true ∧ q.size = 4 ∧ q.out.pool = false ∧
      (gatherState 0x280).sys.placeBad 0 q.b 0 (q.n * q.size) = false) ∧
    (∃ q, parseGs ((gatherState (2 ^ 20 + 0x40000)).sys.lsRead 0 0x100 16) = some q ∧ q.out.pool = true) ∧ (runWith 0).exact = true ∧
    ({ runWith 0 with exact := false } : Run).exact = false := by
  refine ⟨⟨onCore_issues _ _ _ rfl, by decide +kernel⟩, ⟨⟨2, 2, ⟨0x200, false⟩, ⟨0x240, false⟩, ⟨0x280, false⟩, false, false, 1⟩, by decide +kernel⟩,
    ⟨onCore_issues _ _ _ rfl, by decide +kernel⟩, ⟨⟨2, 4, true, ⟨0x200, false⟩, ⟨0x240, false⟩, ⟨0x280, false⟩⟩, by decide +kernel⟩,
    ⟨⟨2, 4, true, ⟨0x200, false⟩, ⟨0x240, false⟩, ⟨0x40000, true⟩⟩, by decide +kernel⟩, rfl, rfl⟩

/-- A copy of one row of 64 bytes within the local store, by its descriptor at 0x100 (R308), with an operation and spaces. -/
def dmaState (op src dst : Nat) : State := onCore (runWith 0x100) (lsAt 0x100 (fill 16 [op + src * 8 + dst * 32, 64, 1, 0, 0, 0x200, 0, 0x300, 0])) {}

/-- The transfer that descriptor asks for. -/
def dmaXfer (s : State) : Xfer :=
  { aXfer (fld (wordAt (s.sys.lsRead 0 0x100 64) 0) 0 3) 0 with words := (List.range 16).map (wordAt (s.sys.lsRead 0 0x100 64)) }

/-- A DMA agent of stall 0 that holds its permit, with a ready transfer. -/
def readyXfer (op : Nat) : Sys :=
  { girth := { holds := [{ who := .dma 0, cost := 1 }] }, dma := { xfers := [aXfer op 0] },
    duo := { st := 3 }, cons := { pools := [(poolKey 2 2, { total := 1, free := 1 })] } }

theorem witness_DmaRows : ((dmaState 0 0 0).Issues 0 (runWith 0x100) ∧ (runWith 0x100).pre = none ∧ (runWith 0x100).GoesOn ((runWith 0x100).pc + 4)) ∧
    (0x104 % 64 ≠ 0 ∧ 0x4000 < 0x3FC1 + 64) ∧
    (∀ op src dst, (op, src, dst) ∈ [(0, 0, 0), (1, 0, 2), (2, 0, 0), (3, 0, 0)] → ∀ s, s = dmaState op src dst →
      ((s.sys.interlock 0 0x100 64).core 0).run = some (runWith 0x100) ∧ (dmaXfer s).formOk = true ∧ (dmaXfer s).op = op ∧ s.sys.remoteOf 0 (dmaXfer s) = none ∧
      (dmaXfer s).rangesOk (dmaXfer s).rowBytes = true ∧ (dmaXfer s).aux % 32 = 0) ∧
    (dmaXfer (dmaState 0 1 0)).rangesOk 64 = false ∧
    (∀ l, l = [aXfer 0 0, aXfer 0 1, aXfer 0 2, aXfer 0 3] → 4 ≤ (l.filter fun q => q.core == 0 && !q.cancelled).length ∧
      ((l.take 3).filter fun q => q.core == 0 && !q.cancelled).length < 4) ∧
    (∀ op, op = 0 ∨ op = 1 ∨ op = 2 ∨ op = 3 ∨ op = 4 → (readyXfer op).dma.xfers.find? (fun x => x.core == 0 && x.ticket == 0 && (readyXfer op).xferReady x) =
      some (aXfer op 0)) ∧ (readyXfer 1).holds (.dma 0) = true := by
  refine ⟨⟨onCore_issues _ _ _ rfl, rfl, runWith_goesOn _⟩, by decide, ?_, by decide +kernel, ?_, ?_, by decide⟩
  · intro op src dst h s hs
    subst hs
    simp only [List.mem_cons, Prod.mk.injEq, List.not_mem_nil, or_false] at h
    rcases h with ⟨rfl, rfl, rfl⟩ | ⟨rfl, rfl, rfl⟩ | ⟨rfl, rfl, rfl⟩ | ⟨rfl, rfl, rfl⟩ <;> decide +kernel
  · rintro l rfl; decide
  · rintro op (rfl | rfl | rfl | rfl | rfl) <;> decide

/-- A quantisation record of one group, and the peer window of a TEAM die at a context's address 0 (R122, R387). -/
theorem witness_DmaRows_records : (∃ q : List Byte, (parseQRec q).isSome = true) ∧
    (∀ y : Sys, y = { glob := { config := 1 }, mem := { tlb := [{ ctx := 0, va := 0, lg := 21, pa := peerBase, write := true, host := false, noalloc := false }] } } →
      (y.remoteOf 0 { aXfer 0 0 with words := [2 * 8 + 1 * 32, 4, 1, 0, 0, 8, 0, 0xFC000] }).isSome = true) := by
  refine ⟨⟨bytesOf [1, 0], by decide +kernel⟩, ?_⟩
  rintro y rfl; decide +kernel

theorem witness_SemaphoreRows : (onCore (runWith 2) {} {}).Issues 0 (runWith 2) ∧ (runWith 2).GoesOn ((runWith 2).pc + 4) ∧
    (onCore (runWith 2) {} {}).Undisturbed (runWith 2) ∧ ((onCore (runWith 2) {} {}).sys.sem 2).total = 0 ∧
    (∀ m : Sem, m = { total := 1 } → m.total ≠ 0 ∧ m.waits = [] ∧ m.need ⟨.sliver 0 0, false⟩ ≤ m.free) ∧
    (∀ m : Sem, m = { total := 1, holds := [⟨.job 1, 1⟩] } → m.free < m.need ⟨.sliver 0 0, true⟩) ∧
    (∀ m : Sem, m = { total := 1, holds := [⟨.sliver 0 0, 1⟩] } → m.holds.find? (fun h => h.who == .sliver 0 0) = some ⟨.sliver 0 0, 1⟩ ∧
      m.holds.find? (fun h => h.who == .sliver 0 1) = none) ∧
    (∀ w, w = SemHolder.sliver 0 0 ∨ w = .job 3 → ∀ m : Sem, m = { total := 1, waits := [⟨w, true⟩] } → m.need ⟨w, true⟩ ≤ m.free) ∧
    (∀ w1, w1 = 2 ∨ w1 = 2 + 2 ^ 13 → mayRun (runHead [5, w1]) = true ∧ ({ words := [5, w1] } : Pkt).type = 5 ∧ ({ words := [5, w1] } : Pkt).reservedOk [1] = true ∧
      fld (({ words := [5, w1] } : Pkt).word 1) 14 18 = 0 ∧ ((runHead [5, w1]).sem 2).total = 0) ∧
    (bitAt 2 13 = false ∧ bitAt (2 + 2 ^ 13) 13 = true) := by
  refine ⟨onCore_issues _ _ _ rfl, runWith_goesOn _, onCore_undisturbed _ _ _ rfl, by decide, ?_, ?_, ?_, ?_, ?_, by decide⟩
  · rintro m rfl; decide
  · rintro m rfl; decide
  · rintro m rfl; decide
  · rintro w (rfl | rfl) m rfl <;> decide
  · rintro w (rfl | rfl) <;> decide

/-! ### Statements 08_raster_pipeline -/

/-- A pass of 16 × 16 points at 0x3000 with one draw at 0x2000 (R181), the draw's triangle (R182), its vertex TASK packet and its vertices. -/
def rasterCells : Cells :=
  Cells.write (Cells.write (Cells.write (Cells.write [] 0x1000 (bytesOf (fill 32 [0, 16 + 16 * 2 ^ 13, 0x3000, 0, 0, 0, 64, 0, 0, 0, 0, 0, 0, 0x2000, 0, 1])))
    0x2000 (bytesOf (fill 16 [7 * 64, 3, 0, 0, 0x2100, 0, 0, 0, 0x2200, 0, 0x2400]))) 0x2100 (bytesOf [1, 0, 1, 0x40000]))
    0x2200 (bytesOf [0xBF800000, 0xBF800000, 0x3F000000, 0x3F800000, 0x3F800000, 0xBF800000, 0x3F000000, 0x3F800000, 0xBF800000, 0x3F800000, 0x3F000000, 0x3F800000])

/-- A RASTER packet of that pass at the head of queue 0. -/
def rasterSys (r : Raster) : Sys :=
  { runHead [2, 0, 0x1000, 0] with raster := r, mem := { (readySys {}).mem with host := rasterCells } }

/-- The pass the packet makes. -/
def aPass : Pass := { queue := 0, ctx := 0, job := 0, desc := bytesOf (fill 32 [0, 16 + 16 * 2 ^ 13, 0x3000, 0, 0, 0, 64, 0, 0, 0, 0, 0, 0, 0x2000, 0, 1]) }

/-- Its draw. -/
def aDraw : DrawR := ⟨false, false, false, false, false, false, 7, false, false, 0, 0, 3, 0, 0x2100, 0, 0x2200, 0x2400⟩

theorem witness_RasterRows_packet : mayRun (rasterSys {}) = true ∧ ({ words := [2, 0, 0x1000, 0] } : Pkt).type = 2 ∧
    ({ words := [2, 0, 0x1000, 0] } : Pkt).reservedOk [2, 3] = true ∧ good ((rasterSys {}).vread none 0 0x1000 128).2 = true ∧ passOk aPass.desc = true ∧
    passOk (bytesOf (fill 32 [])) = false ∧ good ((rasterSys {}).readDraw aPass 0).2 = true ∧ aPass.draws = 1 := by decide +kernel

theorem witness_RasterRows_start : (rasterSys { waiting := [aPass] }).raster.active = none ∧ (rasterSys { waiting := [aPass] }).nextPass = some (aPass, false) ∧
    ((rasterSys {}).job 0).st = 2 ∧ good (((rasterSys {}).setActive { aPass with started := true }).clearPass { aPass with started := true }).2 = true ∧
    good ((rasterSys {}).issueVs 0 { aPass with started := true }).2 = true ∧
    (rasterSys { parked := some { aPass with started := true } }).nextPass = some ({ aPass with started := true }, true) := by decide +kernel

/-- The pass at its only draw, the vertices shaded. -/
def frontPass (prim : Nat) : Pass := { aPass with started := true, front := true, vsIssued := [0], shaded := [0], prim := prim }

theorem witness_RasterRows_primitive : (frontPass 0).fail = none ∧ (frontPass 0).frontDone = false ∧ (frontPass 0).stopping = false ∧
    (frontPass 0).shaded.contains (frontPass 0).draw = true ∧ ((rasterSys {}).readDraw (frontPass 0) 0).2.toOption = some aDraw ∧
    ((rasterSys {}).issueVs 1 (frontPass 0)).2.toOption = some (frontPass 0) ∧
    (((rasterSys {}).assemble aDraw 4 (frontPass 3)).2.toOption.map (·.2)) = some none ∧
    (((rasterSys {}).assemble aDraw 4 (frontPass 0)).2.toOption.map (·.2)) = some (some [0, 1, 2]) := by decide +kernel

/-- The triangle's vertices, and its records with the tiles they reach. -/
def aTri : List Vert := [[0xBF800000, 0xBF800000, 0x3F000000, 0x3F800000], [0x3F800000, 0xBF800000, 0x3F000000, 0x3F800000], [0xBF800000, 0x3F800000, 0x3F000000, 0x3F800000]]

theorem witness_RasterRows_pages : [0, 1, 2].map (fun v => ((rasterSys {}).readVert (frontPass 0) aDraw v).2.toOption) = aTri.map some ∧
    (∀ ps, ps = (((frontPass 0).pieces aTri).zipIdx.map fun q => (frontPass 0).setup 0 q.2 0 [0, 1, 2] q.1).map (fun r => (r, (frontPass 0).tilesOf r)) →
      (ps.all fun q => decide (q.1.area ≠ 0) && !q.2.isEmpty) = true ∧ (frontPass 0).pagesNeeded ps = 2) ∧
    ((rasterSys {}).pool 5 0).free < 2 ∧ (frontPass 0).growing = false ∧ 2 ≤ ({ total := 2, free := 2 } : Pool).free := by
  refine ⟨by decide +kernel, ?_, by decide +kernel, rfl, by decide⟩
  rintro ps rfl; decide +kernel

/-- A fragment of owner 0 at quad (0, 0), waiting or issued. -/
def aFrag : Frag := { seq := 0, piece := 0, draw := 0, tile := 0, qx := 0, qy := 0, samples := [0], depths := [0], attrs := [[]] }

theorem witness_RasterRows_fragments : ({ frontPass 0 with growing := true } : Pass).growing = true ∧
    ({ girth := { holds := [{ who := .tileOwner 0, cost := 1 }] } } : Sys).holds (.tileOwner 0) = true ∧ ({ work := [aFrag] } : Owner).work ≠ [] ∧
    (∀ p : Pass, p = { aPass with tiles := [(0, { entries := [⟨0, 0, 0, 0, 0⟩] })] } → (tget {} p.owners 0).work = [] ∧ (tget {} p.owners 0).lastTile ≤ 0 ∧
      ((p.tiles.filter fun t => tileOwnerOf t.1 == 0 && !t.2.entries.isEmpty).map (·.1)).find? (fun k => decide ((tget {} p.owners 0).lastTile ≤ k)) = some 0) ∧
    ({ issued := [aFrag] } : Owner).record 0 0 = [aFrag] ∧ aFrag.late = false ∧
    good ((rasterSys {}).blendSample aPass aDraw 0 0 0 [0, 0, 0, 0]).2 = true := by
  refine ⟨rfl, by decide, by decide, ?_, by decide, rfl, by decide +kernel⟩
  rintro p rfl; decide

/-- Device memory for grants; a texture descriptor of zeros at 0x2400 and coordinates that stay in its first texel. -/
theorem witness_RasterRows_grants : State.reset.sys.glob.config ≠ 2 ∧ 0 % pageBytes = 0 ∧ (readySys {}).mem.inDom 0 0 (2 ^ 29 / pageBytes * pageBytes) = true ∧
    (readySys {}).mem.inDom 0 0 ((2 ^ 29 / pageBytes + 1) * pageBytes) = false ∧ 1 % pageBytes ≠ 0 ∧
    ({ girth := { holds := [{ who := .texture 31, cost := 1 }] } } : Sys).holds (.texture 31) = true ∧
    good ((rasterSys {}).vread none 0 (aDraw.tex + 32 * (63 % 64)) 32).2 = true := by decide +kernel

/-! ### Statements 09_vision_engines -/

/-- A descriptor (R203) of a 16 × 16 command of one level: images at 0x2000 and 0x3000, scratch at 0x4000, output at 0x30000, flag line at 0x31000. -/
def visionDesc (kind : Nat) : List Byte :=
  bytesOf (fill 32 [kind + (if kind = 2 then 0 else 8), 16 + 16 * 2 ^ 13, 0, 1 + 2 ^ 16, 0, 1, 0x2000, 0, 0x3000, 0, 64, 64, 0x4000, 0, 0x30000, 0, 0x31000])

/-- A vision packet of that descriptor at the head of queue 0, context 0's first 2 MiB being device memory of its domain. -/
def visionSys (kind slots : Nat) (v : Vision) : Sys :=
  let y : Sys := { runHead [3, 0, 0x1000, 0] with
    cons := { pools := [(poolKey 3 1, { total := 1, free := slots })] }, vision := v,
    mem := { domChans := [1], tlb := [{ ctx := 0, va := 0, lg := 21, pa := 0, write := true, host := false, noalloc := false }] } }
  (y.vwrite none 0 0x1000 (visionDesc kind) none).1

/-- The command the packet makes. -/
def aVision (kind st engine : Nat) : VCmd := { id := 0, queue := 0, ctx := 0, job := 0, desc := visionDesc kind, st := st, engine := engine }

theorem witness_VisionRows_packet : (∀ k, k = 0 ∨ k = 1 ∨ k = 2 → mayRun (visionSys k 1 {}) = true ∧ ({ words := [3, 0, 0x1000, 0] } : Pkt).type = 3 ∧
      ({ words := [3, 0, 0x1000, 0] } : Pkt).reservedOk [2, 3] = true ∧
      ((visionSys k 1 {}).vread none 0 0x1000 128).2.toOption = some (visionDesc k) ∧ (aVision k 0 0).formOk = true ∧
      ((visionSys k 1 {}).regionsOk (aVision k 0 0)).2 = true) ∧
    0x1000 % 64 = 0 ∧ ({ aVision 0 0 0 with desc := bytesOf (fill 32 []) } : VCmd).formOk = false ∧
    ((runHead [3, 0, 0x1000, 0]).regionsOk (aVision 0 0 0)).2 = false ∧ ((visionSys 0 0 {}).pool 3 1).free = 0 ∧ ((visionSys 0 1 {}).pool 3 1).free ≠ 0 := by
  refine ⟨?_, by decide, by decide, by decide +kernel, by decide +kernel, by decide +kernel⟩
  rintro k (rfl | rfl | rfl) <;> decide +kernel

theorem witness_VisionRows_commands : ((visionSys 0 0 { cmds := [aVision 0 1 3] }).onEngine 3 = some (aVision 0 1 3) ∧ (visionSys 0 0 {}).onEngine 3 = none ∧
      (visionSys 0 0 {}).visionNext 0 = none ∧ (visionSys 0 0 { cmds := [aVision 0 0 0] }).onEngine 3 = none ∧
      (visionSys 0 0 { cmds := [aVision 0 0 0] }).visionNext 0 = some (aVision 0 0 0)) ∧
    ((visionSys 0 0 { cmds := [aVision 0 3 3] }).vision.cmds.find? (fun c => c.id == 0) = some (aVision 0 3 3) ∧ (aVision 0 3 3).started = false) ∧
    ((visionSys 0 0 { cmds := [aVision 0 1 3] }).job 0).st = 2 ∧
    (∀ k n, k = 0 ∧ n = 3 ∨ k = 2 ∧ n = 5 → ((visionSys k 0 { cmds := [aVision k 1 n] }).onEngine n = some (aVision k 1 n)) ∧
      good ((visionSys k 0 {}).readImg (aVision k 1 n) 0).2 = true ∧ good ((visionSys k 0 {}).readImg (aVision k 1 n) 1).2 = true) ∧
    (∀ n, n = 5 ∨ n = 3 → (({ visionSys 0 0 { cmds := [aVision 0 1 3] } with work := { jobs := [(0, { st := n })] } } : Sys).job (aVision 0 1 3).job).st = n) ∧
    (aVision 0 2 3).st = 2 ∧ ({ visionSys 0 0 { cmds := [aVision 0 1 3] } with duo := { hold := true } } : Sys).duo.hold = true ∧
    (visionSys 0 0 { cmds := [aVision 0 1 3] }).duo.hold = false := by
  refine ⟨by decide +kernel, by decide +kernel, by decide +kernel, ?_, ?_, by decide, by decide, by decide +kernel⟩
  · rintro k n (⟨rfl, rfl⟩ | ⟨rfl, rfl⟩) <;> decide +kernel
  · rintro n (rfl | rfl) <;> decide +kernel

/-- The first stripe of the flow command that runs is written. -/
theorem witness_VisionRows_stripe : (((visionSys 0 0 {}).readImg (aVision 0 1 3) 0).2.toOption.any fun a =>
      ((visionSys 0 0 {}).readImg (aVision 0 1 3) 1).2.toOption.any fun b =>
        good ((visionSys 0 0 {}).writeStripes (aVision 0 1 3) ((aVision 0 1 3).flow a b) 0 1).2) = true ∧
    (((visionSys 2 0 {}).readImg (aVision 2 1 5) 0).2.toOption.any fun a =>
      good ((visionSys 2 0 {}).vwrite none 0 0x30000 ((aVision 2 1 5).featBytes (a.level 0)) none).2) = true := by
  decide +kernel

/-! ### Statements 12_bridle_scheduler, 16_girth_power: dispatch, grants, saves -/

/-- A domain of stall 0 with a READY task group of one sliver, number 5, of context 0 (priority 0); job 0 runs; context 1 has priority 1 and runs
task group 6. -/
def dispSys (cores : Tab Core) : Sys :=
  { glob := { ready := true, stallEn := 1 }, stalls := [(0, { gated := false })], cores := cores, work := { jobs := [(0, { st := 2 })] },
    bridle := { doms := [{ stalls := 1, contexts := 3 }], ctxs := [(0, { valid := true }), (1, { valid := true, prio := 1 })],
                tgs := [(5, {}), (6, { ctx := 1, next := 1 })] } }

/-- Core 0 in a state with sliver 0 of task group 6, every other core of the stall failed. -/
def fullCores (c : Core) : Tab Core := (0, c) :: (List.range 63).map fun k => (k + 1, { st := .failed })

/-- That sliver. -/
def lowRun : Run := { tg := 6, sliver := 0, pc := 0x40000 }

/-- Its save, as a stall's save region holds it. -/
def lowSave : Save := { run := lowRun, ls := List.replicate 64 0, granules := 2, seq := 9 }

theorem witness_DispatchAndSaves_dispatch : (dispSys []).pick 1 = none ∧ State.reset.sys.pick 0 = none ∧ (dispSys []).headReq = none ∧
    (∀ r : PermReq, r = { holds := [{ who := .sliver 5 0, cost := 3 }], prio := 0, act := .dispatch 5 0 0 } →
      ({ dispSys [] with girth := { reqs := [r] } } : Sys).headReq = some r ∧ ({ dispSys [] with girth := { reqs := [r] } } : Sys).canGrant r = false ∧
      ({ dispSys [] with girth := { reqs := [r] }, cons := { pools := [(poolKey 0 0, { total := 9, free := 9 })] } } : Sys).canGrant r = true) ∧
    tfind (dispSys []).bridle.tgs 5 = some {} ∧ (dispSys []).coreFree 7 = true ∧ ((dispSys []).job ({} : Tg).job).st = 2 ∧ (dispSys []).ctxHeld ({} : Tg).ctx = false ∧
    (dispSys []).freeCores 0 ≠ [] ∧ (dispSys (fullCores { st := .running, run := some lowRun })).freeCores 0 = [] := by
  refine ⟨by decide +kernel, by decide +kernel, by decide +kernel, ?_, by decide +kernel, by decide +kernel, by decide, by decide, by decide +kernel, by decide +kernel⟩
  rintro r rfl; decide +kernel

theorem witness_DispatchAndSaves_pick : (dispSys []).pick 0 = some (.fresh 5 0 0) := by decide +kernel

theorem witness_DispatchAndSaves_preempt : ∀ y, y = dispSys (fullCores { st := .running, run := some lowRun }) →
    y.candidates 0 0 = [.fresh 5] ∧ y.lowerCores 0 0 (.fresh 5) = [(0, lowRun)] ∧ saveGranules lowRun.live (y.tg lowRun.tg).eng ≤ (y.stall (0 / 64)).saveFree ∧
      lowRun.atBoundary = false ∧ (∀ p < 8, ∀ k ∈ y.candidates 1 p, y.lowerCores 1 p k = []) := by
  rintro y rfl; decide +kernel

theorem witness_DispatchAndSaves_saves : (State.reset.sys.core 0).st ≠ .saving ∧ (State.reset.sys.core 0).st ≠ .restoring ∧
    (∀ r, r = { lowRun with pre := some { cand := some (.fresh 5), prio := 0, granules := 2, live := 64 } } →
      ∀ y, y = dispSys [(0, { st := .saving, run := some r, frozen := true })] →
        (y.core 0).st = .saving ∧ (y.core 0).run = some r ∧ r.pre.isSome = true ∧ r.wait = .none ∧ (y.core 0).next = none) ∧
    (∀ y, y = ({ dispSys [(0, { st := .restoring, resume := some 9 })] with stalls := [(0, { gated := false, saves := [lowSave] })] } : Sys) →
      (y.core 0).st = .restoring ∧ (y.core 0).resume = some 9 ∧ y.findSave 9 = some lowSave ∧ lowSave.run.cancel = none ∧ lowSave.run.wait = .none ∧
        lowSave.parked = none ∧ y.dma.xfers = [] ∧ pcOk lowSave.run.pc = true ∧ lowSave.run.codes ≠ 0x10) ∧
    ((State.reset.sys.sem 2).holds[0]? = none) ∧
    (∀ h : SemHold, h = ⟨.sliver 6 0, 1⟩ → ∀ w : List SemReq, ∀ y, y = ({ dispSys [] with work := { sems := [(2, { total := 1, holds := [h], waits := w })] } } : Sys) →
      (y.sem 2).holds[0]? = some h ∧ (w = [] → y.holdTimed 2 h = false) ∧ (w = [⟨.sliver 5 0, false⟩] → y.holdTimed 2 h = true)) := by
  refine ⟨by decide, by decide, ?_, ?_, by decide, ?_⟩
  · rintro r rfl y rfl; decide
  · rintro y rfl; decide +kernel
  · rintro h rfl w y rfl; exact ⟨rfl, by rintro rfl; decide, by rintro rfl; decide⟩

/-! ### Statements 11_scanout -/

/-- A display pipe present, 4 × 8 pixels of 8 bits, PR on. -/
def aPipe (p : Pipe) : Pipe := { p with words := fill 16 [1 + 2 ^ 13, 4, 0, 8] }

/-- Pipe 0 is that pipe on a READY die of four channels; pipe 1 likewise, with DSC at a rate that needs PLLX. -/
def pipeSys (p : Pipe) (q : Pipe) : Sys :=
  { glob := { ready := true, memUp := true, domainsRun := 2 ^ 17 - 1 }, mem := { domChans := [0xF] }, beam := { master := 2, source := 2 }, pipe0 := aPipe p,
    pipe1 := { q with words := fill 16 [1 + 2 ^ 11 + 8 * 10, 4, 0, 8] } }

/-- A DSC pipe at a rate that takes PLLX. -/
def pllxPipe : Pipe := { words := fill 16 [1 + 2 ^ 11 + 8, 4, 0, 8] }

theorem witness_PipeRows_states : ((pipeSys { en := true } {}).pipe 0).en = true ∧ ((pipeSys {} {}).pipe 0).en = false ∧ (State.reset.sys.pipe 0).present = false ∧
    ((pipeSys {} {}).pipe 0).present = true ∧ State.reset.sys.glob.ready = false ∧ (pipeSys {} {}).glob.ready = true ∧ (pipeSys {} {}).pipesBarred = false ∧
    ({ glob := { config := 1 }, duo := { role := 1 } } : Sys).pipesBarred = true ∧
    (pllxPipe.needsPllx 0 = true ∧ pllxPipe.en = false ∧ ((pipeSys {} { en := true }).pipe 1).en = true ∧ ((pipeSys {} { en := true }).pipe 1).needsPllx 1 = true) ∧
    ((pipeSys {} {}).pipe 0).needsPllx 0 = false ∧ (({ st := .training } : Pipe).st = .training ∧ ({ st := .training } : Pipe).trained = false) ∧
    (∀ t : PipeSt, t = .off ∨ t = .linkDown ∨ t = .training ∨ t = .active ∨ t = .still → ((pipeSys { st := t } {}).pipe 0).st = t) ∧
    (({} : Pipe).waits = false ∧ ({} : Pipe).runs = false) ∧ ((pipeSys { st := .training, trained := true } {}).pipe 0).waits = true ∧ (pipeSys {} {}).beam.master ≠ 0 ∧
    (((pipeSys { st := .active } {}).pipe 0).waits = false ∧ ((pipeSys { st := .active } {}).pipe 0).runs = true ∧ (pipeSys { st := .active } {}).beam.source ≠ 0 ∧
      (pipeSys { st := .active } {}).beam.newMaster ≠ some 0) := by
  refine ⟨by decide, by decide, by decide, by decide, by decide, by decide, by decide, by decide, by decide, by decide, by decide, ?_, by decide, by decide,
    by decide, by decide⟩
  rintro t (rfl | rfl | rfl | rfl | rfl) <;> rfl

theorem witness_PipeRows_lines : (∀ p, p = (pipeSys { st := .active } {}).pipe 0 → p.runs = true ∧ 7 < p.vactive ∧ p.vactive ≤ 8 ∧ p.inUpdate 7 = true ∧ p.calm = false ∧
      p.bandMode = false ∧ ((pipeSys { st := .active } {}).scan (p.fbNow + 7 * p.pitchNow) (p.hactive * p.pxBytes)).2.isSome = true) ∧
    (∀ p, p = (pipeSys { st := .still, suRun := some (0, 3) } {}).pipe 0 → p.runs = true ∧ p.inUpdate 4 = false) ∧
    (({ calm := true, timer := true, cause := 1 } : Pipe).calm = true ∧ ({ calm := true, timer := true, cause := 1 } : Pipe).expired = false) ∧
    (({} : Pipe).calm = false ∧ ({ expired := true } : Pipe).expired = true) ∧
    (∀ y, y = pipeSys { st := .active } {} → (y.pipe 0).pr = true ∧ (y.pipe 0).st = .active ∧ (y.pipe 0).calm = false ∧ y.beam.master ≠ 0) ∧
    (∀ y, y = ({ pipeSys { st := .active } {} with beam := { master := 0 }, fg := { en := true } } : Sys) → y.beam.master = 0 ∧ y.fg.en = true) ∧
    (State.reset.sys.pipe 0).pr = false ∧ ((pipeSys { st := .still, calm := true } {}).pipe 0).calm = true := by
  refine ⟨?_, ?_, by decide, by decide, ?_, ?_, by decide, by decide⟩
  · rintro p rfl; decide +kernel
  · rintro p rfl; decide
  · rintro y rfl; decide
  · rintro y rfl; decide

theorem witness_AuxRows : (2 ^ 20 - 1 < 2 ^ 20 ∧ 15 < 16) ∧ ({ auxSt := 1 } : Pipe).auxSt = 1 ∧ ({} : Pipe).auxSt ≠ 1 ∧
    ({ auxSt := 1 } : Pipe).auxDefer = false ∧ ({ auxSt := 1, auxDefer := true } : Pipe).auxDefer = true ∧
    (fld ({ auxCmd := 2 ^ 25 } : Pipe).auxCmd 24 1 = 0 ∧ fld ({ auxCmd := 2 ^ 24 } : Pipe).auxCmd 24 1 = 1) ∧
    (({ auxTries := 6 } : Pipe).auxTries < 7 ∧ 7 ≤ ({ auxTries := 7 } : Pipe).auxTries) := by decide

/-! ### Statements 14_host_link, 15_memory, 17: host requests, memory upkeep, faults -/

/-- Module 0 UP on a die whose memory is up, one channel mapped, nothing listed. -/
def hostSys (m : Module) : Sys := { glob := { memUp := true }, link := { m0 := m }, mem := { domChans := [1] } }

theorem witness_HostLinkRows_requests : ((hostSys { st := 3 }).module 0).st = 3 ∧ (15 < 16 ∧ 0 < 16) ∧ reqOk 4095 4 = false ∧
    (([0, 0, 0, 0] : List Byte).length = 4 ∧ 1 ≠ 0) ∧ (reqOk 0xFFC 4 = true ∧ reqOk 0xF00 256 = true ∧ reqOk 0xFFC 8 = false ∧ reqOk 0 260 = false) ∧
    (∀ y, y = hostSys { st := 3 } → y.glob.memUp = true ∧ (y.mem.memEnd - 4) + ([0, 0, 0, 0] : List Byte).length ≤ y.mem.memEnd ∧ y.glob.config = 0 ∧
      y.girth.state ≠ 2 ∧ y.sealed 0 4 = false ∧ y.mem.fails .host 0 4 = none ∧ y.mem.memEnd < y.mem.memEnd + 4) ∧
    ({ girth := { state := 2 } } : Sys).girth.state = 2 ∧ ({ sec := { models := [(0, { st := 2, len := 1 })] } } : Sys).sealed 60 4 = true ∧
    State.reset.sys.glob.memUp = false ∧ ((hostSys { st := 3 }).module 0).readOf 7 = none ∧
    ((hostSys { st := 3, reads := [⟨7, 0, 0, 64, 4⟩] }).module 0).readOf 7 = some ⟨7, 0, 0, 64, 4⟩ ∧ (List.replicate 64 (0 : Byte)).length = 64 ∧
    ([] : List Byte).length ≠ 64 ∧ (hostSys {}).isHarness 0 = false ∧
    (({ ledger := [1, 9, 0, 4] } : Module).ledger.length = 4 ∧ 9 ≤ ({ ledger := [1, 9, 0, 4] } : Module).ledger.getD 1 0) := by
  refine ⟨by decide, by decide, by decide, by decide, by decide, ?_, by decide, by decide, by decide, by decide, by decide, by decide, by decide, by decide, by decide⟩
  rintro y rfl; decide +kernel

theorem witness_HostLinkRows_wire : (∀ n, n = 0 ∨ n = 3 ∨ n = 4 → (hostSys { st := n }).wireSt 0 = n) ∧ ({ glob := { config := 1 }, duo := { st := 5 } } : Sys).wireSt 1 = 5 ∧
    ({ glob := { config := 1 }, duo := { st := 4 } } : Sys).isHarness 1 = true ∧ ((hostSys { st := 3, replays := 8 }).wire 0).replays = 8 ∧
    ((hostSys { st := 3, replays := 7 }).wire 0).replays + 1 ≤ 8 ∧
    3 ≤ (((hostSys { st := 4, retrainAt := [0, 0, 0] }).wire 0).retrainAt.filter fun t => decide ((hostSys {}).glob.refCycles < t + 38400)).length ∧
    (((hostSys { st := 4, retrainAt := [0, 0] }).wire 0).retrainAt.filter fun t => decide ((hostSys {}).glob.refCycles < t + 38400)).length < 3 ∧
    (State.reset.sys.glob.config = 0 ∧ ({ link := { m1 := { st := 1 } } } : Sys).link.m1.st = 1 ∧ State.reset.sys.link.m1.st ≠ 1) ∧
    ((tget {} State.reset.sys.link.vecs 255 : Vec).pending = false) ∧ (tget {} ({ vecs := [(5, { pending := true })] } : Link).vecs 5 = { mask := true, pending := true }) ∧
    ((readySys {}).glob.ready = true ∧ (readySys {}).glob.config = 0) ∧ State.reset.sys.glob.config ≠ 2 ∧ ({ invBusy := true } : Link).invBusy = true ∧
    ({} : Link).invBusy = false := by
  refine ⟨?_, by decide, by decide, by decide, by decide, by decide, by decide, by decide, by decide, by decide, by decide, by decide, by decide, by decide⟩
  rintro n (rfl | rfl | rfl) <;> decide

/-- A die with one active channel of inline ECC, patrol scrubbing and self-refresh on. -/
def eccSys (st : Nat) : Sys := { mem := { domChans := [1], inlineEcc := true, scrub := 1, srIdle := 1, chans := [(0, { st := st })] } }

theorem witness_MemoryAndFaultRows : (∀ n, n = 1 ∨ n = 2 ∨ n = 3 → ((eccSys n).chan 0).st = n) ∧ ((eccSys 2).mem.srIdle ≠ 0 ∧ (eccSys 2).mem.chanDom 0 ≠ none ∧
      (eccSys 2).mem.chanDom 1 = none ∧ ({ mem := { srIdle := 0 } } : Sys).mem.srIdle = 0 ∧ (eccSys 2).girth.state ≠ 2) ∧
    (State.reset.sys.mem.inlineEcc = false ∧ ({ mem := { scrub := 0 } } : Sys).mem.scrub = 0 ∧ (eccSys 2).mem.memEnd < 64 * ((eccSys 2).mem.memEnd / 64) + 64) ∧
    ((eccSys 2).mem.inlineEcc = true ∧ (eccSys 2).mem.scrub ≠ 0 ∧ 64 * ((eccSys 2).mem.memEnd / 64 - 1) + 64 ≤ (eccSys 2).mem.memEnd ∧
      (eccSys 2).mem.bad.contains 0 = false) ∧
    (bitAt ({ mem := { loftBusy := 128 } } : Sys).mem.loftBusy 7 = true ∧ bitAt State.reset.sys.mem.loftBusy 7 = false) ∧
    (applySys.enabled (63 / 64) = true ∧ applySys.raster.active = none ∧ applySys.onEngine 5 = none) ∧ State.reset.sys.flt.logCount < 512 ∧
    ({ flt := { logCount := 511 } } : Sys).flt.logCount < 512 := by
  refine ⟨?_, by decide +kernel, by decide +kernel, by decide +kernel, by decide, by decide, by decide, by decide⟩
  rintro n (rfl | rfl | rfl) <;> decide

/-! ### Statements 16_girth_power -/

/-- A READY die with one stall of 64 cores whose state is given, gating on, and work of one task group. -/
def powerSys (k : Stall) (g : Girth) : Sys := { dispSys [] with stalls := [(0, k)], girth := { g with gateIdle := 1 } }

theorem witness_GirthSteps : (State.reset.sys.glob.ready = false ∧ ({ state := 1 } : Girth).state ≠ 0 ∧ ({ moving := 1 } : Girth).moving = 1) ∧
    (∀ b g, g = ({ fixed := b } : Girth) → (powerSys {} g).glob.ready = true ∧ (powerSys {} g).girth.state = 0 ∧ (powerSys {} g).girth.moving ≠ 1 ∧
      (powerSys {} g).girth.throttle = false ∧ (powerSys {} g).girth.fixed = b) ∧
    (∀ p, p = .voltageUp ∨ p = .voltageDown ∨ p = .forced ∨ p = .frozenUp ∨ p = .frozenDown ∨ p = .idle → (powerSys {} { step := p }).girth.step = p) ∧
    (({ avsTries := 1 } : Girth).avsTries < 2 ∧ 2 ≤ ({ avsTries := 2 } : Girth).avsTries) ∧ (0 < 72 ∧ 71 < 72) ∧
    (({ stretched := true } : Girth).stretched = true ∧ ({} : Girth).stretched = false ∧ ({} : Girth).droopNow = 0 ∧ ({ droopNow := 1 } : Girth).droopNow ≠ 0) ∧
    (({ step := .frozenUp, target := 2 } : Girth).target ≠ ({ step := .frozenUp, target := 2 } : Girth).stepTo ∧
      (∀ b, ({ step := .frozenUp, rampDone := b } : Girth).target = ({ step := .frozenUp, rampDone := b } : Girth).stepTo) ∧
      ({ step := .frozenDown } : Girth).target = ({ step := .frozenDown } : Girth).stepTo) ∧
    (({ squallHeld := true } : Girth).squallHeld = true ∧ ({ squallHeld := true } : Girth).squallLow = false ∧ ({ squallLow := true } : Girth).squallLow = true ∧
      ({} : Girth).squallHeld = false) := by
  refine ⟨by decide, ?_, ?_, by decide, by decide, by decide, ⟨by decide, fun _ => rfl, by decide⟩, by decide⟩
  · rintro b g rfl; exact ⟨rfl, rfl, show 0 ≠ 1 by decide, rfl, rfl⟩
  · rintro p (rfl | rfl | rfl | rfl | rfl | rfl) <;> rfl

theorem witness_GirthHeatAndGates : (2 ^ 18 - 1 < 2 ^ 18 ∧ 2 ^ 17 - 1 < 2 ^ 17) ∧ (({ disturbed := true } : Girth).disturbed = true ∧ ({} : Girth).heldCycles = 0) ∧
    (∀ g, g = ({ heldCycles := 1, heldSum := 2000 } : Girth) → g.disturbed = false ∧ g.heldCycles ≠ 0 ∧ 2000 * g.heldCycles ≤ g.heldSum ∧ g.step = .idle) ∧
    (104 < 105 ∧ ({ throttle := true } : Girth).throttle = true ∧ 0 < ({ thTarget := 95 } : Girth).thTarget) ∧
    (({} : Girth).hot = false ∧ ({} : Girth).state = 0 ∧ 105 ≤ 111 ∧ 111 < 112 ∧ 112 < 256) ∧
    ((powerSys { gated := true } {}).mayGate 0 = false ∧ ({ powerSys { gated := false } {} with bridle := { doms := [{ stalls := 1 }] } } : Sys).mayGate 0 = true) ∧
    ((powerSys { gated := false } {}).wantsWake 0 = false ∧ (∀ n, n = 0 ∨ n = 1 ∨ n = 2 → (powerSys { gated := true } { state := n }).wantsWake 0 = true)) ∧
    (((powerSys { waking := true } {}).stall 0).waking = true ∧ ((powerSys {} {}).stall 0).waking = false) ∧
    (({ state := 1, moving := 1 } : Girth).state = 1 ∧ ({ state := 1, moving := 1 } : Girth).moving = 1) ∧
    (∀ y, y = ({ girth := { state := 1 }, pipe0 := { st := .still } } : Sys) → y.girth.state = 1 ∧ y.girth.moving = 0 ∧ y.pipe0.st = .still ∧
      y.pipe0.suRun = none ∧ y.pipe0.su = none ∧ y.pipe1.st = .off) ∧
    (State.reset.sys.girth.state ≠ 1 ∧ ({ girth := { state := 2, moving := 3 } } : Sys).link.stillHeld = []) ∧
    (3000 ≤ 3000 % 2 ^ 17 ∧ 100000 % 2 ^ 17 ≤ 100000 ∧ 2999 % 2 ^ 17 < 3000 ∧ 100000 < 100001 % 2 ^ 17) ∧
    (fld 12 1 3 < 7 ∧ bitAt ({ opMask := 64 } : Girth).opMask (fld 12 1 3) = true ∧ fld 14 1 3 = 7 ∧ bitAt ({} : Girth).opMask (fld 12 1 3) = false) ∧
    (fld 0x36 0 3 ≠ 7 ∧ fld 0x36 3 3 ≠ 7 ∧ fld 7 0 3 = 7 ∧ fld 0x38 3 3 = 7) := by
  refine ⟨by decide, by decide, ?_, by decide, by decide, ⟨by decide +kernel, by decide +kernel⟩, ⟨by decide +kernel, ?_⟩, by decide, by decide, ?_, by decide, by decide,
    by decide, by decide⟩
  · rintro g rfl; decide
  · rintro n (rfl | rfl | rfl) <;> decide +kernel
  · rintro y rfl; decide

/-! ### Statements 17_duo_and_fault_handling: the Duo -/

/-- A die of a TEAM (1) or TANDEM (2) with one channel's memory. -/
def duoSys (config : Nat) (u : Duo) : Sys := { glob := { config := config, ready := true }, duo := u, mem := { domChans := [1] } }

theorem witness_DuoRows_forming : State.reset.sys.glob.config = 0 ∧ (duoSys 1 { st := 1 }).glob.config ≠ 0 ∧ (∀ n, n = 0 ∨ n = 1 ∨ n = 2 ∨ n = 3 → (duoSys 2 { st := n }).duo.st = n) ∧
    ((duoSys 1 {}).glob.ready = true ∧ (duoSys 1 {}).duo.split = false ∧ (duoSys 1 { hold := true, st := 3 }).duo.hold = true ∧
      (duoSys 1 { split := true }).duo.split = true) ∧
    (∀ r e, r = 1 ∨ r = 2 → ∀ u, u = ({ role := r, peerLive := true, epoch := e } : Duo) → u.role = r ∧ u.peerLive = true ∧ u.epoch = e ∧ (duoSys 2 u).flt.dieCalm = false) ∧
    ({} : Duo).epoch ≠ 2 ^ 32 - 1 ∧ ({} : Duo).peerLive = false ∧
    (∀ e, ∀ y, y = duoSys 2 { role := 1, peerLive := true, claims := [2], epoch := e } → y.glob.config ≠ 0 ∧ y.duo.role = 1 ∧ y.duo.peerLive = true ∧
      y.duo.claims.head? = some 2 ∧ y.duo.hold = false ∧ y.flt.dieCalm = false ∧ y.duo.epoch = e) ∧
    ¬ (State.reset.sys.glob.config ≠ 0) ∧
    (bitAt 1 0 ≠ (duoSys 2 {}).glob.duoId ∧ bitAt 0 0 = (duoSys 2 {}).glob.duoId ∧ (2 = (duoSys 2 {}).glob.config ∧ 1 ≠ (duoSys 2 {}).glob.config) ∧
      [] ≠ (duoSys 2 {}).glob.patternDigest ∧ Nat.land 1 (duoSys 1 {}).validMask = 0 ∧ Nat.land 1 boardSys.validMask ≠ 0) := by
  refine ⟨by decide, by decide, ?_, by decide, ?_, by decide, by decide, ?_, by decide, by decide⟩
  · rintro n (rfl | rfl | rfl | rfl) <;> rfl
  · rintro r e _ u rfl; exact ⟨rfl, rfl, rfl, rfl⟩
  · rintro e y rfl; exact ⟨show 2 ≠ 0 by decide, rfl, rfl, rfl, rfl, rfl, rfl⟩

theorem witness_DuoRows_messages : (0 < 2 ^ 32 ∧ bitAt 8 7 = false ∧ (duoSys 2 { epoch := 4 }).duo.epoch < 5 ∧ 3 < (duoSys 2 { epoch := 4 }).duo.epoch ∧
      4 = (duoSys 2 { epoch := 4 }).duo.epoch ∧ ({ flt := { dieCalm := true } } : Sys).flt.dieCalm = true) ∧
    ((duoSys 2 { st := 3, role := 1 }).duo.st = 3 ∧ (duoSys 2 { st := 3, role := 1 }).beamFollows = true ∧ (duoSys 1 { st := 3, role := 2 }).beamFollows = false) ∧
    (∀ y, y = duoSys 1 { st := 3 } → y.flt.dieCalm = false ∧ (y.mem.memEnd - 56) + 56 ≤ y.mem.memEnd ∧ y.mem.memEnd < y.mem.memEnd + 56 ∧
      y.mem.fails .host 0 56 = none ∧ y.sealed 0 256 = false ∧ y.duo.hm.readOf 1023 = none) ∧
    ((tget {} ({ mbox := [(255, { pending := true, tag := 9 })] } : Stall).mbox 255 : Mbox).pending = true ∧
      (tget {} ({ mbox := [(255, { pending := true, tag := 9, orphan := true })] } : Stall).mbox 255 : Mbox).orphan = true ∧
      (tget {} ({} : Stall).mbox 0 : Mbox).pending = false ∧ ({ tag := 9 } : Mbox).tag ≠ 8) ∧
    (∀ u, u = ({ st := 3, role := 2, waiting := [(5, 0, 77)] } : Duo) → (duoSys 2 u).glob.config = 2 ∧ u.role = 2 ∧ u.st = 3 ∧ u.alone = false ∧
      u.waiting.find? (fun w => w.1 == 5) = some (5, 0, 77) ∧ u.waiting.find? (fun w => w.1 == 6) = none) ∧
    (1023 < 1024 ∧ 0 < 256 ∧ 0xF00 % 4096 + 256 ≤ 4096) ∧ (List.replicate 256 (0 : Byte)).length = 256 ∧
    ({ reads := [⟨3, 0, 0, 64, 4⟩] } : Module).readOf 3 = some ⟨3, 0, 0, 64, 4⟩ := by
  refine ⟨by decide, by decide, ?_, by decide, ?_, by decide, List.length_replicate, by decide⟩
  · rintro y rfl; decide +kernel
  · rintro u rfl; decide

/-! ### Statements 18_determinism_and_security, 19_register_index -/

/-- Slot 0 with a model; job 0 RUNNING with one region of 64 bytes at 0. -/
def secSys (m : Model) (h : List HashReq) : Sys :=
  { readySys {} with sec := { models := [(0, m)], eng0 := h.head?, brands := [(0, { st := 1, entries := [⟨0, 64, 1⟩] })] }, work := { jobs := [(0, { st := 2 })] } }

theorem witness_SecurityRows : (∀ m, m = ({ regAddr := 64, regLen := 2 } : Model) → (secSys m []).sec.modelSel = 0 ∧ (secSys m []).model 0 = m ∧
      (secSys m []).regionDom m.regAddr (64 * m.regLen) = some 0 ∧ m.st = 0 ∧ m.regAddr % 64 = 0 ∧ (secSys m []).namers 0 = [] ∧
      ((secSys m []).sec.models.any fun p => p.1 != 0 && p.2.st != 0 && decide (p.2.addr < 64 + 128 ∧ 64 < p.2.addr + 64 * p.2.len)) = false) ∧
    (secSys {} []).regionDom (2 ^ 40) 64 = none ∧ ({ st := 1 } : Model).st ≠ 0 ∧ ({ regAddr := 32 } : Model).regAddr % 64 ≠ 0 ∧
    ((({ models := [(1, { st := 2, addr := 128, len := 1 })] } : Sec).models.any fun p => p.1 != 0 && p.2.st != 0 && decide (p.2.addr < 64 + 128 ∧ 64 < p.2.addr + 64 * p.2.len)) = true) ∧
    ({ secSys {} [] with sec := { brands := [(0, { entries := [⟨0, 0, 3⟩] })] } } : Sys).namers 0 ≠ [] ∧
    (∀ m, m = ({ st := 1, len := 1 } : Model) → (secSys m []).hashing (.seal 0) = false ∧ (secSys m [.seal 0]).hashing (.seal 0) = true ∧ ((secSys m [.seal 0]).model 0).st = 1 ∧
      (((secSys m [.seal 0]).hashDone (.seal 0)).hashRead m.addr (64 * m.len)).2.isSome = true ∧
      (({ secSys m [.seal 0] with mem := { (readySys {}).mem with bad := [0] } } : Sys).hashDone (.seal 0) |>.hashRead m.addr (64 * m.len)).2.isSome = false) ∧
    (∀ b, ((secSys {} [.region 0 0 b]).brandOf 0).entries[0]? = some ⟨0, 64, 1⟩ ∧ (secSys {} [.region 0 0 b]).hashing (.region 0 0 b) = true ∧
      (secSys {} []).hashing (.region 0 0 b) = false ∧ (((secSys {} [.region 0 0 b]).hashDone (.region 0 0 b)).hashRead 0 64).2.isSome = true ∧
      (({ secSys {} [.region 0 0 b] with mem := { (readySys {}).mem with bad := [0] } } : Sys).hashDone (.region 0 0 b) |>.hashRead 0 64).2.isSome = false) ∧
    ((secSys {} []).glob.ready = true ∧ (secSys {} []).sec.attSt ≠ 1 ∧ ({ attSt := 1 } : Sec).attSt = 1 ∧ State.reset.sys.glob.ready = false ∧
      ((sysState { link := up }).sys.module 0).st = 3) := by
  refine ⟨?_, by decide +kernel, by decide, by decide, by decide, by decide, ?_, ?_, by decide⟩
  · rintro m rfl; decide +kernel
  · rintro m rfl; decide +kernel
  · rintro (_ | _) <;> decide +kernel

theorem witness_ClearedCounters : 63 < 64 ∧ 1 < 2 ∧ State.reset.sys.glob.config ≠ 2 := by decide

/-! ### Numbers and digests, by hand from the formats -/

/-- SHAKE256 of the empty message begins 46 B9 DD 2B (the algorithm's published value). -/
theorem test_shake_empty : Shake.shake256 4 [] = [0x46, 0xB9, 0xDD, 0x2B] := by decide +kernel
/-- 1 + 2^-24 ties to even downward, and the next number up ties upward. -/
theorem test_fadd_ties_to_even : fAdd 0x3F800000 0x33800000 = 0x3F800000 ∧ fAdd 0x3F800001 0x33800000 = 0x3F800002 := by decide +kernel
/-- Half the smallest normal number is subnormal, not zero; the largest number doubled is infinity. -/
theorem test_fmul_ends : fMul 0x00800000 0x3F000000 = 0x00400000 ∧ fMul 0x7F7FFFFF 0x40000000 = 0x7F800000 := by decide +kernel
/-- (1 + 2^-23)² − (1 + 2^-22) is 2^-46 when rounded once. -/
theorem test_ffma_rounds_once : fFma 0x3F800001 0x3F800001 0xBF800002 = 0x28800000 := by decide +kernel
/-- 1/3 rounded to nearest. -/
theorem test_fdiv_third : fDiv 0x3F800000 0x40400000 = 0x3EAAAAAB := by decide +kernel

/-! ### Further witnesses: the clauses that the witnesses above leave -/

theorem witness_DomainsReadAndClrRejects : State.reset.sys.girth.state = 0 := rfl

/-- An amendment that brings new PERMITS and nothing else. -/
def permitMessage : List Byte := bytesOf (
  fill 48 [0x4E525450, 1, 16480, 0x10B, 0, 0, 0, 0, 0, 192, 0, 0, 0, 0, 0, 0, 192, 16, 0, 0, 0, 0, 0, 0, 0, 0, 0, 0, 256, 16224] ++ fill 16 [1000, 0, 1, 1])

def permitImage : List Byte := permitMessage ++ zeroSig

theorem test_permit_parts : patParts permitImage = some (permitMessage, zeroSig) := by
  have h0 : wordAt permitImage 0 = 0x4E525450 := by decide +kernel
  have h2 : wordAt permitImage 2 = 16480 := by decide +kernel
  have lm : permitMessage.length = 256 := by decide +kernel
  have li : permitImage.length = 16480 := by unfold permitImage; rw [List.length_append, lm, zeroSig_length]; rfl
  have e : (16480 - sigBytes : Nat) = permitMessage.length := by rw [lm]; rfl
  unfold patParts
  simp only [h0, h2, li, e]
  rw [if_pos (by rw [lm]; decide)]
  unfold permitImage
  rw [List.take_left' rfl, List.drop_left' rfl, List.take_of_length_le (by rw [zeroSig_length])]

/-- A die that has taken that amendment. -/
def amending (idle : Bool) (d : List Byte) (g : Girth) (held : Nat) : State :=
  { State.reset with
    boot := { image := permitImage, amendIdle := idle, queueWords := fill 64 [0x101] ++ [1, 0, 1], permitWords := [1000, 0, 1, 1] }
    sys := { glob := { amendState := 1, patternDigest := d }, bridle := { doms := [{ stalls := 1, contexts := 1 }] }, girth := g,
             cons := { pools := [(0, { held := held })] } } }

theorem witness_Amendments_rejected : amendError (amending true [1] {} 0).boot.rootKey (amending true [1] {} 0).loaded (amending true [1] {} 0).boot.image ≠ 0 := by
  show amendError _ _ permitImage ≠ 0
  unfold amendError
  rw [test_permit_parts]
  dsimp only
  split
  · decide
  · rw [if_pos (by decide +kernel)]; decide

theorem witness_Amendments_accepted (h : ∀ n k m s, Config.slhVerify n k m s = true) (idle : Bool) (g : Girth) (held : Nat) :
    amendError [] (amending idle (List.replicate 32 0) g held).loaded permitImage = 0 ∧ secLen permitMessage 4 ≠ 0 ∧ fld (section_ permitMessage 4)[0]! 0 18 = 1000 := by
  refine ⟨?_, by decide +kernel, by decide +kernel⟩
  unfold amendError
  rw [test_permit_parts]
  simp only [signed, h, Bool.not_true, Bool.false_eq_true, if_false]
  show (if _ then _ else _) = _
  rw [if_neg (by show ¬ ((permitMessage.drop 128).take 32 != List.replicate 32 0) = true; decide +kernel), if_neg (by decide +kernel)]
  show (if (!wellFormedImage permitMessage || (present permitMessage).isEmpty ||
    !queuesOk [{ stalls := 1, contexts := 1 }] (fill 64 [0x101] ++ [1, 0, 1]) || !queueCountOk (fill 64 [0x101] ++ [1, 0, 1]) || !permitsOk (section_ permitMessage 4) || (secLen permitMessage 5 != 0 && _)) = true then 4 else 0) = 0
  rw [if_neg]
  rw [show (secLen permitMessage 5 != 0) = false by decide +kernel]
  rw [Bool.false_and, Bool.or_false]
  decide +kernel

theorem witness_Amendments_permits : (amending true [] { step := .voltageDown } 0).sys.girth.step ≠ .idle ∧ (amending true [] { step := .voltageDown } 0).sys.girth.step ≠ .forced ∧
    (amending true [] {} 1001).sys.girth.step = .idle ∧ 1000 < ((amending true [] {} 1001).sys.pool 0 0).held - 0 ∧
    ((amending true [] {} 1000).sys.pool 0 0).held - 0 ≤ 1000 ∧ (amending false [] {} 0).boot.amendIdle = false := by decide

theorem witness_ResetKinds_warm :
    (bootState { power := true, linked := true, phase := .halted, recordOk := true }).boot.recordOk = true ∧
    ((bootState { power := true, phase := .halted }).boot.phase = .halted ∧ (bootState { power := true, phase := .halted }).boot.recordOk = false) ∧
    (bootState { power := true, phase := .ready }).boot.phase ≠ .halted := by decide

theorem witness_FrameGeneration_held :
    (∀ y, y = ({ boardSys with mem := { domChans := [1] } } : Sys) → y.fgConfigOk = true ∧ (y.fgRegionsOk 0).2 = false) ∧
    (∀ y, y = ({ boardSys with fg := { boardSys.fg with held := [⟨0, 1, 0⟩, ⟨0, 2, 0⟩], bands := [(1, { gen := .cancelling })] }, bridle := { boardSys.bridle with tgs := [(5, { queue := 0, st := .beamWait })] } } : Sys) →
      y.fg.held = [⟨0, 1, 0⟩] ++ ⟨0, 2, 0⟩ :: [] ∧ (y.band 1).gen = .cancelling ∧ (y.band 2).gen ≠ .cancelling ∧ y.nextCommit 2 = 0 ∧ y.nextCommit 2 ≠ 1 ∧
      y.beamWaiter y.fg.genQ = some 5 ∧ y.beamWaiter y.fg.warpQ = none) := by
  refine ⟨?_, ?_⟩
  · rintro y rfl; decide +kernel
  · rintro y rfl; decide +kernel

theorem witness_HeadPackets_waits : (∀ y, y = runHead [6, 0, 4, 0, 9] →
      y.writeWaits 0 { words := [6, 0, 4, 0, 9], started := true, work := none } = false) ∧
    (∀ y, y = ({ runHead [6, 0, 4, 0, 9] with link := { m0 := { txq := [.mwr 0 0 (2 ^ 20 + 4) (leBytes 4 9)] } } } : Sys) →
      y.writeWaits 0 { words := [6, 0, 4, 0, 9], started := true, work := none } = true) := by
  refine ⟨?_, ?_⟩
  · rintro y rfl; decide +kernel
  · rintro y rfl; decide +kernel

theorem witness_TaskRows_forms : taskForm (taskWords (2 ^ 18) 0) = true ∧ (readySys {}).fg.openOn 0 = none ∧
    (∀ y, y = ({ runHead (taskWords (2 ^ 18) 0) with bridle := { (runHead (taskWords (2 ^ 18) 0)).bridle with ctxs := [(0, { valid := true, realtime := true })] } } : Sys) →
      mayRun y = true ∧ (y.ctx (y.queue 0).ctx).realtime = true) := by
  refine ⟨by decide, rfl, ?_⟩
  rintro y rfl; decide

theorem witness_KernelRows_prefetch : (State.reset.sys.module (State.reset.sys.moduleOf 0)).st = 0 ∧
    (∀ y, y = ({ readySys {} with link := up } : Sys) → (y.module (y.moduleOf 0)).st ≠ 0 ∧
      good (y.vwrite none 0 8192 (Cells.read y.hostCells 4096 64) (some 0)).2 = true ∧ good (y.vwrite none 0 (2 ^ 21) [0] (some 0)).2 = false) := by
  refine ⟨by decide, ?_⟩
  rintro y rfl; decide +kernel

theorem witness_JobCommands_copies :
    (∀ y, y = ({ jobSys 3 0 with cores := [(0, { st := .running, run := some { tg := 0, sliver := 0 } })], bridle := { tgs := [(0, {})] } } : Sys) →
      ((y.saveArea 0).standAgain).notStopped 0 = true) ∧
    (((jobSys 3 0).saveArea 0).standAgain.notStopped 0 = false ∧ (((jobSys 3 0).saveArea 0).standAgain.job 0).resumeHeld = false) ∧
    (∀ y, y = ({ jobSys 2 0 with sec := { brands := [(0, { st := 3 })] } } : Sys) → (y.job 0).st = 2 ∧ (y.brandOf 0).st = 3) := by
  refine ⟨?_, by decide +kernel, ?_⟩
  · rintro y rfl; decide +kernel
  · rintro y rfl; decide

theorem witness_JobRegisters_stalls : State.reset.sys.enabled 63 = false ∧ (sysState { glob := { stallEn := 2 ^ 63 } }).sys.enabled 63 = true := by decide

theorem witness_WaitsAndBoundaries_overrun : ∀ w : Wait, w = .ticket 3 ∨ w = .none ∨ w = .tile ∨ w = .fence →
    ∀ s, s = onCore { runWith 0 with wait := w } {} {} → ∃ r, (s.sys.core 0).run = some r ∧ r.wait = w ∧ r.cmds = [] ∧ (s.sys.core 0).st = .running ∧
      (s.sys.core 0).frozen = false := by
  intro w _ s hs; subst hs; exact ⟨_, rfl, rfl, rfl, rfl, rfl⟩

/-- A sliver that runs with EXACT=0. -/
def loose : Run := { runWith 0x100 with exact := false }

theorem witness_EngineCommands_stealing : (onCore loose (lsAt 0x100 emmaWords) {}).Issues 0 loose ∧ loose.exact = false ∧ (runWith 0).exact = true ∧
    (∀ y, y = (onCore loose (lsAt 0x100 emmaWords) {}).sys.interlock 0 0 0x4000 → (y.core 0).run = some loose ∧
      ((parseEmma (y.lsRead 0 0x100 16)).bind fun d => captureEmma (fun a n => y.lsRead 0 a n) d 0 0 0).isSome = true) := by
  refine ⟨onCore_issues _ _ _ rfl, rfl, rfl, ?_⟩
  rintro y rfl; decide +kernel

theorem witness_ConvolutionCommands_stealing : ∀ s, s = onCore loose (lsAt 0 (fill 64 [] ++ econvWords 0 1 1)) { eng := 1, setgs := true } →
    s.Issues 0 loose ∧ ((s.sys.interlock 0 0 0x4000).core 0).run = some loose ∧ (convD s).ok = true ∧ (convD s).edge = true ∧ (convD s).empty = false ∧
    (s.sys.tg loose.tg).setgs = true := by
  intro s hs
  subst hs
  exact ⟨onCore_issues _ _ _ rfl, by decide +kernel⟩

/-- A remote request to entry 0 or 64 bytes further on, of a die of a TEAM whose entry 0 is m (R286). -/
def remoteState (m : Mbox) : State :=
  let s := onCore (runWith 0x100) (lsAt 0x100 (fill 16 [2 * 8 + 1 * 32, 4, 1, 0, 0, 8, 0, 0xFC000, 0])) {}
  { s with sys := { s.sys with
      glob := { config := 1 }, stalls := [(0, { mbox := [(0, m)] })],
      mem := { tlb := [{ ctx := 0, va := 0, lg := 21, pa := peerBase, write := true, host := false, noalloc := false }] } } }

theorem witness_DmaRows_remote : (remoteState {}).Issues 0 (runWith 0x100) ∧ (((remoteState {}).sys.interlock 0 0x100 64).core 0).run = some (runWith 0x100) ∧
    ((remoteState {}).sys.remoteOf 0 (dmaXfer (remoteState {}))).map (·.1) = some 0 ∧ (dmaXfer (remoteState {})).formOk = true ∧
    tget {} ((remoteState {}).sys.stall 0).mbox 0 = {} ∧ tget {} ((remoteState { full := true }).sys.stall 0).mbox 0 = { full := true } ∧
    tget {} ((remoteState { pending := true }).sys.stall 0).mbox 0 = { pending := true } :=
  ⟨⟨rfl, rfl, rfl, rfl, rfl⟩, by decide +kernel⟩

theorem witness_DmaRows_convert : ∀ y, y = ({ readySys {} with mem := { (readySys {}).mem with host := [(0, 1)] } } : Sys) →
    ((y.vread (some 0) 0 0 96).2.toOption.bind parseQRec).isSome = true ∧ (y.tg 0).tallies = [] ∧ (0 : Nat) % 32 = 0 := by
  rintro y rfl; decide +kernel

theorem witness_SemaphoreRows_waits : (∀ h ∈ ([⟨.sliver 0 0, 1⟩] : List SemHold), (onCore (runWith 0) {} {}).sys.holderRuns h.who = true) ∧
    (sysState { bridle := { holdLimit := 1 } }).sys.bridle.holdLimit ≠ 0 ∧
    (∀ y, y = ({ headSys [5, 2] { st := 2 } with bridle := { queues := [(0, { isOpen := true, slots := [{ words := [5, 2], started := true, work := some 0 }] })] } } : Sys) →
      y.semPacketOf 2 0 = some 0) := by
  refine ⟨by decide, by decide, ?_⟩
  rintro y rfl; decide

theorem witness_RasterRows_waits : (rasterSys {}).domainUp 10 = true ∧ (sysState { glob := { domainsRun := 0 } }).sys.domainUp 10 = false ∧
    (∀ n, n = 0 ∨ n = 2 → ∀ y, y = ({ rasterSys {} with cons := { pools := [(poolKey 5 0, { total := n, free := n })] } } : Sys) →
      (n = 2 → ({ frontPass 0 with growing := true, need := 2 } : Pass).need ≤ (y.pool 5 (y.passDom (frontPass 0))).free) ∧
      (n = 0 → (y.pool 5 (y.passDom (frontPass 0))).free < 2)) ∧
    (∀ p : Pass, p = { aPass with shots := [(0, 0)], owners := [(0, { issued := [aFrag] })] } → p.shots.contains (aFrag.draw, aFrag.batch) = true ∧
      (tget {} p.owners 0).record 0 0 = [aFrag] ∧ p.fail = none) := by
  refine ⟨by decide, by decide, ?_, ?_⟩
  · rintro n (rfl | rfl) y rfl <;> decide
  · rintro p rfl; decide +kernel

theorem witness_VisionRows_up : (visionSys 0 0 {}).domainUp 11 = true := by decide +kernel

theorem witness_DispatchAndSaves_rest : (∀ y, y = dispSys (fullCores { st := .running, run := some lowRun }) →
      (∀ p ∈ y.cores, ∀ r, p.2.run = some r → ∀ n, r.wait ≠ .sem n) ∧ (y.core 0).frozen = false ∧ lowRun.pre = none) ∧
    (∀ r, r = { lowRun with pre := some { cand := some (.fresh 5), prio := 0, granules := 2, live := 64 } } →
      ∀ y, y = dispSys [(0, { st := .saving, run := some r, frozen := true })] → ∀ q ∈ y.cores, q.2.stands = false ∧ q.1 = 0) ∧
    (∀ y, y = dispSys [(0, { st := .restoring, resume := some 9 })] → ∀ q ∈ y.cores, q.2.stands = false) ∧
    (∀ y, y = ({ dispSys (fullCores { st := .running, run := some lowRun }) with stalls := [(0, { gated := false, saveFree := 0 })] } : Sys) →
      y.freeCores 0 = [] ∧ y.candidates 0 0 = [.fresh 5] ∧ y.lowerCores 0 0 (.fresh 5) = [(0, lowRun)] ∧
      (y.stall 0).saveFree < saveGranules lowRun.live (y.tg lowRun.tg).eng ∧ ∀ p, 0 < p → p < 8 → y.candidates 0 p = []) := by
  refine ⟨?_, ?_, ?_, ?_⟩
  · rintro y rfl
    refine ⟨?_, rfl, rfl⟩
    intro p hp r hr n
    simp only [dispSys, fullCores, List.mem_cons, List.mem_map] at hp
    rcases hp with rfl | ⟨k, _, rfl⟩
    · cases hr; exact fun h => nomatch h
    · cases hr
  · rintro r rfl y rfl; decide
  · rintro y rfl; decide
  · rintro y rfl; refine ⟨by decide +kernel, by decide +kernel, by decide +kernel, by decide +kernel, ?_⟩
    intro p h0 h8
    have : p = 1 ∨ p = 2 ∨ p = 3 ∨ p = 4 ∨ p = 5 ∨ p = 6 ∨ p = 7 := by omega
    rcases this with rfl | rfl | rfl | rfl | rfl | rfl | rfl <;> decide +kernel

theorem witness_PipeRows_more : (∀ y, y = ({ pipeSys {} { en := true } with pipe0 := pllxPipe } : Sys) → (y.pipe 0).en = false ∧ (y.pipe 0).present = true ∧
      y.glob.ready = true ∧ y.pipesBarred = false ∧ (y.pipe 0).needsPllx 0 = true ∧ (y.pipe 1).en = true ∧ (y.pipe 1).needsPllx 1 = true) ∧
    (pipeSys {} {}).domainUp 12 = true ∧ (sysState { glob := { domainsRun := 0 } }).sys.domainUp 12 = false ∧ (pipeSys {} {}).fetchDue 0 7 = true ∧
    (∀ y, y = ({ pipeSys { st := .active } {} with beam := { master := 0, source := 0 } } : Sys) → y.fetchDue 0 7 = false ∧ y.fg.en = false) ∧
    ({ en := true, stopping := true } : Fg).stopping = true ∧ ({ st := .training } : Pipe).auxOwn = false := by
  refine ⟨?_, by decide, by decide, by decide, ?_, rfl, rfl⟩
  · rintro y rfl; decide
  · rintro y rfl; decide

theorem witness_AuxRows_own : ({ auxOwn := true, auxSt := 1 } : Pipe).auxOwn = true ∧ ({ auxSt := 1 } : Pipe).auxOwn = false ∧
    ({ auxOwn := true } : Pipe).auxSt ≠ 1 ∧ ({ auxOwn := true, auxDefer := true } : Pipe).auxDefer = true ∧ ({ auxOwn := true } : Pipe).auxDefer = false := by decide

theorem witness_MemoryAndFaultRows_pass : (rasterSys { active := some aPass }).raster.active = some aPass := rfl

theorem witness_GirthHeatAndGates_breeze : ({ bridle := { breeze := [3] } } : Sys).bridle.breeze ≠ [] := by decide

theorem witness_DuoRows_teams : (duoSys 2 { st := 4 }).duo.st = 4 ∧ (0 = (duoSys 2 {}).beam.frame ∧ 1 ≠ (duoSys 2 {}).beam.frame) ∧
    (∀ y, y = ({ dispSys [] with glob := { config := 1, ready := true, stallEn := 1 }, duo := { st := 3, role := 1 } } : Sys) → y.duo.role = 1 ∧ y.tgReady 5 = true ∧ (y.tg 5).head = some 0 ∧
      y.coreFree 7 = true) := by
  refine ⟨rfl, by decide, ?_⟩
  rintro y rfl; decide

theorem witness_ClearedCounters_stalls : State.reset.sys.enabled 63 = false ∧ (readySys {}).enabled 0 = true ∧
    (({ readySys {} with link := up } : Sys).module 0).st = 3 ∧ ({ readySys {} with link := up } : Sys).inStill = false := by decide

end Sys2Proof.Tests
end

/-! ### Status codes of one completion (R11, R12) -/

namespace Sys2Proof.Machine

/-- The order of R12: a code of an earlier group goes first, and within a group the numerically higher one. -/
def Outranks (a b : Nat) : Prop := statusGroup a < statusGroup b ∨ (statusGroup a = statusGroup b ∧ b ≤ a)

theorem Outranks.refl (a : Nat) : Outranks a a := .inr ⟨rfl, le_rfl⟩

theorem Outranks.trans {a b c : Nat} (hab : Outranks a b) (hbc : Outranks b c) : Outranks a c := by
  unfold Outranks at *; omega

theorem Outranks.group_le {a b : Nat} (h : Outranks a b) : statusGroup a ≤ statusGroup b := by
  unfold Outranks at h; omega

theorem Outranks.le_of_group_eq {a b : Nat} (h : Outranks a b) (e : statusGroup a = statusGroup b) : b ≤ a := by
  unfold Outranks at h; omega

theorem statusJoin_eq_or (a b : Nat) : statusJoin a b = a ∨ statusJoin a b = b := by
  unfold statusJoin; split_ifs <;> omega

theorem statusJoin_outranks_left (a b : Nat) : Outranks (statusJoin a b) a := by
  unfold statusJoin Outranks
  split_ifs
  · exact .inr ⟨rfl, le_rfl⟩
  · exact .inl ‹_›
  · rcases max_choice a b with e | e <;> rw [e] <;> omega

theorem statusJoin_outranks_right (a b : Nat) : Outranks (statusJoin a b) b := by
  unfold statusJoin Outranks
  split_ifs
  · exact .inl ‹_›
  · exact .inr ⟨rfl, le_rfl⟩
  · rcases max_choice a b with e | e <;> rw [e] <;> omega

theorem foldl_statusJoin_mem (cs : List Nat) (a : Nat) : cs.foldl statusJoin a ∈ a :: cs := by
  induction cs generalizing a with
  | nil => exact List.mem_singleton_self a
  | cons b cs ih =>
    rcases List.mem_cons.mp (ih (statusJoin a b)) with h | h
    · rw [List.foldl_cons, h]
      rcases statusJoin_eq_or a b with e | e <;> simp [e]
    · exact List.mem_cons_of_mem a (List.mem_cons_of_mem b h)

theorem foldl_statusJoin_outranks (cs : List Nat) (a : Nat) : ∀ c ∈ a :: cs, Outranks (cs.foldl statusJoin a) c := by
  induction cs generalizing a with
  | nil => simpa using Outranks.refl a
  | cons b cs ih =>
    obtain ⟨hjoin, hrest⟩ := List.forall_mem_cons.mp (ih (statusJoin a b))
    exact List.forall_mem_cons.mpr ⟨hjoin.trans (statusJoin_outranks_left a b),
      List.forall_mem_cons.mpr ⟨hjoin.trans (statusJoin_outranks_right a b), hrest⟩⟩

/-- The reported status is 0x00 or one of those that apply. -/
theorem statusOf_mem (cs : List Nat) : statusOf cs = 0 ∨ statusOf cs ∈ cs := List.mem_cons.mp (foldl_statusJoin_mem cs 0)

/-- The reported status outranks every one that applies. -/
theorem statusOf_outranks {cs : List Nat} {c : Nat} (h : c ∈ cs) : Outranks (statusOf cs) c :=
  foldl_statusJoin_outranks cs 0 c (List.mem_cons_of_mem 0 h)

theorem statusGroup_eq_zero_iff {c : Nat} : statusGroup c = 0 ↔ c = 0x10 ∨ 0x30 ≤ c := by
  unfold statusGroup; split_ifs <;> simp <;> omega

theorem statusGroup_eq_one_iff {c : Nat} : statusGroup c = 1 ↔ c = 0x01 := by
  unfold statusGroup; split_ifs <;> simp <;> omega

theorem statusGroup_eq_two_iff {c : Nat} : statusGroup c = 2 ↔ c = 0x02 := by
  unfold statusGroup; split_ifs <;> simp <;> omega

theorem statusGroup_le_three (c : Nat) : statusGroup c ≤ 3 := by
  unfold statusGroup; split_ifs <;> omega

/-- A reported status outside the last group is one of those that apply. -/
theorem statusOf_mem_of_group_lt {cs : List Nat} (h : statusGroup (statusOf cs) < 3) : statusOf cs ∈ cs := by
  rcases statusOf_mem cs with e | hmem
  · rw [e] at h; exact absurd h (by decide)
  · exact hmem

/-- The statement's filter keeps the codes of R12's first group. -/
theorem mem_filter_highGroup {cs : List Nat} {c : Nat} :
    c ∈ cs.filter (fun c => c == 0x10 || decide (0x30 ≤ c)) ↔ c ∈ cs ∧ statusGroup c = 0 := by
  simp [statusGroup_eq_zero_iff]

end Sys2Proof.Machine

section
open Sys2Proof.Machine

/-- Settles O27: the fold of `statusJoin` reports a code that outranks every other, and each group of R12 is one value of `statusGroup`. -/
theorem statusJoining : Obligations.StatusJoining := by
  rintro cs - hi rfl
  have best : ∀ c ∈ cs, Outranks (statusOf cs) c := fun c hc => statusOf_outranks hc
  refine ⟨fun hne => ?_, fun hnil h1 => ?_, fun hnil h1 h2 => ?_, fun hnil h1 h2 => ?_⟩
  · obtain ⟨d, hd⟩ := List.exists_mem_of_ne_nil _ hne
    obtain ⟨hdcs, hd0⟩ := mem_filter_highGroup.mp hd
    have h0 : statusGroup (statusOf cs) = 0 := Nat.le_zero.mp (hd0 ▸ (best d hdcs).group_le)
    refine ⟨mem_filter_highGroup.mpr ⟨statusOf_mem_of_group_lt (by omega), h0⟩, fun c hc => ?_⟩
    obtain ⟨hccs, hc0⟩ := mem_filter_highGroup.mp hc
    exact (best c hccs).le_of_group_eq (h0.trans hc0.symm)
  all_goals
    have nohigh : ∀ c ∈ cs, statusGroup c ≠ 0 := fun c hc e => List.not_mem_nil (hnil ▸ mem_filter_highGroup.mpr ⟨hc, e⟩)
  · have hle : statusGroup (statusOf cs) ≤ 1 := (best 1 h1).group_le
    have := nohigh _ (statusOf_mem_of_group_lt (by omega))
    exact statusGroup_eq_one_iff.mp (by omega)
  · have hle : statusGroup (statusOf cs) ≤ 2 := (best 2 h2).group_le
    have hmem : statusOf cs ∈ cs := statusOf_mem_of_group_lt (by omega)
    have := nohigh _ hmem
    have : statusGroup (statusOf cs) ≠ 1 := fun e => h1 (statusGroup_eq_one_iff.mp e ▸ hmem)
    exact statusGroup_eq_two_iff.mp (by omega)
  · have low : ∀ c ∈ cs, statusGroup c = 3 := fun c hc => by
      have := nohigh c hc
      have : statusGroup c ≠ 1 := fun e => h1 (statusGroup_eq_one_iff.mp e ▸ hc)
      have : statusGroup c ≠ 2 := fun e => h2 (statusGroup_eq_two_iff.mp e ▸ hc)
      have := statusGroup_le_three c
      omega
    refine ⟨statusOf_mem cs, fun c hc => (best c hc).le_of_group_eq ?_⟩
    rcases statusOf_mem cs with e | hmem
    · rw [e, low c hc]; decide
    · rw [low _ hmem, low c hc]
end

/-! ### Accesses of registers (R4, R5) -/

namespace Sys2Proof.Machine

/-! #### Where the 64-bit registers lie -/

/-- No 64-bit register lies on a command of the global block, nor has its high word there. -/
theorem Sys.wideReg_notCommand {y : Sys} {o v : Nat} (h : y.wideReg o = some v) :
    (o ≠ 0x18 ∧ o ≠ 0x2C ∧ o ≠ 0x34 ∧ o ≠ 0x38) ∧ (o + 4 ≠ 0x18 ∧ o + 4 ≠ 0x2C ∧ o + 4 ≠ 0x34 ∧ o + 4 ≠ 0x38) := by
  have none_of : ∀ k ∈ [0x14, 0x18, 0x28, 0x2C, 0x30, 0x34, 0x38], y.wideReg k = none := by
    simp [Sys.wideReg, tfind]
  have : o ∉ [0x14, 0x18, 0x28, 0x2C, 0x30, 0x34, 0x38] := fun hk => by simp [none_of o hk] at h
  simp only [List.mem_cons, List.not_mem_nil, or_false] at this
  omega

/-! #### Reads and their latch -/

/-- A read of the low word returns it and latches the high word (R5). -/
theorem State.hostRead_wideLow {s : State} {o v : Nat} (ho : o % 4 = 0) (hv : s.sys.wideReg o = some v) :
    s.hostRead o 4 = (v % 2 ^ 32, s.modSys fun y => y.modGlob fun g => { g with hiLatch := tset g.hiLatch o (v / 2 ^ 32 % 2 ^ 32) }) := by
  simp only [State.hostRead, ho, State.readWord, State.peek, hv]
  rfl

/-- A read of the high word returns what the latch holds (R5). -/
theorem State.hostRead_wideHigh {s : State} {o x : Nat} (ho : o % 4 = 0) (hlow : (s.sys.wideReg o).isSome = true)
    (hhigh : s.sys.wideReg (o + 4) = none) (hx : tfind s.sys.glob.hiLatch o = some x) : (s.hostRead (o + 4) 4).1 = x := by
  obtain ⟨v, hv⟩ := Option.isSome_iff_exists.mp hlow
  have ho4 : (o + 4) % 4 = 0 := by omega
  simp [State.hostRead, ho4, State.readWord, hhigh, hv, hx]

/-! #### Writes -/

/-- Away from the global block's commands a write of a word acts on the blocks alone and is counted at most once. -/
theorem State.writeWord_block {o : Nat} (h w : Nat) (s : State) (ho : o ≠ 0x18 ∧ o ≠ 0x2C ∧ o ≠ 0x34 ∧ o ≠ 0x38) :
    s.writeWord h o w = s.modSys fun y => (y.writeAt s.boot.cause h o w).countOnce y.glob.rejects := by
  obtain ⟨hclr, hload, hreset, hcause⟩ := ho
  unfold State.writeWord
  split
  · exact absurd rfl hclr
  · exact absurd rfl hload
  · exact absurd rfl hreset
  · exact absurd rfl hcause
  · rfl

/-- A write that is not forwarded is the write of the word (R391). -/
theorem State.hostWriteReg_notForwarded {h o w : Nat} {s : State} (ho : o % 4 = 0) (hf : forwarded o = false ∨ s.sys.glob.config ≠ 2)
    (hc : (s.writeWord h o w).sys.glob.config = s.sys.glob.config) : s.hostWriteReg h o w 4 = s.writeWord h o w := by
  unfold State.hostWriteReg
  rw [if_neg (by simp [ho])]
  split
  · have hcfg : s.sys.glob.config ≠ 2 := hf.resolve_left (by simp [*])
    have hw : s.sys.mirrorWorker = false := by simp [Sys.mirrorWorker, hcfg]
    simp only [hw, State.modSys, Sys.mirrored_plain (hc ▸ hcfg : (s.writeWord h o w).sys.glob.config ≠ 2)]
    rfl
  · rfl

/-- A write of the high word is held (R5). -/
theorem Sys.writeAt_wideHigh {y : Sys} {o v : Nat} (cause h w : Nat) (hv : y.wideReg o = some v) (hhigh : y.wideReg (o + 4) = none) :
    y.writeAt cause h (o + 4) w = y.highWrite o w := by
  simp [Sys.writeAt, hhigh, hv]

/-- A write of the low word commits the held high word with it (R5). -/
theorem Sys.writeAt_wideLow {y : Sys} {o v : Nat} (cause h w : Nat) (hv : y.wideReg o = some v) :
    y.writeAt cause h o w = (y.modGlob fun g => { g with hiHeld := tdel g.hiHeld o }).wideWrite o
      (w % 2 ^ 32 + 2 ^ 32 * (tfind y.glob.hiHeld o).getD (v / 2 ^ 32)) := by
  simp [Sys.writeAt, Sys.lowWrite, hv]

@[simp] theorem Sys.reject_config (y : Sys) : y.reject.glob.config = y.glob.config := rfl

@[simp] theorem Sys.countOnce_config (r : Nat) (y : Sys) : (y.countOnce r).glob.config = y.glob.config := by
  unfold Sys.countOnce; split <;> rfl

theorem Sys.countOnce_self (y : Sys) (r : Nat) (h : y.glob.rejects = r) : y.countOnce r = y := if_pos h.le

theorem tfind_mem {α : Type} {t : Tab α} {k : Nat} {v : α} (h : tfind t k = some v) : (k, v) ∈ t := by
  induction t with
  | nil => cases h
  | cons p t ih =>
    obtain ⟨i, w⟩ := p
    simp only [tfind] at h
    split at h
    · cases h; simp [*]
    · exact List.mem_cons_of_mem _ (ih h)

/-- A table of writes keeps the configuration when each of its entries does. -/
theorem Writes.run_config {t : Writes} (ht : ∀ p ∈ t, ∀ z : Sys, (p.2 z).glob.config = z.glob.config) (o : Nat) (y : Sys) :
    (t.run o y).glob.config = y.glob.config := by
  unfold Writes.run
  split
  · exact ht _ (tfind_mem ‹_›) y
  · rfl

@[simp] theorem Sys.modJob_glob (y : Sys) (j : Nat) (f : Job → Job) : (y.modJob j f).glob = y.glob := rfl

@[simp] theorem Sys.modModel_glob (k : Nat) (f : Model → Model) (y : Sys) : (y.modModel k f).glob = y.glob := rfl

@[simp] theorem Sys.modPipe_glob (n : Nat) (f : Pipe → Pipe) (y : Sys) : (y.modPipe n f).glob = y.glob := by
  unfold Sys.modPipe; split <;> rfl

@[simp] theorem Sys.fgRwi_config (f : Fg → Fg) (y : Sys) : (y.fgRwi f).glob.config = y.glob.config := by
  unfold Sys.fgRwi; split <;> rfl

@[simp] theorem Sys.qcfgBase_config (v : Nat) (y : Sys) : (y.qcfgBase v).glob.config = y.glob.config := by
  unfold Sys.qcfgBase; dsimp only; split <;> rfl

/-- No write of a 64-bit register changes SOLO, TEAM or TANDEM. -/
@[simp] theorem Sys.wideWrite_config (o v : Nat) (y : Sys) : (y.wideWrite o v).glob.config = y.glob.config := by
  unfold Sys.wideWrite
  split
  · dsimp only; split <;> rfl
  · split
    · dsimp only; split <;> rfl
    · refine Writes.run_config ?_ o y
      simp [apply_ite Sys.glob, apply_ite Glob.config, roW]

/-- Four of the 64-bit registers are plain: they read what is written to them. -/
theorem Sys.wideReg_wideWrite {o : Nat} (x : Nat) (y : Sys) (ho : o = 0x24 ∨ o = 0x400020 ∨ o = 0x410020 ∨ o = 0x9000E0) :
    (y.wideWrite o x).wideReg o = some x := by
  rcases ho with rfl | rfl | rfl | rfl <;> rfl

/-- A write of the high word is held and changes nothing else (R5). -/
theorem State.hostWriteReg_wideHigh {s : State} {o v : Nat} (h w : Nat) (ho : o % 4 = 0)
    (hf : forwarded (o + 4) = false ∨ s.sys.glob.config ≠ 2) (hv : s.sys.wideReg o = some v) (hhigh : s.sys.wideReg (o + 4) = none) :
    s.hostWriteReg h (o + 4) w 4 = s.modSys (Sys.highWrite o w) := by
  have hword : s.writeWord h (o + 4) w = s.modSys (Sys.highWrite o w) := by
    rw [State.writeWord_block h w s (Sys.wideReg_notCommand hv).2]
    simp only [State.modSys, Sys.writeAt_wideHigh _ h w hv hhigh]
    rw [Sys.countOnce_self (Sys.highWrite o w s.sys) s.sys.glob.rejects rfl]
  rw [State.hostWriteReg_notForwarded (by omega) hf (by rw [hword]; rfl), hword]

/-- A write of the low word commits both halves in one write, counted at most once (R5, R26). -/
theorem State.hostWriteReg_wideLow {s : State} {o v : Nat} (h w : Nat) (ho : o % 4 = 0)
    (hf : forwarded o = false ∨ s.sys.glob.config ≠ 2) (hv : s.sys.wideReg o = some v) :
    s.hostWriteReg h o w 4 = s.modSys fun y => ((y.modGlob fun g => { g with hiHeld := tdel g.hiHeld o }).wideWrite o
      (w % 2 ^ 32 + 2 ^ 32 * (tfind y.glob.hiHeld o).getD (v / 2 ^ 32))).countOnce y.glob.rejects := by
  have hword := State.writeWord_block h w s (Sys.wideReg_notCommand hv).1
  simp only [State.modSys, Sys.writeAt_wideLow _ h w hv] at hword
  rw [State.hostWriteReg_notForwarded ho hf (by rw [hword]; simp), hword]
  rfl

/-! #### The rows that carry a 64-bit write -/

theorem exec_reg64HighWrite {o : Nat} (w : Nat) (s : State) (ho : o + 4 < 2 ^ 26) :
    exec (.reg64HighWrite o w) s = .next (s.hostWriteReg 0 (o + 4) (w % 2 ^ 32) 4) := by
  change Host.Outcome.next _ = _
  rw [Nat.mod_eq_of_lt (by omega : o < 2 ^ 26)]

theorem exec_reg64LowWrite {o : Nat} (w : Nat) (s : State) (ho : o < 2 ^ 26) :
    exec (.reg64LowWrite o w) s = .next (s.hostWriteReg 0 o (w % 2 ^ 32) 4) := by
  change Host.Outcome.next _ = _
  rw [Nat.mod_eq_of_lt ho]

/-! #### A read that lets a queued write go -/

/-- The device is READY, module 0 is UP, and in its transmit queue stands a write of four bytes to host memory whose credits are free. Such a write is
left there by `Sys.ctxCalm`, when it drops a larger write of another context that stood before it (R315). -/
def writeQueued : State :=
  { State.reset with sys := { State.reset.sys with
      glob := { State.reset.sys.glob with ready := true }
      link := { State.reset.sys.link with m0 := { State.reset.sys.link.m0 with st := 3, txq := [.mwr 0 0 0 (leBytes 4 9)] } }
      cons := { State.reset.sys.cons with pools := [(poolKey 1 0, Pool.init 32), (poolKey 1 1, Pool.init 512)] } } }

/-- The completion of the read stands behind the write (R324), and the write leaves with it. -/
theorem writeQueued_read_writes_host : ∃ t, exec (.reg64LowRead 0 0 0 4) writeQueued = .next t ∧
    Cells.get t.sys.mem.host 0 = 9 ∧ Cells.get writeQueued.sys.mem.host 0 = 0 := ⟨_, rfl, by decide, by decide⟩

end Sys2Proof.Machine

section
open Sys2Proof.Machine

/-- Settles O10: the window takes the wide register's branch at its two words, and no wide write changes CONFIG, so nothing is forwarded. -/
theorem wideRegisterProtocol : Obligations.WideRegisterProtocol := by
  refine ⟨?_, ?_, ?_, fun o x y ho => Sys.wideReg_wideWrite x y ho⟩
  · intro o v s t ho hs ht hthigh _ hlatch
    rw [State.hostRead_wideLow ho hs] at hlatch ⊢
    refine ⟨rfl, State.hostRead_wideHigh ho ht hthigh ?_⟩
    rw [hlatch]
    exact tfind_tset_same _ _ _
  · intro o w v s hlt ho hf hv hhigh
    rw [exec_reg64HighWrite w s hlt, State.hostWriteReg_wideHigh 0 _ ho hf hv hhigh]
    simp only [State.modSys, Sys.highWrite, Sys.modGlob, Nat.mod_mod]
  · rintro o w v _ s hlt ho hf hv rfl
    rw [exec_reg64LowWrite w s hlt, State.hostWriteReg_wideLow 0 _ ho hf hv]
    simp only [State.modSys, Sys.modGlob, Nat.mod_mod]
    cases tfind s.sys.glob.hiHeld o <;> rfl

/-- Refutes O9: a read is answered behind the writes that wait on its module (R324), so it can let such a write go, and host memory changes. -/
theorem not_oddWidthWriteRejected : ¬ Obligations.OddWidthWriteRejected := by
  intro h
  obtain ⟨-, haligned⟩ := h 0 0 0 0 4 0 writeQueued (by decide) (by decide) rfl rfl
  obtain ⟨t, hread, -, -, hmem, -⟩ := haligned rfl
  obtain ⟨t', hread', hnew, hold⟩ := writeQueued_read_writes_host
  obtain rfl : t' = t := by rw [hread] at hread'; cases hread'; rfl
  rw [hmem, hold] at hnew
  exact absurd hnew (by decide)
end

/-! ### GLOBAL_DOMAINS and CLR_REJECTS (R26, R27) -/

namespace Sys2Proof.Machine

/-- A register of the global block that is no word of a 64-bit one reads its row of the block's table, and no latch moves. -/
theorem State.hostRead_global {s : State} {o : Nat} (ho : o % 4 = 0) (hglob : o < 0x100000) (hlow : s.sys.wideReg o = none)
    (hhigh : s.sys.wideReg (o - 4) = none) : s.hostRead o 4 = (tget 0 s.globRead o, s) := by
  have hpeek : s.peek o = tget 0 s.globRead o := by
    simp only [State.peek, hlow, hhigh, ite_self, if_pos hglob]
  have hread : s.readWord o = (s.peek o, s) := by
    simp only [State.readWord, hlow, hhigh, ite_self]
    rw [if_neg (by omega), if_neg (by omega), if_neg (by omega), if_neg (by omega), if_neg (by omega), if_neg (by omega), if_neg (by omega),
      if_neg (by omega)]
  simp only [State.hostRead, ho, hread, hpeek, ne_eq, not_true_eq_false, or_self, if_false]

/-- The row of GLOBAL_DOMAINS: RUN in bits 16 to 0, the TAP in bit 17 (R26). -/
theorem State.globRead_domains (s : State) :
    tget 0 s.globRead 0x10 = s.sys.domainsNow % 2 ^ 17 + (if s.tap.reset then 0 else 2 ^ 17) := by
  have hrow : tget 0 s.globRead 0x10 = put s.sys.domainsNow 0 17 + putb (!s.tap.reset) 17 := rfl
  have htap : putb (!s.tap.reset) 17 = if s.tap.reset then 0 else 2 ^ 17 := by cases s.tap.reset <;> rfl
  rw [hrow, htap, put, pow_zero, Nat.mul_one]

/-- Neither GLOBAL_DOMAINS nor the word before it begins a 64-bit register. -/
theorem Sys.wideReg_domains (y : Sys) : y.wideReg 0x10 = none ∧ y.wideReg (0x10 - 4) = none := ⟨rfl, rfl⟩

/-- Outside LULL and STILL every started domain runs (R377). -/
theorem Sys.domainsNow_of_on {y : Sys} (h : y.girth.state = 0) : y.domainsNow = y.glob.domainsRun := by
  simp only [Sys.domainsNow, h]

/-- CLR_REJECTS always completes, and writes COUNT alone. -/
theorem exec_clrRejects (same : Bool) (s : State) :
    exec (.clrRejects same) s = .next (s.modSys fun y => y.modGlob fun g => { g with rejects := clrCount same }) := rfl

end Sys2Proof.Machine

section
open Sys2Proof.Machine

/-- Settles O11: GLOBAL_DOMAINS is a word of its own in the global block, read with no latch, and CLR_REJECTS leaves `clrCount` in COUNT. -/
theorem domainsReadAndClrRejects : Obligations.DomainsReadAndClrRejects := by
  refine ⟨fun s => ⟨?_, Sys.domainsNow_of_on⟩, exec_clrRejects⟩
  obtain ⟨hlow, hhigh⟩ := s.sys.wideReg_domains
  rw [State.hostRead_global rfl (by decide) hlow hhigh, State.globRead_domains]
end

/-! ### CSR numbers (R458) -/

namespace Sys2Proof.Machine

/-! #### The number that imm14 spells -/

/-- A number outside the sixteen, negative ones included, is 16 or more as bits. -/
theorem sixteen_le_toNat_iff {i : BitVec 14} : 16 ≤ i.toNat ↔ i.toInt < 0 ∨ 15 < i.toInt := by
  have := i.isLt
  rw [BitVec.toInt_eq_toNat_cond]
  split <;> omega

/-- A number from 0 to 15 is the same with and without its sign. -/
theorem toNat_of_toInt_nonneg {i : BitVec 14} (h : 0 ≤ i.toInt) : (i.toNat : Int) = i.toInt := by
  have := i.isLt
  rw [BitVec.toInt_eq_toNat_cond] at h ⊢
  split at h <;> omega

/-! #### What CSRR and CSRW do with a number -/

theorem exec_csrr (c d : Nat) (i : BitVec 14) (s : State) : exec (.csrr c d i) s = execCsrr c d i s := rfl

theorem exec_csrw (c a : Nat) (i : BitVec 14) (s : State) : exec (.csrw c a i) s = execCsrw c a i s := rfl

/-- A reserved number shows 0. -/
theorem Sys.csr_reserved {k : Nat} (h : 11 ≤ k) (y : Sys) (r : Run) : y.csr r k = 0 := by
  unfold Sys.csr
  split <;> omega

section
variable {c : Nat} {i : BitVec 14} {s : State} {r : Run}

/-- CSRR of a number past the sixteen ends the sliver. -/
theorem csrr_outside (d : Nat) (h : s.Issues c r) (hi : 16 ≤ i.toNat) :
    exec (.csrr c d i) s = .next { s with sys := s.sys.sliverEnd c 0x10 false } := by
  rw [exec_csrr, execCsrr, onSys_awl h, if_pos hi]
  rfl

/-- CSRR of any of the sixteen but ACC_SAT puts what the CSR shows in xd and goes on. -/
theorem csrr_shows (d : Nat) (h : s.Issues c r) (g : r.GoesOn (r.pc + 4)) (hi : i.toNat < 16) (hsat : i.toNat ≠ 9) :
    exec (.csrr c d i) s = .next (s.putRun c { r.setx d (BitVec.ofNat 32 (s.sys.csr r i.toNat)) with pc := r.pc + 4 }) := by
  rw [exec_csrr, execCsrr, onSys_awl h, if_neg (Nat.not_le.mpr hi)]
  simp only [if_neg hsat, h.run]
  rw [retire_setx g]

/-- CSRW of a number that is not LIVE, ROUND, SEED or TENSOR ends the sliver. -/
theorem csrw_notWritable (a : Nat) (h : s.Issues c r) (hi : i.toNat < 5 ∨ 8 < i.toNat) :
    exec (.csrw c a i) s = .next { s with sys := s.sys.sliverEnd c 0x10 false } := by
  rw [exec_csrw, execCsrw, onSys_awl h]
  dsimp only
  split
  · omega
  · omega
  · omega
  · omega
  · rfl

end

end Sys2Proof.Machine

section
open Sys2Proof.Machine

/-- Settles O40: a number outside the sixteen is 16 or more as bits, and a reserved one shows 0 and is not among the four that can be written. -/
theorem csrNumbers : Obligations.CsrNumbers := by
  intro c d a i s r h
  refine ⟨fun hout => ?_, fun hlow hhigh => ?_⟩
  · have hi : 16 ≤ i.toNat := sixteen_le_toNat_iff.mpr hout
    exact ⟨csrr_outside d h hi, csrw_notWritable a h (by omega)⟩
  · have hi : (i.toNat : Int) = i.toInt := toNat_of_toInt_nonneg (by omega)
    refine ⟨fun g => ?_, csrw_notWritable a h (by omega)⟩
    rw [csrr_shows d h g (by omega) (by omega), Sys.csr_reserved (by omega)]
    rfl
end

/-! ### The order of bring-up (R41 to R46) -/

namespace Sys2Proof.Machine

/-- At reset the die stands in POWER_UP, without power, record or link. -/
theorem reset_bootOrder : State.reset.BootOrder :=
  ⟨fun h => absurd rfl h, fun _ => ⟨rfl, rfl⟩, nofun, nofun, nofun, nofun, nofun⟩

/-- The state after reset, but module 0 stands trained and the host's INIT with no credits comes: the bring-up block, all that the invariant speaks of, is
as reset left it. -/
def unpoweredTrained : State :=
  { State.reset with
    pending := [.hostInit 0 0 0 0]
    sys := { State.reset.sys with link := { State.reset.sys.link with m0 := { st := 2 } } } }

theorem unpoweredTrained_bootOrder : unpoweredTrained.BootOrder :=
  ⟨fun h => absurd rfl h, fun _ => ⟨rfl, rfl⟩, nofun, nofun, nofun, nofun, nofun⟩

/-- An INIT with too few credits halts bring-up (R325), power or not. -/
theorem step_unpoweredTrained : ∃ t, step unpoweredTrained = .next t ∧ t.boot.phase = .halted ∧ t.boot.power = false := ⟨_, rfl, rfl, rfl⟩

theorem step_cons (c : Instr) (rest : List Instr) (s : State) : step { s with pending := c :: rest } = exec c { s with pending := rest } := rfl

/-- Without power an idle step changes nothing (log entry 35). -/
theorem step_unpowered {s : State} (hq : s.pending = []) (hp : s.boot.power = false) : step s = .next s := by
  simp [step, hq, State.idle, hp]

end Sys2Proof.Machine

section
open Sys2Proof.Machine

/-- Refutes O4: the invariant does not tie module 0 to the bring-up block, and HOST_INIT with too few credits halts bring-up without asking for power. -/
theorem not_bootOrderKept : ¬ Obligations.BootOrderKept := by
  intro h
  obtain ⟨t, hstep, hphase, hpower⟩ := step_unpoweredTrained
  have hkept := h _ t unpoweredTrained_bootOrder hstep
  have := hkept.powered (by rw [hphase]; decide)
  simp [hpower] at this

/-- Settles O3: none of the phases the invariant guards is POWER_UP. -/
theorem bootOrderReset : Obligations.BootOrderReset := reset_bootOrder

/-- Settles O1. -/
theorem stepRunsFront : Obligations.StepRunsFront := ⟨step_cons, fun _ => step_unpowered⟩

/-- Settles O8: each word of the window is read off the reset state. -/
theorem resetRegisters : Obligations.ResetRegisters := by
  refine ⟨?_, rfl, rfl, rfl, rfl⟩
  simp only [List.forall_mem_cons]
  exact ⟨rfl, rfl, rfl, rfl, rfl, rfl, rfl, rfl, rfl, rfl, rfl, rfl, rfl, rfl, rfl, by simp⟩
end

/-! ### What every command leaves: the queue, the TAP, HALTED (R43, R45, R455) -/

namespace Sys2Proof.Machine
open Sys2Proof

/-! #### The queue and the TAP -/

/-- From s to t neither the queue nor the TAP has changed. -/
structure State.Beside (s t : State) : Prop where
  pending : t.pending = s.pending
  tap : t.tap = s.tap

namespace State.Beside
variable {s t u : State}

theorem refl (s : State) : s.Beside s := ⟨rfl, rfl⟩

theorem trans (a : s.Beside t) (b : t.Beside u) : s.Beside u := ⟨b.pending.trans a.pending, b.tap.trans a.tap⟩

theorem sys (y : Sys) (a : s.Beside t) : s.Beside { t with sys := y } := ⟨a.pending, a.tap⟩

theorem boot (b : Boot) (a : s.Beside t) : s.Beside { t with boot := b } := ⟨a.pending, a.tap⟩

theorem modSys (f : Sys → Sys) (a : s.Beside t) : s.Beside (t.modSys f) := ⟨a.pending, a.tap⟩

theorem modBoot (f : Boot → Boot) (a : s.Beside t) : s.Beside (t.modBoot f) := ⟨a.pending, a.tap⟩

theorem ite {p : Prop} [Decidable p] (a : s.Beside t) (b : s.Beside u) : s.Beside (if p then t else u) := by split <;> assumption

theorem foldl {α : Type} {f : State → α → State} (h : ∀ (s : State) a, s.Beside (f s a)) (l : List α) (s : State) : s.Beside (l.foldl f s) := by
  induction l generalizing s with
  | nil => exact refl s
  | cons a l ih => exact (h s a).trans (ih _)

end State.Beside

section
variable (s : State)

theorem State.step2_beside (pll : Bool) : s.Beside (s.step2 pll) := by unfold State.step2; split <;> exact ⟨rfl, rfl⟩

theorem State.loadFw_beside (image : List Byte) : s.Beside (s.loadFw image) := by unfold State.loadFw; split <;> exact ⟨rfl, rfl⟩

theorem State.loadPattern_beside (image : List Byte) : s.Beside (s.loadPattern image) := by unfold State.loadPattern; split <;> exact ⟨rfl, rfl⟩

theorem State.amend_beside (image : List Byte) : s.Beside (s.amend image) := by unfold State.amend; split <;> exact ⟨rfl, rfl⟩

theorem State.tryReady_beside : s.Beside s.tryReady := by unfold State.tryReady; split <;> exact ⟨rfl, rfl⟩

theorem State.reload_beside (k : Nat) : s.Beside (s.reload k) :=
  .ite (.modSys _ (.refl s)) (.modBoot _ (.modSys _ (.refl s)))

theorem State.warm_beside (k : Nat) (pin pll : Bool) : s.Beside (s.warm k pin pll) := by
  refine .ite (.refl s) (.ite (.modBoot _ (.ite (.modSys _ ?_) ?_)) (.trans (.modSys _ (.modBoot _ ?_)) (State.step2_beside _ pll)))
  all_goals exact .modBoot _ (.modSys _ (.refl s))

theorem State.loadWrite_beside (w : Nat) : s.Beside (s.loadWrite w) :=
  .sys _ (.ite (s.loadFw_beside _) (.ite (s.loadPattern_beside _) (.ite (s.amend_beside _) (.refl s))))

theorem State.resetWrite_beside (w : Nat) : s.Beside (s.resetWrite w) :=
  .ite (.refl s) (.ite (s.warm_beside _ _ _) (.ite (s.reload_beside _) (.refl s)))

theorem State.writeWord_beside (h o w : Nat) : s.Beside (s.writeWord h o w) := by
  unfold State.writeWord
  split
  · exact .ite ⟨rfl, rfl⟩ (.refl s)
  · exact s.loadWrite_beside w
  · exact s.resetWrite_beside w
  · exact ⟨rfl, rfl⟩
  · exact ⟨rfl, rfl⟩

theorem State.hostWriteReg_beside (h o w size : Nat) : s.Beside (s.hostWriteReg h o w size) :=
  .ite ⟨rfl, rfl⟩ (.ite (.ite ⟨rfl, rfl⟩ (.sys _ (s.writeWord_beside h o w))) (s.writeWord_beside h o w))

/-- A read moves latches of the run-time blocks alone. -/
theorem State.hostRead_sys (o size : Nat) : ∃ y, (s.hostRead o size).2 = { s with sys := y } := by
  unfold State.hostRead
  split
  · exact ⟨s.sys, rfl⟩
  · unfold State.readWord
    dsimp only
    repeat' split
    all_goals exact ⟨_, rfl⟩

/-- An answered read acts on the run-time blocks alone. -/
theorem State.answerRead_sys (m tag o size : Nat) : ∃ y, s.answerRead m tag o size = { s with sys := y } := by
  obtain ⟨y, h⟩ := s.hostRead_sys o size
  unfold State.answerRead
  dsimp only
  rw [h]
  exact ⟨_, rfl⟩

theorem State.answerRead_beside (m tag o size : Nat) : s.Beside (s.answerRead m tag o size) := by
  obtain ⟨y, h⟩ := s.answerRead_sys m tag o size
  exact h ▸ ⟨rfl, rfl⟩

theorem HeldReq.apply_beside (h : HeldReq) : s.Beside (h.apply s) := by
  unfold HeldReq.apply
  split
  · exact s.hostWriteReg_beside _ _ _ _
  · exact s.answerRead_beside _ _ _ _
  · exact ⟨rfl, rfl⟩
  · exact ⟨rfl, rfl⟩

end

end Sys2Proof.Machine

namespace Sys2Proof

/-- The rows that change the TAP: its own six, and POWER_ON. -/
def Instr.setsTap : Instr → Bool
  | .tapReset | .tapExitTestLogicReset _ | .jtagBypass _ | .jtagSamplePreload _ _ | .jtagExtest _ _ | .jtagIdcode | .pwrgoodFall | .supplyFault => true
  | _ => false

/-- The rows of bring-up and of register accesses: those whose effect may reach past the run-time blocks, the TAP's and POWER_ON apart. -/
def Instr.reachesBoot : Instr → Bool
  | .registerWrite _ _ _ _ | .reg64LowRead _ _ _ _ | .reg64HighWrite _ _ | .reg64LowWrite _ _ | .mirror _ _ _ | .dieStillExitDone
  | .pwrgoodRise _ _ _ | .recordReadDone _ _ | .pufIdentityDone _ _ | .recordVerifyDone _ | .linkTrainDone _ _ | .hostInit _ _ _ _
  | .loadFw _ | .firmwareVerifyDone | .loadPattern _ | .patternCheckDone | .applyPllLockDone _ | .stallInitDone | .memTrainDone _ _
  | .amend _ | .amendmentEnd | .globalResetWarm | .globalResetReload | .resetPinLow _ | .autoReloadExpire => true
  | _ => false

end Sys2Proof

namespace Sys2Proof.Machine
open Sys2Proof

/-- Every other row acts on the run-time blocks alone. -/
theorem exec_sysOnly {c : Instr} (ht : c.setsTap = false) (hb : c.reachesBoot = false) (s : State) :
    ∃ y, exec c s = .next { s with sys := y } := by
  cases c
  all_goals try contradiction
  case ghostTick =>
    change ∃ y, execGhostTick s = _
    unfold execGhostTick
    split <;> exact ⟨_, rfl⟩
  all_goals exact ⟨_, rfl⟩

/-- The command's outcome is a next state beside which the queue and the TAP stand as before. -/
def AnswersBeside (s : State) (o : Res) : Prop := ∃ t, o = .next t ∧ s.Beside t

section
variable (s : State)

theorem AnswersBeside.next {s t : State} (h : s.Beside t) : AnswersBeside s (.next t) := ⟨t, rfl, h⟩

theorem AnswersBeside.ite {s : State} {p : Prop} [Decidable p] {a b : Res} (ha : AnswersBeside s a) (hb : AnswersBeside s b) :
    AnswersBeside s (if p then a else b) := by split <;> assumption

theorem execRecordVerifyDone_beside (block : List Byte) : AnswersBeside s (execRecordVerifyDone block s) := by
  have hkey : ∀ k : Option (List Byte), s.Beside (match k with
      | some key => (s.modBoot fun b => { b with rootKey := key }).modSys fun y => y.modSec fun c => { c with keyOk := true }
      | none => s) := fun k => by cases k <;> exact ⟨rfl, rfl⟩
  refine .ite (.next (.refl s)) (.ite (.next (.modBoot _ (hkey _))) ?_)
  split
  · exact .next (hkey _)
  · exact .next (.modBoot _ (.modSys _ (.modBoot _ (hkey _))))

theorem execMemTrainDone_beside (failed : Nat) (densities : List Nat) : AnswersBeside s (execMemTrainDone failed densities s) :=
  .ite (.next (.refl s)) (.ite (.next (.modBoot _ (.modSys _ (.refl s))))
    (.next (.trans (.modBoot _ (.modSys _ (.modSys _ (.refl s)))) (State.tryReady_beside _))))

theorem execStallInitDone_beside : AnswersBeside s (execStallInitDone s) :=
  .ite (.next (.refl s)) (.next (.trans (.modBoot _ (.modSys _ (.refl s))) (State.tryReady_beside _)))

theorem State.amendEnd_beside (reason : Nat) : s.Beside (s.amendEnd reason) := .modSys _ (.modBoot _ (.refl s))

theorem State.amended_beside (msg : List Byte) : s.Beside (s.amended msg) := ⟨rfl, rfl⟩

theorem execAmendmentEnd_beside : AnswersBeside s (execAmendmentEnd s) := by
  refine .ite (.next (.refl s)) ?_
  dsimp only
  split
  · exact .next (s.amendEnd_beside 4)
  · exact .ite (.next (s.amendEnd_beside _)) (.ite (.next (s.amendEnd_beside 3)) (.ite (.next (.refl s)) (.ite (.next (s.amendEnd_beside 6))
      (.next ((s.amended_beside _).trans (State.amendEnd_beside _ 0))))))

end

/-- Every row but the TAP's and POWER_ON answers a next state with the queue and the TAP as they were. -/
theorem exec_beside {c : Instr} (ht : c.setsTap = false) (s : State) : AnswersBeside s (exec c s) := by
  cases hb : c.reachesBoot
  case false =>
    obtain ⟨y, h⟩ := exec_sysOnly ht hb s
    exact ⟨_, h, .sys y (.refl s)⟩
  case true =>
    cases c
    case registerWrite m o w n =>
      exact .ite (.next (.refl s)) (.next (.ite (.modSys _ (.modSys _ (.refl s))) (.trans (.modSys _ (.refl s)) (State.hostWriteReg_beside _ _ _ _ _))))
    case reg64LowRead m t o n =>
      exact .ite (.next (.refl s)) (.next (.ite (.modSys _ (.modSys _ (.refl s))) (.trans (.modSys _ (.refl s)) (State.answerRead_beside _ _ _ _ _))))
    case reg64HighWrite o w => exact .next (s.hostWriteReg_beside _ _ _ _)
    case reg64LowWrite o w => exact .next (s.hostWriteReg_beside _ _ _ _)
    case mirror a v d => exact .next (.ite (.ite (s.writeWord_beside _ _ _) (.modSys _ (.refl s))) (.refl s))
    case dieStillExitDone =>
      exact .ite (.next (.trans (.modSys _ (.refl s)) (.foldl (fun t h => h.apply_beside t) _ _))) (.next (.refl s))
    case pwrgoodRise a b pll =>
      exact .ite (.next (.refl s)) (.next (.trans (.modSys _ (.modBoot _ (.refl s))) (State.step2_beside _ pll)))
    case recordReadDone ok r => exact .ite (.next (.refl s)) (.ite (.next (.modBoot _ (.refl s))) (.next (.modBoot _ (.refl s))))
    case pufIdentityDone ok x => exact .ite (.next (.refl s)) (.ite (.next (.modSys _ (.modBoot _ (.refl s)))) (.next (.modBoot _ (.refl s))))
    case recordVerifyDone block => exact execRecordVerifyDone_beside s block
    case linkTrainDone ok pll =>
      exact .ite (.next (.refl s)) (.ite (.next (.modBoot _ (.refl s))) (.ite (.next (.modBoot _ (.refl s)))
        (.next (.modBoot _ (.modBoot _ (.modSys _ (.refl s)))))))
    case hostInit m a b d =>
      exact .ite (.next (.refl s)) (.ite (.next (.modSys _ (.refl s))) (.ite (.next (.modBoot _ (.modBoot _ (.refl s)))) (.next (.modSys _ (.refl s)))))
    case loadFw image => exact .next (s.loadFw_beside image)
    case loadPattern image => exact .next (s.loadPattern_beside image)
    case firmwareVerifyDone =>
      refine .ite (.next (.refl s)) ?_
      split <;> exact .next ⟨rfl, rfl⟩
    case patternCheckDone =>
      refine .ite (.next (.refl s)) (.ite (.next (.modBoot _ (.refl s))) ?_)
      split <;> exact .next ⟨rfl, rfl⟩
    case applyPllLockDone ok => exact .ite (.next (.refl s)) (.ite (.next (.modBoot _ (.refl s))) (.next (.modSys _ (.modBoot _ (.refl s)))))
    case stallInitDone => exact execStallInitDone_beside s
    case memTrainDone f d => exact execMemTrainDone_beside s f d
    case amend image => exact .next (s.amend_beside image)
    case amendmentEnd => exact execAmendmentEnd_beside s
    case globalResetWarm => exact .next (.ite (.refl s) (s.warm_beside _ _ _))
    case globalResetReload => exact .next (s.reload_beside 3)
    case resetPinLow pll => exact .next (s.warm_beside _ _ _)
    case autoReloadExpire => exact .next (.ite (s.reload_beside 4) (.refl s))
    all_goals contradiction

/-- Every row answers a next state and leaves the queue. -/
theorem exec_keepsQueue (c : Instr) (s : State) : ∃ t, exec c s = .next t ∧ t.pending = s.pending := by
  cases ht : c.setsTap
  case false =>
    obtain ⟨t, h, hs⟩ := exec_beside ht s
    exact ⟨t, h, hs.pending⟩
  case true =>
    cases c
    case tapExitTestLogicReset trst => exact ⟨_, rfl, by split <;> rfl⟩
    case jtagBypass tdi => exact ⟨_, rfl, by split <;> rfl⟩
    case jtagSamplePreload n l => exact ⟨_, rfl, by split <;> rfl⟩
    case jtagExtest n l => exact ⟨_, rfl, by split <;> rfl⟩
    case jtagIdcode => exact ⟨_, rfl, by split <;> rfl⟩
    case tapReset => exact ⟨_, rfl, rfl⟩
    case pwrgoodFall => exact ⟨_, rfl, rfl⟩
    case supplyFault => exact ⟨_, rfl, rfl⟩
    all_goals contradiction

end Sys2Proof.Machine

section
open Sys2Proof Sys2Proof.Machine

/-- Settles O2. -/
theorem execAnswersAndKeepsQueue : Obligations.ExecAnswersAndKeepsQueue := exec_keepsQueue

/-- Settles O7: every row outside `Instr.setsTap` stands beside the TAP. -/
theorem tapChangesByTapOnly : Obligations.TapChangesByTapOnly := by
  intro c s t h hne
  have ht : c.setsTap = true := by
    by_contra hf
    obtain ⟨u, hu, hs⟩ := exec_beside (Bool.eq_false_iff.mpr hf) s
    rw [h] at hu
    cases hu
    exact hne hs.tap
  cases c
  all_goals try contradiction
  all_goals simp
end

namespace Sys2Proof.Machine

/-! #### HALTED -/

/-- If s stands HALTED, so does t, with the record accepted or not as before. -/
def State.StaysHalted (s t : State) : Prop := s.boot.phase = .halted → t.boot.phase = .halted ∧ t.boot.recordOk = s.boot.recordOk

namespace State.StaysHalted
variable {s t u : State}

theorem refl (s : State) : s.StaysHalted s := fun h => ⟨h, rfl⟩

theorem trans (a : s.StaysHalted t) (b : t.StaysHalted u) : s.StaysHalted u := fun h => by
  obtain ⟨ha, ra⟩ := a h
  obtain ⟨hb, rb⟩ := b ha
  exact ⟨hb, rb.trans ra⟩

theorem modSys (f : Sys → Sys) (a : s.StaysHalted t) : s.StaysHalted (t.modSys f) := a

theorem ite {p : Prop} [Decidable p] (a : s.StaysHalted t) (b : s.StaysHalted u) : s.StaysHalted (if p then t else u) := by
  split <;> assumption

/-- What happens in another phase does not matter. -/
theorem ite_of_not {p : Prop} [Decidable p] (h : s.boot.phase = .halted → ¬ p) (b : s.StaysHalted u) : s.StaysHalted (if p then t else u) :=
  fun hs => by rw [if_neg (h hs)]; exact b hs

end State.StaysHalted

section
variable (s : State)

theorem State.loadFw_staysHalted (image : List Byte) : s.StaysHalted (s.loadFw image) := .ite_of_not (by simp +contextual) (.modSys _ (.refl s))

theorem State.loadPattern_staysHalted (image : List Byte) : s.StaysHalted (s.loadPattern image) :=
  .ite_of_not (by simp +contextual) (.modSys _ (.refl s))

theorem State.amend_staysHalted (image : List Byte) : s.StaysHalted (s.amend image) := fun h => by
  have : s.amend image = s.rejected := if_pos (.inl (by simp [h]))
  rw [this]
  exact ⟨h, rfl⟩

theorem State.reload_staysHalted (k : Nat) : s.StaysHalted (s.reload k) := fun h => by
  have : s.reload k = s.rejected := if_pos (by simp [h, Phase.reloads])
  rw [this]
  exact ⟨h, rfl⟩

theorem State.loadWrite_staysHalted (w : Nat) : s.StaysHalted (s.loadWrite w) :=
  .modSys _ (.ite (s.loadFw_staysHalted _) (.ite (s.loadPattern_staysHalted _) (.ite (s.amend_staysHalted _) (.refl s))))

/-- GLOBAL_RESET without WARM, or while a record halts bring-up (R455). -/
theorem State.resetWrite_staysHalted {w : Nat} (hw : s.recordHalt = true ∨ bitAt w 0 = false) : s.StaysHalted (s.resetWrite w) := by
  unfold State.resetWrite
  split
  · exact .refl s
  · rw [if_neg (by simp_all)]
    exact .ite (s.reload_staysHalted 3) (.refl s)

theorem State.writeWord_staysHalted {h o w : Nat} (hw : s.recordHalt = true ∨ ¬ (o = 0x34 ∧ bitAt w 0 = true)) :
    s.StaysHalted (s.writeWord h o w) := by
  unfold State.writeWord
  split
  · exact .ite (.modSys _ (.refl s)) (.refl s)
  · exact s.loadWrite_staysHalted w
  · exact s.resetWrite_staysHalted (by simpa using hw)
  · exact fun hs => ⟨hs, rfl⟩
  · exact .modSys _ (.refl s)

/-- A host write of one word leaves HALTED only as GLOBAL_RESET.WARM, and not while a record halts bring-up. -/
theorem State.hostWriteReg_staysHalted {h o w : Nat} (size : Nat) (hw : s.recordHalt = true ∨ ¬ (o = 0x34 ∧ bitAt w 0 = true)) :
    s.StaysHalted (s.hostWriteReg h o w size) :=
  .ite (.modSys _ (.refl s)) (.ite (.ite (.modSys _ (.refl s)) (.modSys _ (s.writeWord_staysHalted hw))) (s.writeWord_staysHalted hw))

theorem State.answerRead_staysHalted (m tag o size : Nat) : s.StaysHalted (s.answerRead m tag o size) := by
  obtain ⟨y, h⟩ := s.answerRead_sys m tag o size
  exact h ▸ fun hs => ⟨hs, rfl⟩

theorem State.StaysHalted.recordHalt {s t : State} (a : s.StaysHalted t) (h : s.recordHalt = true) : t.recordHalt = true := by
  simp only [State.recordHalt, Bool.and_eq_true, beq_iff_eq, Bool.not_eq_true'] at h ⊢
  obtain ⟨hp, hr⟩ := h
  obtain ⟨hp', hr'⟩ := a hp
  exact ⟨hp', hr'.trans hr⟩

theorem HeldReq.apply_staysHalted (q : HeldReq) (h : s.recordHalt = true) : s.StaysHalted (q.apply s) := by
  unfold HeldReq.apply
  split
  · exact s.hostWriteReg_staysHalted _ (.inl h)
  · exact s.answerRead_staysHalted _ _ _ _
  · exact .modSys _ (.refl s)
  · exact .modSys _ (.refl s)

/-- Requests held in STILL leave a bring-up halted that a record has halted. -/
theorem HeldReq.foldl_apply_staysHalted (l : List HeldReq) (h : s.recordHalt = true) : s.StaysHalted (l.foldl (fun s q => q.apply s) s) := by
  induction l generalizing s with
  | nil => exact .refl s
  | cons q l ih =>
    have hq := HeldReq.apply_staysHalted s q h
    exact hq.trans (ih _ (hq.recordHalt h))

end

end Sys2Proof.Machine

namespace Sys2Proof

/-- The rows that may hold GLOBAL_RESET: the carriers of a register write. -/
def Instr.carriesWrite : Instr → Bool
  | .registerWrite _ _ _ _ | .reg64HighWrite _ _ | .reg64LowWrite _ _ | .mirror _ _ _ | .dieStillExitDone => true
  | _ => false

/-- The rows that reset the die whatever its registers hold: the reset bump and POWER_ON. -/
def Instr.resetsAlways : Instr → Bool
  | .resetPinLow _ | .pwrgoodFall | .supplyFault => true
  | _ => false

end Sys2Proof

namespace Sys2Proof.Machine

/-- The outcome is a next state that is HALTED if the state before it was. -/
def AnswersHalted (s : State) (o : Res) : Prop := ∃ t, o = .next t ∧ s.StaysHalted t

namespace AnswersHalted
variable {s t : State} {a b : Res} {p : Prop} [Decidable p]

theorem next (h : s.StaysHalted t) : AnswersHalted s (.next t) := ⟨t, rfl, h⟩

theorem ite (ha : AnswersHalted s a) (hb : AnswersHalted s b) : AnswersHalted s (if p then a else b) := by split <;> assumption

/-- A row that does nothing outside its phase. -/
theorem phase (hp : p) : AnswersHalted s (if p then .next s else b) := if_pos hp ▸ .next (.refl s)

end AnswersHalted

section
variable {s : State}

theorem execAmendmentEnd_halted : AnswersHalted s (execAmendmentEnd s) := by
  have hend : ∀ (t : State) r, s.StaysHalted t → s.StaysHalted (t.amendEnd r) := fun t r h hs => h hs
  have hamended : ∀ msg, s.StaysHalted (s.amended msg) := fun msg hs => ⟨hs, rfl⟩
  refine .ite (.next (.refl s)) ?_
  dsimp only
  split
  · exact .next (hend s 4 (.refl s))
  · exact .ite (.next (hend s _ (.refl s))) (.ite (.next (hend s 3 (.refl s))) (.ite (.next (.refl s)) (.ite (.next (hend s 6 (.refl s)))
      (.next (hend _ 0 (hamended _))))))

theorem execHostInit_halted (m a b d : Nat) : AnswersHalted s (execHostInit m a b d s) :=
  .ite (.next (.refl s)) (.ite (.next (.modSys _ (.refl s))) (.ite (.next fun _ => ⟨rfl, rfl⟩) (.next (.modSys _ (.refl s)))))

/-- A carrier of a register write leaves a bring-up halted that a record has halted (R455). -/
theorem exec_carrier_halted {c : Instr} (hc : c.carriesWrite = true) (h : s.recordHalt = true) : AnswersHalted s (exec c s) := by
  cases c
  all_goals try contradiction
  case registerWrite m o w n =>
    exact .ite (.next (.refl s)) (.next (.ite (.modSys _ (.modSys _ (.refl s)))
      (.trans (.modSys _ (.refl s)) (State.hostWriteReg_staysHalted _ _ (.inl h)))))
  case reg64HighWrite o w => exact .next (s.hostWriteReg_staysHalted 4 (.inl h))
  case reg64LowWrite o w => exact .next (s.hostWriteReg_staysHalted 4 (.inl h))
  case mirror a v d => exact .next (.ite (.ite (s.writeWord_staysHalted (.inl h)) (.modSys _ (.refl s))) (.refl s))
  case dieStillExitDone =>
    exact .ite (.next (.trans (.modSys _ (.refl s)) (HeldReq.foldl_apply_staysHalted _ _ h))) (.next (.refl s))

/-- Every other row but GLOBAL_RESET.WARM and those that always reset leaves a powered, HALTED bring-up halted. -/
theorem exec_halted {c : Instr} (hc : c.carriesWrite = false) (hr : c.resetsAlways = false) (hw : c ≠ .globalResetWarm)
    (hpower : s.boot.power = true) (h : s.boot.phase = .halted) : AnswersHalted s (exec c s) := by
  cases hb : c.reachesBoot
  case false =>
    cases ht : c.setsTap
    case false =>
      obtain ⟨y, hy⟩ := exec_sysOnly ht hb s
      exact ⟨_, hy, .modSys (fun _ => y) (.refl s)⟩
    case true =>
      cases c
      all_goals try contradiction
      case tapReset => exact .next (.refl s)
      all_goals exact .next (.ite (.refl s) (.refl s))
  case true =>
    have hstep : (!s.inStep11) = true := by simp [State.inStep11, h]
    cases c
    all_goals try contradiction
    case reg64LowRead m t o n =>
      exact .ite (.next (.refl s)) (.next (.ite (.modSys _ (.modSys _ (.refl s))) (.trans (.modSys _ (.refl s)) (State.answerRead_staysHalted _ _ _ _ _))))
    case pwrgoodRise a b pll => exact .phase hpower
    case recordReadDone ok r => exact .phase (.inl (by simp [h]))
    case pufIdentityDone ok x => exact .phase (.inl (by simp [h]))
    case recordVerifyDone block => exact .phase (.inl (by simp [h]))
    case linkTrainDone ok pll => exact .phase (by simp [h])
    case hostInit m a b d => exact execHostInit_halted m a b d
    case loadFw image => exact .next (s.loadFw_staysHalted image)
    case loadPattern image => exact .next (s.loadPattern_staysHalted image)
    case firmwareVerifyDone => exact .phase (by simp [h])
    case patternCheckDone => exact .phase (by simp [h])
    case applyPllLockDone ok => exact .phase (.inl (by simp [h]))
    case stallInitDone => exact .phase (by simp [hstep])
    case memTrainDone f d => exact .phase (by simp [hstep])
    case amend image => exact .next (s.amend_staysHalted image)
    case amendmentEnd => exact execAmendmentEnd_halted
    case globalResetReload => exact .next (s.reload_staysHalted 3)
    case autoReloadExpire => exact .next (.ite (s.reload_staysHalted 4) (.refl s))

end

/-- What an outcome that stays HALTED excludes. -/
theorem AnswersHalted.phase_eq {s t : State} {o : Res} (a : AnswersHalted s o) (h : s.boot.phase = .halted) (ho : o = .next t) :
    t.boot.phase = .halted := by
  obtain ⟨u, hu, hs⟩ := a
  rw [ho] at hu
  cases hu
  exact (hs h).1

end Sys2Proof.Machine

section
open Sys2Proof Sys2Proof.Machine

/-- Settles O5: of the rows that can leave HALTED each carries a register write or resets always, or is GLOBAL_RESET_WARM. -/
theorem haltedLeavesByReset : Obligations.HaltedLeavesByReset := by
  refine ⟨fun c s t hpower h ho hne => ?_, fun c s t hpower h hrec ho hne => ?_⟩
  · have hc : c.carriesWrite = true ∨ c.resetsAlways = true ∨ c = .globalResetWarm := by
      by_contra hnot
      simp only [not_or, Bool.not_eq_true] at hnot
      obtain ⟨hc, hr, hw⟩ := hnot
      exact hne ((exec_halted hc hr hw hpower h).phase_eq h ho)
    rcases hc with hc | hc | rfl
    · cases c
      all_goals try contradiction
      all_goals simp
    · cases c
      all_goals try contradiction
      all_goals simp
    · exact .inl rfl
  · have hrh : s.recordHalt = true := by simp [State.recordHalt, h, hrec]
    have hc : c.resetsAlways = true := by
      by_contra hr
      rw [Bool.not_eq_true] at hr
      refine hne (AnswersHalted.phase_eq ?_ h ho)
      cases hc : c.carriesWrite
      case true => exact exec_carrier_halted hc hrh
      case false =>
        by_cases hw : c = .globalResetWarm
        · subst hw
          exact .next (by rw [if_pos hrh]; exact .refl s)
        · exact exec_halted hc hr hw hpower h
    cases c
    all_goals try contradiction
    all_goals simp

/-- Settles O6. -/
theorem haltedRegisterWriteLeavesByWarm : Obligations.HaltedRegisterWriteLeavesByWarm := by
  intro h o w s hs hne
  by_contra hw
  exact hne (s.hostWriteReg_staysHalted 4 (.inr hw) hs).1
end

/-! ### Offsets outside every block (R433) -/

namespace Sys2Proof.Machine

theorem tfind_eq_none {α : Type} {t : Tab α} {k : Nat} (h : ∀ p ∈ t, p.1 ≠ k) : tfind t k = none := by
  induction t with
  | nil => rfl
  | cons p t ih =>
    obtain ⟨hp, ht⟩ := List.forall_mem_cons.mp h
    simp only [tfind, if_neg hp, ih ht]

/-- An aligned offset of the three unmapped ranges of the window, or past its last. -/
def Unlisted (o : Nat) : Prop :=
  (0x420000 ≤ o ∧ o < 0x500000) ∨ (0xC00000 ≤ o ∧ o < 0x1000000) ∨ (0x1400000 ≤ o ∧ o < 0x2000000) ∨ 0x2200000 ≤ o

/-- No 64-bit register lies at an unlisted offset or has its high word there. -/
theorem Unlisted.wideReg {o k : Nat} (h : Unlisted o) (hk : k = o ∨ k + 4 = o) (ho : o % 4 = 0) (y : Sys) : y.wideReg k = none := by
  unfold Unlisted at h
  unfold Sys.wideReg
  rw [if_neg (by omega), if_neg (by omega)]
  refine tfind_eq_none ?_
  simp only [List.forall_mem_cons]
  refine ⟨?_, ?_, ?_, ?_, ?_, ?_, ?_, ?_, ?_, ?_, ?_, ?_, ?_, ?_, ?_, ?_, ?_, ?_, ?_, ?_, ?_, by simp⟩
  all_goals omega

theorem Unlisted.notForwarded {o : Nat} (h : Unlisted o) : forwarded o = false := by
  unfold Unlisted at h
  simp only [forwarded, Bool.or_eq_false_iff, decide_eq_false_iff_not, beq_eq_false_iff_ne]
  omega

/-- A read of an unlisted offset returns 0 and moves no latch. -/
theorem State.hostRead_unlisted {o : Nat} (h : Unlisted o) (ho : o % 4 = 0) (s : State) : s.hostRead o 4 = (0, s) := by
  have hw := h.wideReg (.inl rfl) ho s.sys
  have hhi := h.wideReg (k := o - 4) (by unfold Unlisted at h; omega) ho s.sys
  unfold Unlisted at h
  have hpeek : s.peek o = 0 := by
    simp only [State.peek, hw, hhi, ite_self]
    iterate 6 rw [if_neg (by omega)]
    by_cases hpipes : o < 0x500000
    · rw [if_pos hpipes]
    iterate 8 rw [if_neg (by omega)]
    by_cases hlink : o < 0x1000000
    · rw [if_pos hlink]
    iterate 3 rw [if_neg (by omega)]
  simp only [State.hostRead, ho, State.readWord, hw, hhi, ite_self, hpeek, ne_eq, not_true_eq_false, or_self, if_false]
  iterate 8 rw [if_neg (by omega)]

/-- A write of an unlisted offset is rejected. -/
theorem Sys.writeAt_unlisted {o : Nat} (h : Unlisted o) (ho : o % 4 = 0) (cause e w : Nat) (y : Sys) : y.writeAt cause e o w = y.reject := by
  have hw := h.wideReg (.inl rfl) ho y
  have hhi := h.wideReg (k := o - 4) (by unfold Unlisted at h; omega) ho y
  unfold Unlisted at h
  simp only [Sys.writeAt, hw, hhi, Option.isSome_none, Bool.false_eq_true, and_false, if_false]
  iterate 6 rw [if_neg (by omega)]
  by_cases hpipes : o < 0x500000
  · rw [if_pos hpipes]
  iterate 8 rw [if_neg (by omega)]
  by_cases hlink : o < 0x1000000
  · rw [if_pos hlink]
  iterate 3 rw [if_neg (by omega)]

/-- A rejected write counts once. -/
theorem Sys.reject_countOnce (y : Sys) : y.reject.countOnce y.glob.rejects = y.reject := by
  unfold Sys.countOnce
  split <;> rfl

theorem State.hostWriteReg_unlisted {o : Nat} (h : Unlisted o) (ho : o % 4 = 0) (e w : Nat) (s : State) :
    s.hostWriteReg e o w 4 = s.rejected := by
  have hword : s.writeWord e o w = s.rejected := by
    rw [State.writeWord_block e w s (by unfold Unlisted at h; omega)]
    simp only [State.modSys, Sys.writeAt_unlisted h ho, Sys.reject_countOnce]
    rfl
  rw [State.hostWriteReg_notForwarded ho (.inl h.notForwarded) (by rw [hword]; rfl), hword]

end Sys2Proof.Machine

section
open Sys2Proof.Machine

/-- Settles O12. -/
theorem unlistedOffsets : Obligations.UnlistedOffsets := by
  intro e o w s ho _ h
  refine ⟨s.hostRead_unlisted h ho, ?_⟩
  rw [s.hostWriteReg_unlisted h ho]
  rfl
end

namespace Sys2Proof.Machine

/-! ### The register file (R78) -/

@[simp] theorem Run.x_zero (r : Run) : r.x 0 = 0 := rfl

theorem Run.setx_zero (r : Run) (v : Word) : r.setx 0 v = r := rfl

/-- A write of a register changes the register file at most. -/
theorem Run.setx_eq_regs (r : Run) (i : Nat) (v : Word) : r.setx i v = { r with regs := (r.setx i v).regs } := by
  unfold Run.setx; split <;> rfl

@[simp] theorem Run.setx_regs_length (r : Run) (i : Nat) (v : Word) : (r.setx i v).regs.length = r.regs.length := by
  unfold Run.setx; split <;> simp

theorem Run.x_setx_same {r : Run} {i : Nat} (v : Word) (hi : i % 32 ≠ 0) (h : i % 32 < r.regs.length) : (r.setx i v).x i = v := by
  simp [Run.x, Run.setx, hi, h]

theorem Run.x_setx_other (r : Run) {i j : Nat} (v : Word) (h : j % 32 ≠ i % 32) : (r.setx i v).x j = r.x j := by
  unfold Run.setx
  split
  · rfl
  · simp [Run.x, List.getElem?_set_ne h.symm]

/-! ### Stores with valid bits (R52) -/

/-- The byte a store shows at an address: the byte it holds in a valid granule, the pattern elsewhere. -/
def Store.byte (st : Store) (gr x : Nat) : Byte := if st.valid.contains (x / gr) then Cells.get st.cells x else patternByte x

/-- A read gives the bytes the store shows. -/
theorem Store.read_eq (st : Store) (gr a n : Nat) : st.read gr a n = (List.range n).map fun i => st.byte gr (a + i) := by
  unfold Store.read Store.byte
  refine List.map_congr_left fun i hi => ?_
  rw [Cells.get_window _ _ _ _ ⟨by omega, by have := List.mem_range.1 hi; omega⟩]

/-- The granules valid once one becomes so. -/
theorem Store.validate_valid (st : Store) (gr g k : Nat) : (st.validate gr g).valid.contains k = (st.valid.contains k || decide (k = g)) := by
  unfold Store.validate
  split
  case isTrue h =>
    by_cases hk : k = g
    · subst hk; simp only [h, Bool.true_or]
    · simp [hk]
  case isFalse h =>
    rw [Bool.eq_iff_iff]
    simp only [List.contains_eq_mem, decide_eq_true_eq, List.mem_append, List.mem_filter, List.mem_cons, Bool.or_eq_true]
    rcases Nat.lt_trichotomy k g with hk | hk | hk
    · simp [hk, hk.ne, hk.not_gt]
    · simp [hk]
    · simp [hk, hk.ne', hk.not_gt]

theorem getD_patternBytes {a n i : Nat} (h : i < n) : (patternBytes a n).getD i 0 = patternByte (a + i) := by
  simp [patternBytes, List.getD_eq_getElem?_getD, h]

/-- A granule that becomes valid shows what it showed. -/
theorem Store.validate_byte {gr : Nat} (hgr : 0 < gr) (st : Store) (g x : Nat) : (st.validate gr g).byte gr x = st.byte gr x := by
  unfold Store.byte
  rw [Store.validate_valid]
  by_cases hg : st.valid.contains g
  · have : st.validate gr g = st := if_pos hg
    rw [this]
    by_cases hx : x / gr = g
    · subst hx; simp only [hg, Bool.true_or]
    · simp [hx]
  · have hcells : (st.validate gr g).cells = Cells.write st.cells (gr * g) (patternBytes (gr * g) gr) := by
      unfold Store.validate; rw [if_neg hg]
    have hlen : (patternBytes (gr * g) gr).length = gr := by simp [patternBytes]
    rw [hcells, Cells.get_write, hlen]
    by_cases hx : x / gr = g
    · have hlo : gr * g ≤ x := by rw [← hx]; exact Nat.mul_div_le x gr
      have hhi : x < gr * g + gr := by rw [← hx]; exact Nat.lt_mul_div_succ x hgr
      have hnot : st.valid.contains (x / gr) = false := by rw [hx]; simpa using hg
      have hbyte : (patternBytes (gr * g) gr).getD (x - gr * g) 0 = patternByte x := by
        rw [getD_patternBytes (by omega), Nat.add_sub_cancel' hlo]
      rw [if_pos (And.intro hlo hhi), hbyte, hnot, decide_eq_true hx]
      rfl
    · have hout : ¬ (gr * g ≤ x ∧ x < gr * g + gr) := fun ⟨hlo, hhi⟩ =>
        hx (Nat.div_eq_of_lt_le (by rwa [Nat.mul_comm]) (by rw [Nat.succ_mul, Nat.mul_comm g]; exact hhi))
      simp [hout, hx]

/-- Granules that become valid show what they showed. -/
theorem Store.foldl_validate_byte {gr : Nat} (hgr : 0 < gr) (gs : List Nat) (st : Store) (x : Nat) :
    (gs.foldl (fun s g => s.validate gr g) st).byte gr x = st.byte gr x := by
  induction gs generalizing st with
  | nil => rfl
  | cons g gs ih => rw [List.foldl_cons, ih, Store.validate_byte hgr]

theorem Store.foldl_validate_valid (gr : Nat) (gs : List Nat) (st : Store) (k : Nat) :
    (gs.foldl (fun s g => s.validate gr g) st).valid.contains k = (st.valid.contains k || decide (k ∈ gs)) := by
  induction gs generalizing st with
  | nil => simp
  | cons g gs ih =>
    rw [List.foldl_cons, ih, Store.validate_valid, Bool.or_assoc]
    simp

/-- The granules that n bytes at an address touch. -/
theorem mem_granules {gr a n k : Nat} (hn : 0 < n) :
    k ∈ (List.range ((a + n - 1) / gr + 1 - a / gr)).map (a / gr + ·) ↔ a / gr ≤ k ∧ k ≤ (a + n - 1) / gr := by
  have hle : a / gr ≤ (a + n - 1) / gr := Nat.div_le_div_right (by omega)
  rw [List.mem_map]
  constructor
  · rintro ⟨i, hi, rfl⟩
    have := List.mem_range.mp hi
    omega
  · rintro ⟨hlo, hhi⟩
    exact ⟨k - a / gr, List.mem_range.mpr (by omega), by omega⟩

section
variable {bs : List Byte} (hbs : bs ≠ []) (st : Store) (gr a : Nat)
include hbs

/-- A write makes valid the granules it touches, and no other. -/
theorem Store.write_valid (k : Nat) :
    (st.write gr a bs).valid.contains k = (st.valid.contains k || decide (a / gr ≤ k ∧ k ≤ (a + bs.length - 1) / gr)) := by
  have hlen : 0 < bs.length := List.length_pos_iff.mpr hbs
  unfold Store.write
  rw [if_neg (by simpa using hbs), Store.foldl_validate_valid]
  simp only [mem_granules hlen]

/-- A write shows its bytes where it went, and what was shown elsewhere. -/
theorem Store.write_byte (hgr : 0 < gr) (x : Nat) :
    (st.write gr a bs).byte gr x = if a ≤ x ∧ x < a + bs.length then bs.getD (x - a) 0 else st.byte gr x := by
  have hvalid := Store.write_valid hbs st gr a (x / gr)
  split
  case isTrue h =>
    have hmem : (st.write gr a bs).valid.contains (x / gr) = true := by
      rw [hvalid, Bool.or_eq_true, decide_eq_true_eq]
      exact .inr ⟨Nat.div_le_div_right h.1, Nat.div_le_div_right (by omega)⟩
    unfold Store.byte
    rw [hmem, if_pos rfl]
    unfold Store.write
    rw [if_neg (by simpa using hbs), Cells.get_write, if_pos h]
  case isFalse h =>
    unfold Store.write
    rw [if_neg (by simpa using hbs)]
    rw [← Store.foldl_validate_byte hgr ((List.range ((a + bs.length - 1) / gr + 1 - a / gr)).map (a / gr + ·)) st x]
    unfold Store.byte
    rw [Cells.get_write, if_neg h]

end

end Sys2Proof.Machine

section
open Sys2Proof.Machine

/-- Settles O34. -/
theorem registerZero : Obligations.RegisterZero := by
  intro r i j v hi hj hlen
  have hmod : i % 32 = i := Nat.mod_eq_of_lt hi
  refine ⟨r.x_zero, fun h0 => ?_, fun hji => ?_, r.setx_zero v, by rw [Run.setx_regs_length, hlen], r.setx_eq_regs i v⟩
  · exact Run.x_setx_same v (by rwa [hmod]) (by rwa [hmod, hlen])
  · exact r.x_setx_other v (by rwa [hmod, Nat.mod_eq_of_lt hj])

/-- Settles O37: a write shows its bytes where it went, and a granule that becomes valid shows what it showed. -/
theorem storesKeepOtherBytes : Obligations.StoresKeepOtherBytes := by
  intro st g a bs hg _ hbs
  refine ⟨?_, fun x hx => ?_, Store.write_valid hbs st g a⟩
  · rw [Store.read_eq]
    refine List.ext_getElem (by simp) fun i h1 h2 => ?_
    rw [List.getElem_map, List.getElem_range, Store.write_byte hbs st g a hg, if_pos ⟨by omega, by omega⟩, Nat.add_sub_cancel_left,
      List.getD_eq_getElem _ _ h2]
  · have hout : ¬ (a ≤ x ∧ x < a + bs.length) := by omega
    simp [Store.read_eq, Store.write_byte hbs st g a hg, hout]
end

namespace Sys2Proof.Machine

/-! ### Scalar instructions (R78) -/

theorem flag_slt (x y : Word) : flag (x.slt y) = if x.toInt < y.toInt then 1 else 0 := by simp [flag, BitVec.slt]

theorem flag_ult (x y : Word) : flag (x.ult y) = if x.toNat < y.toNat then 1 else 0 := by simp [flag, BitVec.ult]

theorem min_slt (x y : Word) : (if y.slt x then y else x) = if x.toInt ≤ y.toInt then x else y := by
  simp only [BitVec.slt, decide_eq_true_eq, ← not_lt, ite_not]

theorem max_slt (x y : Word) : (if x.slt y then y else x) = if x.toInt ≤ y.toInt then y else x := by
  simp only [BitVec.slt, decide_eq_true_eq]
  rcases lt_trichotomy x.toInt y.toInt with h | h | h
  · simp [h, h.le]
  · have : x = y := BitVec.toInt_inj.mp h
    simp [this]
  · simp [h.not_gt, h.not_ge]

/-- The ones of a number's low n bits, counted bit by bit. -/
theorem popcount_eq_length (n w : Nat) : popcount n w = ((List.range n).filter (bitAt w)).length := by
  induction n generalizing w with
  | zero => rfl
  | succ n ih =>
    have hshift : ∀ i, bitAt w (i + 1) = bitAt (w / 2) i := fun i => by
      simp only [bitAt, pow_succ', Nat.div_div_eq_div_mul]
    have htail : (((List.range n).map Nat.succ).filter (bitAt w)).length = ((List.range n).filter (bitAt (w / 2))).length := by
      rw [List.filter_map, List.length_map]
      congr 2
      exact funext hshift
    have hhead : bitAt w 0 = (w % 2 == 1) := by simp [bitAt]
    rw [popcount, ih, List.range_succ_eq_map, List.filter_cons, hhead]
    rcases Nat.mod_two_eq_zero_or_one w with h | h <;> simp [h, htail, Nat.add_comm]

theorem clz_eq (x : Word) : clz x = if x = 0 then 32 else 31 - Nat.log2 x.toNat := by
  unfold clz
  congr 1
  simp [← BitVec.toNat_inj]

theorem add_immS (x : Word) (i : BitVec 14) : x + immS i = BitVec.ofInt 32 (x.toInt + i.toInt) := by
  rw [BitVec.ofInt_add, BitVec.ofInt_toInt]
  rfl

theorem immS_toInt (i : BitVec 14) : (immS i).toInt = i.toInt := BitVec.toInt_signExtend_of_le (by decide)

theorem and_immZ (x : Word) (i : BitVec 14) : x &&& immZ i = BitVec.ofNat 32 (x.toNat &&& i.toNat) := by
  rw [BitVec.ofNat_and]
  simp [immZ]

theorem or_immZ (x : Word) (i : BitVec 14) : x ||| immZ i = BitVec.ofNat 32 (x.toNat ||| i.toNat) := by
  rw [BitVec.ofNat_or]
  simp [immZ]

theorem xor_immZ (x : Word) (i : BitVec 14) : x ^^^ immZ i = BitVec.ofNat 32 (x.toNat ^^^ i.toNat) := by
  rw [BitVec.ofNat_xor]
  simp [immZ]

theorem mul_eq_ofNat (x y : Word) : x * y = BitVec.ofNat 32 (x.toNat * y.toNat) := by
  rw [BitVec.ofNat_mul, BitVec.ofNat_toNat, BitVec.ofNat_toNat, BitVec.setWidth_eq, BitVec.setWidth_eq]

section
variable {c d : Nat} {s : State} {r : Run}

/-- A scalar operation whose value is known. -/
theorem alu_value {f : Run → Word} {v : Word} (h : s.Issues c r) (g : r.GoesOn (r.pc + 4)) (e : f r = v) :
    alu c d f s = .next (s.putRun c { r.setx d v with pc := r.pc + 4 }) := e ▸ alu_ok h g f

end

end Sys2Proof.Machine

section
open Sys2Proof Sys2Proof.Machine

/-- Settles O35: each row is `alu` with its value. -/
theorem awlArithmetic : Obligations.AwlArithmetic := by
  refine ⟨?_, ?_⟩
  · rintro c d a b s r h g x y rfl rfl
    simp only [List.forall_mem_cons]
    exact ⟨alu_ok h g _, alu_ok h g _, alu_ok h g _, alu_ok h g _, alu_ok h g _, alu_ok h g _, alu_ok h g _, alu_ok h g _,
      alu_value h g (mul_eq_ofNat _ _), alu_ok h g _, alu_ok h g _, alu_value h g (flag_slt _ _), alu_value h g (flag_ult _ _),
      alu_value h g (min_slt _ _), alu_value h g (max_slt _ _), alu_value h g (congrArg _ (clz_eq _)),
      alu_value h g (congrArg _ (popcount_eq_length _ _)), by simp⟩
  · rintro c d a i u s r h g x rfl
    simp only [List.forall_mem_cons]
    exact ⟨alu_value h g (add_immS _ _), alu_value h g (and_immZ _ _), alu_value h g (or_immZ _ _), alu_value h g (xor_immZ _ _),
      alu_ok h g _, alu_ok h g _, alu_ok h g _, alu_value h g ((flag_slt _ _).trans (by rw [immS_toInt])), alu_ok h g _, by simp⟩

/-- Settles O38: each conditional row is `branch` with its condition. -/
theorem awlBranches : Obligations.AwlBranches := by
  refine ⟨?_, ?_⟩
  · rintro c a b o s r pc h g x y rfl rfl
    simp only [List.forall_mem_cons]
    refine ⟨fun e => branch_ok h g ?_, fun e => branch_ok h g ?_, fun e => branch_ok h g ?_, fun e => branch_ok h g ?_, fun e => branch_ok h g ?_,
      fun e => branch_ok h g ?_, by simp⟩
    · simpa using e
    · simpa using e
    · exact e
    · exact e
    · exact e
    · exact e
  · intro c a o s r pc h g
    refine ⟨fun e => ⟨?_, ?_⟩, fun e => ?_⟩
    · change onSys (Sys.awl c _) s = _
      rw [onSys_awl h, target_eq e g, goTo_putRun g]
    · change onSys (Sys.awl c _) s = _
      rw [onSys_awl h, target_eq e g, goTo_putRun (g.setx 31 _)]
    · change onSys (Sys.awl c _) s = _
      rw [onSys_awl h, e, goTo_putRun g]
end

/-! ### Loads and stores (R78, R81) -/

namespace Sys2Proof.Machine

section
variable {c : Nat} {s : State} {r : Run}

/-- An access with no EDRAIN in flight acts on the sliver as it stands. -/
theorem access_none {a n : Nat} {y : Sys} (h : (y.core c).run = some r) (hd : ∀ k ∈ r.cmds, k.kind ≠ .drain) (f : Run → Sys → Sys) :
    y.access c a n f = f r y := by
  simp only [Sys.access, interlock_none h hd, h]

/-- An instruction that writes the local store and retires leaves the bytes written and the next address. -/
theorem lsWrite_retire (g : r.GoesOn (r.pc + 4)) (a : Nat) (bs : List Byte) (s : State) :
    ({ s with sys := (s.sys.lsWrite c a bs).retire c r } : State) =
      s.putCore c { s.sys.core c with run := some { r with pc := r.pc + 4 }, ls := (s.sys.core c).ls.write 64 a bs } := by
  rw [retire_ok g]
  simp [State.putCore, Sys.lsWrite, Sys.modCore, Sys.modCores, tmod, Sys.core, lsGr]

theorem lsOk_iff {a n : Nat} : lsOk a n = true ↔ a + n ≤ 0x4000 := by simp [lsOk]

theorem poolOk_iff {a n : Nat} : poolOk a n = true ↔ 0x40000 ≤ a ∧ a + n ≤ 0x100000 := by simp [poolOk]

section
variable {n p : Nat} (h : s.Issues c r) (d a : Nat) (i : BitVec 14) (hp : p = (r.x a + i.signExtend 32).toNat) (hn : p % n = 0)
include h hp hn

/-- A load of the local store, its EDRAINs carried out first (R82). -/
theorem loadLs_ok (hls : p + n ≤ 0x4000) {r' : Run} (hr : ((s.sys.interlock c p n).core c).run = some r') :
    loadLs n c d a i s = .next
      { s with sys := (s.sys.interlock c p n).retire c (r'.setx d (BitVec.ofNat 32 (leNat (((s.sys.interlock c p n).core c).ls.read 64 p n)))) } := by
  unfold loadLs
  rw [onSys_awl h]
  simp only [immS, ← hp, hn, lsOk_iff.mpr hls, and_self, if_true, Sys.access, hr]
  rfl

/-- A load of the local store with no EDRAIN in flight. -/
theorem loadLs_plain (g : r.GoesOn (r.pc + 4)) (hls : p + n ≤ 0x4000) (hd : ∀ k ∈ r.cmds, k.kind ≠ .drain) :
    loadLs n c d a i s = .next (s.putRun c { r.setx d (BitVec.ofNat 32 (leNat ((s.sys.core c).ls.read 64 p n))) with pc := r.pc + 4 }) := by
  have hi : s.sys.interlock c p n = s.sys := interlock_none h.run hd
  rw [loadLs_ok h d a i hp hn hls (by rw [hi]; exact h.run), hi, retire_setx g]

/-- A store to the local store with no EDRAIN in flight. -/
theorem storeLs_ok (g : r.GoesOn (r.pc + 4)) (hls : p + n ≤ 0x4000) (hd : ∀ k ∈ r.cmds, k.kind ≠ .drain) :
    storeLs n c d a i s = .next (s.putCore c { s.sys.core c with
      run := some { r with pc := r.pc + 4 }, ls := (s.sys.core c).ls.write 64 p (leBytes n (r.x d).toNat) }) := by
  unfold storeLs
  rw [onSys_awl h]
  simp only [immS, ← hp, hn, lsOk_iff.mpr hls, and_self, if_true, access_none h.run hd]
  rw [lsWrite_retire g]

end

/-- A pool write with no granule of the stall faulty and clear of the mailbox writes the pool's bytes. -/
theorem poolWrite_plain {k a : Nat} {bs : List Byte} {y : Sys} (ha : a + bs.length ≤ 0xFC000) (hb : (y.stall k).badPool = []) :
    y.poolWrite k a bs = { y with stalls := tset y.stalls k { y.stall k with pool := (y.stall k).pool.write 256 a bs } } := by
  have hclean : (y.stall k).badPool.isEmpty = true := by rw [hb]; rfl
  unfold Sys.poolWrite
  rw [if_pos hclean, if_pos (show a + bs.length ≤ mboxBase from ha)]
  rfl

end

end Sys2Proof.Machine

section
open Sys2Proof Sys2Proof.Machine

/-- Settles O36. -/
theorem awlMemory : Obligations.AwlMemory := by
  refine ⟨?_, ?_, ?_, ?_, ?_, ?_⟩
  · intro c d a i s r h g p hp
    simp only [List.forall_mem_cons]
    refine ⟨fun hn hls => ⟨loadLs_plain h d a i hp hn g hls, ?_⟩, fun hn hls => ⟨loadLs_plain h d a i hp hn g hls, ?_⟩,
      fun hn hls => ⟨loadLs_plain h d a i hp hn g hls, ?_⟩, by simp⟩
    all_goals
      rintro y r' rfl hr
      exact loadLs_ok h d a i hp hn hls hr
  · intro c d a i s r h g p hp hn hlo hhi hbad
    change onSys (Sys.awl c _) s = _
    rw [onSys_awl h]
    simp only [immS, ← hp, hn, poolOk_iff.mpr ⟨hlo, hhi⟩, and_self, if_true, stallOf, hbad, Bool.false_eq_true, if_false]
    rw [retire_setx g]
  · intro st g a hv
    have hbyte : st.byte g a = patternByte a := if_neg (by simp only [hv, Bool.false_eq_true, not_false_eq_true])
    rw [Store.read_eq]
    simp only [List.range_one, List.map_cons, List.map_nil, Nat.add_zero, hbyte]
    rfl
  · intro c d a i s r h g hd p hp
    simp only [List.forall_mem_cons]
    exact ⟨fun hn hls => storeLs_ok h d a i hp hn g hls hd, fun hn hls => storeLs_ok h d a i hp hn g hls hd,
      fun hn hls => storeLs_ok h d a i hp hn g hls hd, by simp⟩
  · intro c d a i s r h g p hp hn hlo hhi
    change onSys (Sys.awl c _) s = _
    rw [onSys_awl h]
    simp only [immS, ← hp, hn, poolOk_iff.mpr ⟨hlo, hhi⟩, and_self, if_true, stallOf]
    exact congrArg Host.Outcome.next (retire_putRun g { s with sys := s.sys.poolWrite (c / 64) p (leBytes 4 (r.x d).toNat) })
  · intro k a bs y ha hb
    exact poolWrite_plain ha hb
end

/-! ### CSRs that can be read and written (R79, R458) -/

namespace Sys2Proof.Machine

section
variable {c a : Nat} {i : BitVec 14} {s : State} {r : Run} (h : s.Issues c r)
include h

/-- CSRR of ACC_SAT reads it once the core's engine commands have been carried out. -/
theorem csrr_accSat (d : Nat) (hi : i.toNat = 9) {r' : Run} (hr : ((s.sys.forceCmds c r.cmds.length).core c).run = some r') :
    exec (.csrr c d i) s = .next { s with sys := (s.sys.forceCmds c r.cmds.length).retire c (r'.setx d (BitVec.ofNat 32 r'.accSat)) } := by
  rw [exec_csrr, execCsrr, onSys_awl h, if_neg (by omega)]
  simp only [hi, if_true, h.run, hr]
  rfl

/-- CSRW of LIVE out of its range ends the sliver. -/
theorem csrw_live_outside (hi : i.toNat = 5) (hv : (r.x a).toNat % 64 ≠ 0 ∨ (r.x a).toNat < 64 ∨ 0x4000 < (r.x a).toNat) :
    exec (.csrw c a i) s = .next { s with sys := s.sys.sliverEnd c 0x10 false } := by
  rw [exec_csrw, execCsrw, onSys_awl h]
  simp only [hi]
  rw [if_neg (by omega)]
  rfl

/-- CSRW of ROUND above 1 ends the sliver. -/
theorem csrw_round_outside (hi : i.toNat = 6) (hv : 1 < (r.x a).toNat) :
    exec (.csrw c a i) s = .next { s with sys := s.sys.sliverEnd c 0x10 false } := by
  rw [exec_csrw, execCsrw, onSys_awl h]
  simp only [hi]
  rw [if_neg (by omega)]
  rfl

section
variable (g : r.GoesOn (r.pc + 4))
include g

theorem csrw_live (hi : i.toNat = 5) (h64 : (r.x a).toNat % 64 = 0) (hlo : 64 ≤ (r.x a).toNat) (hhi : (r.x a).toNat ≤ 0x4000) (hp : r.pre = none) :
    exec (.csrw c a i) s = .next (s.putRun c { r with live := (r.x a).toNat, pc := r.pc + 4 }) := by
  rw [exec_csrw, execCsrw, onSys_awl h]
  simp only [hi]
  rw [if_pos ⟨h64, hlo, hhi⟩]
  simp only [hp]
  exact congrArg Host.Outcome.next (retire_putRun (r := { r with live := (r.x a).toNat, pre := none }) ⟨g.aligned, g.low, g.high, g.sound⟩ s)

theorem csrw_round (hi : i.toNat = 6) (hv : (r.x a).toNat ≤ 1) :
    exec (.csrw c a i) s = .next (s.putRun c { r with round := (r.x a).toNat, pc := r.pc + 4 }) := by
  rw [exec_csrw, execCsrw, onSys_awl h]
  simp only [hi]
  rw [if_pos hv]
  exact congrArg Host.Outcome.next (retire_putRun (r := { r with round := (r.x a).toNat }) ⟨g.aligned, g.low, g.high, g.sound⟩ s)

theorem csrw_seed (hi : i.toNat = 7) : exec (.csrw c a i) s = .next (s.putRun c { r with seed := r.x a, pc := r.pc + 4 }) := by
  rw [exec_csrw, execCsrw, onSys_awl h]
  simp only [hi]
  exact congrArg Host.Outcome.next (retire_putRun (r := { r with seed := r.x a }) ⟨g.aligned, g.low, g.high, g.sound⟩ s)

theorem csrw_tensor (hi : i.toNat = 8) : exec (.csrw c a i) s = .next (s.putRun c { r with tensor := r.x a, pc := r.pc + 4 }) := by
  rw [exec_csrw, execCsrw, onSys_awl h]
  simp only [hi]
  exact congrArg Host.Outcome.next (retire_putRun (r := { r with tensor := r.x a }) ⟨g.aligned, g.low, g.high, g.sound⟩ s)

end

end

end Sys2Proof.Machine

section
open Sys2Proof Sys2Proof.Machine

/-- Settles O41: CSRR shows what `Sys.csr` gives, CSRW writes the four it may, each in its range. -/
theorem csrReadsAndWrites : Obligations.CsrReadsAndWrites := by
  rintro c d a i s r h g v rfl
  refine ⟨?_, ?_, fun hi h64 hlo hhi hp => csrw_live h g hi h64 hlo hhi hp, fun hi hv => csrw_round h g hi hv, fun hi => csrw_seed h g hi,
    fun hi => csrw_tensor h g hi, ?_⟩
  · have shows : ∀ k v, k < 16 → k ≠ 9 → s.sys.csr r k = v → i.toNat = k →
        exec (.csrr c d i) s = .next (s.putRun c { r.setx d (BitVec.ofNat 32 v) with pc := r.pc + 4 }) := by
      rintro k v hk hsat rfl rfl
      exact csrr_shows d h g hk hsat
    simp only [List.forall_mem_cons]
    exact ⟨shows 0 _ (by decide) (by decide) rfl, shows 1 _ (by decide) (by decide) rfl, shows 2 _ (by decide) (by decide) rfl,
      shows 3 _ (by decide) (by decide) rfl, shows 4 _ (by decide) (by decide) rfl, shows 5 _ (by decide) (by decide) rfl,
      shows 6 _ (by decide) (by decide) rfl, shows 7 _ (by decide) (by decide) rfl, shows 8 _ (by decide) (by decide) rfl,
      shows 10 _ (by decide) (by decide) rfl, by simp⟩
  · rintro hi y r' rfl hr
    exact csrr_accSat h d hi hr
  · rintro (⟨hi, hv⟩ | ⟨hi, hv⟩ | hi)
    · exact csrw_live_outside h hi hv
    · exact csrw_round_outside h hi hv
    · exact csrw_notWritable a h (by omega)
end

/-! ### Waits, tile boundaries and the end of a sliver (R76, R83, R95, R287, R309) -/

namespace Sys2Proof.Machine

/-! #### Boundaries at which nothing stops the sliver -/

section
variable {c : Nat} {s : State} {r : Run}

/-- Replacing a core's sliver by a later state of it leaves a boundary that does nothing. -/
theorem boundary_setRun (u : s.Undisturbed r) {k : Core} {r' : Run} (hk : k.run = some r') (htg : r'.tg = r.tg) (hpre : r'.pre = r.pre) :
    Sys.boundary c { s.sys with cores := tset s.sys.cores c k } = { s.sys with cores := tset s.sys.cores c k } := by
  have hrun : (Sys.core { s.sys with cores := tset s.sys.cores c k } c).run = some r' := by simp [Sys.core, hk]
  refine boundary_undisturbed hrun ?_ ?_ ?_ u.hold (hpre.trans u.request)
  · rw [htg]; exact u.cancel
  · rw [htg]; exact u.whole
  · rw [htg]; exact u.suspend

theorem retire_boundary (g : r.GoesOn (r.pc + 4)) (u : s.Undisturbed r) :
    ({ s with sys := (s.sys.retire c r).boundary c } : State) = s.putRun c { r with pc := r.pc + 4 } := by
  rw [retire_ok g, boundary_setRun (r' := { r with pc := r.pc + 4 }) u rfl rfl rfl]
  rfl

theorem waitOn_boundary (w : Wait) (u : s.Undisturbed r) :
    ({ s with sys := (s.sys.waitOn c r w).boundary c } : State) = s.putRun c { r with wait := w } := by
  have hwait : s.sys.waitOn c r w = { s.sys with cores := tset s.sys.cores c { s.sys.core c with run := some { r with wait := w } } } := rfl
  rw [hwait, boundary_setRun (r' := { r with wait := w }) u rfl rfl rfl]
  rfl

/-! #### EWAIT, TILE, FENCE -/

theorem ewait_free {m : Nat} (h : s.Issues c r) (g : r.GoesOn (r.pc + 4)) (hm : m < 16) (hfree : ∀ k ∈ r.cmds, k.mask &&& m = 0) :
    exec (.ewait c m) s = .next (s.putRun c { r with pc := r.pc + 4 }) := by
  change onSys (Sys.awl c _) s = _
  rw [onSys_awl h, Nat.mod_eq_of_lt hm, if_pos (by simpa using hfree), retire_putRun g]

theorem ewait_busy {m : Nat} (h : s.Issues c r) (hm : m < 16) (hbusy : ∃ k ∈ r.cmds, k.mask &&& m ≠ 0) :
    exec (.ewait c m) s = .next (s.putRun c { r with wait := .engines m }) := by
  change onSys (Sys.awl c _) s = _
  rw [onSys_awl h, Nat.mod_eq_of_lt hm, if_neg (by simpa using hbusy), waitOn_putRun]

theorem tile_free (h : s.Issues c r) (g : r.GoesOn (r.pc + 4)) (hc : r.cmds = []) (u : s.Undisturbed r) :
    exec (.tile c) s = .next (s.putRun c { r with pc := r.pc + 4 }) := by
  change onSys (Sys.awl c _) s = _
  rw [onSys_awl h, if_pos (by rw [hc]; rfl), retire_boundary g u]

theorem tile_busy (h : s.Issues c r) (hc : r.cmds ≠ []) : exec (.tile c) s = .next (s.putRun c { r with wait := .tile }) := by
  change onSys (Sys.awl c _) s = _
  rw [onSys_awl h, if_neg (by simpa using hc), waitOn_putRun]

/-- The transfers of the sliver on a core, for whatever else the blocks hold. -/
theorem Sys.xfersOf_run {y : Sys} (hr : (y.core c).run = some r) :
    y.xfersOf c = y.dma.xfers.filter fun x => x.core == c && x.tg == r.tg && x.sliver == r.sliver := by
  simp only [Sys.xfersOf, hr]

theorem Sys.hasXfers_eq_false {y : Sys} (hx : y.xfersOf c = []) : y.hasXfers c = false := by simp [Sys.hasXfers, hx]

theorem Sys.hasXfers_eq_true {y : Sys} (hx : y.xfersOf c ≠ []) : y.hasXfers c = true := by simp [Sys.hasXfers, hx]

theorem fence_free (h : s.Issues c r) (g : r.GoesOn (r.pc + 4)) (hx : s.sys.xfersOf c = []) :
    exec (.fence c) s = .next (s.putRun c { r with pc := r.pc + 4 }) := by
  change onSys (Sys.awl c _) s = _
  rw [onSys_awl h, Sys.hasXfers_eq_false hx, if_neg (by decide), retire_putRun g]

theorem fence_busy (h : s.Issues c r) (hx : s.sys.xfersOf c ≠ []) : exec (.fence c) s = .next (s.putRun c { r with wait := .fence }) := by
  change onSys (Sys.awl c _) s = _
  rw [onSys_awl h, Sys.hasXfers_eq_true hx, if_pos rfl, waitOn_putRun]

/-! #### DWAIT -/

section
variable {a : Nat}

theorem dwait_unknown (h : s.Issues c r) (ht : ticketKnown r.tickets (r.x a).toNat = false) :
    exec (.dwait c a) s = .next { s with sys := s.sys.sliverEnd c 0x10 false } := by
  change onSys (Sys.awl c _) s = _
  rw [onSys_awl h]
  simp only [ht, Bool.not_false, if_true]
  rfl

theorem dwait_ended (h : s.Issues c r) (g : r.GoesOn (r.pc + 4)) (u : s.Undisturbed r) (ht : ticketKnown r.tickets (r.x a).toNat = true)
    (hx : ∀ x ∈ s.sys.xfersOf c, x.ticket ≠ (r.x a).toNat) : exec (.dwait c a) s = .next (s.putRun c { r with pc := r.pc + 4 }) := by
  have hopen : s.sys.ticketOpen c (r.x a).toNat = false := by simpa [Sys.ticketOpen] using hx
  change onSys (Sys.awl c _) s = _
  rw [onSys_awl h]
  simp only [ht, hopen, Bool.not_true, Bool.false_eq_true, if_false]
  rw [retire_boundary g u]

theorem dwait_open (h : s.Issues c r) (u : s.Undisturbed r) (ht : ticketKnown r.tickets (r.x a).toNat = true)
    (hx : ∃ x ∈ s.sys.xfersOf c, x.ticket = (r.x a).toNat) : exec (.dwait c a) s = .next (s.putRun c { r with wait := .ticket (r.x a).toNat }) := by
  have hopen : s.sys.ticketOpen c (r.x a).toNat = true := by simpa [Sys.ticketOpen] using hx
  change onSys (Sys.awl c _) s = _
  rw [onSys_awl h]
  simp only [ht, hopen, Bool.not_true, Bool.false_eq_true, if_false, if_true]
  rw [waitOn_boundary _ u]

end

/-! #### EXIT -/

/-- Carrying out no engine command leaves the sliver. -/
theorem forceCmds_zero_run {y : Sys} (hr : (y.core c).run = some r) : ((y.forceCmds c 0).core c).run = some r := by
  simp only [Sys.forceCmds, hr]
  change ((y.modCore c fun q => q.forceCmds 0).core c).run = some r
  simp [Core.forceCmds, hr]

theorem exit_free {a : Nat} (h : s.Issues c r) (hc : r.cmds = []) (hx : s.sys.xfersOf c = []) :
    exec (.exit c a) s = .next { s with sys := (s.sys.forceCmds c 0).sliverEnd c (r.exitStatus ((r.x a).toNat % 256)) false } := by
  have hrun := forceCmds_zero_run h.run
  have hdma : (s.sys.forceCmds c 0).dma = s.sys.dma := by simp only [Sys.forceCmds, h.run]; rfl
  have hnone : (s.sys.forceCmds c 0).hasXfers c = false :=
    Sys.hasXfers_eq_false (by rw [Sys.xfersOf_run hrun, hdma, ← Sys.xfersOf_run h.run, hx])
  change onSys (Sys.awl c _) s = _
  rw [onSys_awl h]
  simp only [hc, List.length_nil, hrun, hnone, Bool.false_eq_true, if_false]

/-! #### TILE_OVERRUN -/

theorem tileOverrun_outside (h : (s.sys.core c).inTile = false) : exec (.tileOverrun c) s = .next s := by
  change onSys _ s = _
  simp [onSys, h]

theorem tileOverrun_inside (h : (s.sys.core c).inTile = true) : exec (.tileOverrun c) s = .next { s with
    sys := (s.sys.modStall (c / 64) fun k => { k with tileOverruns := satInc k.tileOverruns }).sliverEnd c 0x50 false } := by
  change onSys _ s = _
  simp only [onSys, h, if_true]
  rfl

/-! #### RWAIT -/

/-- The blocks once entry e of a stall's mailbox is freed and its credit returned. -/
def Sys.freeMbox (k e : Nat) (y : Sys) : Sys := (y.modStall k fun t => { t with mbox := tset t.mbox e {} }).modPool 2 4 (Pool.give 1)

section
variable {d a b : Nat} {m : Mbox} (h : s.Issues c r) (hm : m = tget {} (s.sys.stall (stallOf c)).mbox (r.x a).toNat)
include h hm

theorem rwait_refused (hbad : 256 ≤ (r.x a).toNat ∨ s.sys.glob.config = 0 ∨ (m.pending = false ∧ m.full = false)) :
    exec (.rwait c d a b) s = .next { s with sys := s.sys.sliverEnd c 0x10 false } := by
  subst hm
  change onSys (Sys.awl c _) s = _
  rw [onSys_awl h]
  dsimp only
  rw [if_pos hbad]
  rfl

section
variable (he : (r.x a).toNat < 256) (hduo : s.sys.glob.config ≠ 0) (u : s.Undisturbed r)
include he hduo u

theorem rwait_pending (hp : m.pending = true) (hf : m.full = false) :
    exec (.rwait c d a b) s = .next (s.putRun c { r with wait := .mbox (r.x a).toNat d (r.x b).toNat }) := by
  subst hm
  change onSys (Sys.awl c _) s = _
  rw [onSys_awl h]
  dsimp only
  rw [if_neg (by simp [hp, hduo, he]), if_neg (by simp [hf]), waitOn_boundary _ u]

/-- A full entry that came well is collected: its payload goes to the local store, its length to xd. -/
theorem rwait_collects (g : r.GoesOn (r.pc + 4)) (hd : ∀ k ∈ r.cmds, k.kind ≠ .drain) (hf : m.full = true) (hst : m.status = 0)
    (hls : (r.x b).toNat + m.data.length ≤ 0x4000) :
    exec (.rwait c d a b) s = .next (State.putCore c
      { s.sys.core c with run := some { r.setx d (BitVec.ofNat 32 m.data.length) with pc := r.pc + 4 }, ls := (s.sys.core c).ls.write 64 (r.x b).toNat m.data }
      { s with sys := s.sys.freeMbox (stallOf c) (r.x a).toNat }) := by
  have hwait : ({ r with wait := .none } : Run) = r := by rw [← h.ready]
  have g' := g.setx d (BitVec.ofNat 32 m.data.length)
  let s' : State := { s with sys := s.sys.freeMbox (stallOf c) (r.x a).toNat }
  have u' : s'.Undisturbed r := ⟨u.cancel, u.whole, u.suspend, u.hold, u.request⟩
  have hrun : (s'.sys.core c).run = some r := h.run
  have hcollect : s.sys.collect c (stallOf c) (r.x a).toNat d (r.x b).toNat =
      ((s'.sys.lsWrite c (r.x b).toNat m.data).retire c (r.setx d (BitVec.ofNat 32 m.data.length))).boundary c := by
    unfold Sys.collect
    rw [if_neg (by simp [h.run]), ← hm]
    dsimp only
    rw [if_neg (by simp [hst]), if_neg (by simp [lsOk_iff.mpr hls])]
    exact (access_none hrun hd _).trans (by rw [hwait])
  have hput := congrArg State.sys (lsWrite_retire (c := c) (r := r.setx d (BitVec.ofNat 32 m.data.length)) (by rw [Run.setx_pc]; exact g') (r.x b).toNat m.data s')
  simp only [State.putCore, Run.setx_pc] at hput
  change onSys (Sys.awl c _) s = _
  rw [onSys_awl h]
  dsimp only
  rw [← hm, if_neg (by simp [hf, hduo, he]), if_pos hf, hcollect, hput]
  rw [boundary_setRun (s := s') u' rfl (by simp) (by simp)]
  rfl

end

end

end

end Sys2Proof.Machine

section
open Sys2Proof Sys2Proof.Machine

/-- Settles O42. -/
theorem waitsAndBoundaries : Obligations.WaitsAndBoundaries := by
  refine ⟨?_, ?_, ?_, ?_⟩
  · intro c a s r h g
    refine ⟨fun m hm => ⟨ewait_free h g hm, ewait_busy h hm⟩, tile_free h g, tile_busy h, ?_⟩
    rintro own hown
    rw [← Sys.xfersOf_run h.run] at hown
    subst hown
    refine ⟨fence_free h g, fence_busy h, dwait_unknown h, fun ht u => ⟨dwait_ended h g u ht, dwait_open h u ht⟩, ?_⟩
    rintro hc hx v rfl
    exact ⟨_, rfl, forceCmds_zero_run h.run, exit_free h hc hx⟩
  · intro c t s r hr hw hc
    exact tileOverrun_outside (by simp [Core.inTile, hr, hw, hc])
  · intro c s r hst hfr hr hw
    refine tileOverrun_inside ?_
    rcases hw with hw | hw | hw <;> simp [Core.inTile, hst, hfr, hr, hw]
  · rintro c d a b e s r m h rfl hm
    refine ⟨rwait_refused h hm, fun he hduo hp hf u => rwait_pending h hm he hduo u hp hf, ?_⟩
    intro he hduo hf hst hls hd g u
    refine ⟨_, rwait_collects h hm he hduo u g hd hf hst hls, rfl, rfl, rfl, ?_, ?_, ?_, ?_⟩
    · exact tget_tmod_same _ _ _ _
    · simp [State.putCore, Sys.freeMbox, Sys.modPool, Sys.modCons, Sys.modStall, Sys.modStalls, Sys.stall, stallOf]
    · simp [State.putCore, Sys.core]
    · intro k hk
      exact tget_tset_other _ _ _ _ _ hk
end

/-! ### Field types of a REGISTER_WRITE (R6, R8) -/

namespace Sys2Proof.Machine

section
variable {m o w e : Nat} {s : State}

/-- On a module that is UP, out of STILL, a REGISTER_WRITE returns its credit and takes effect as a host write. -/
theorem exec_registerWrite (hm : m < 2) (hup : (s.sys.module m).st = 3) (hstill : s.sys.inStill = false) (ho : o < 2 ^ 26) (size : Nat) :
    exec (.registerWrite m o ⟨w, e⟩ size) s = .next ((s.modSys (Sys.emit (.crd m 1 0 1))).hostWriteReg e o (w % 2 ^ 32) size) := by
  change execRegisterWrite m o ⟨w, e⟩ size s = _
  have hstill' : (s.modSys (Sys.emit (.crd m 1 0 1))).sys.inStill = false := hstill
  simp only [execRegisterWrite, Nat.mod_eq_of_lt hm, Nat.mod_eq_of_lt ho, hup, ne_eq, not_true_eq_false, if_false, hstill', Bool.false_eq_true]

/-- A write of a word that no command of the global block owns and nobody forwards, when it keeps the global block. -/
theorem State.hostWriteReg_kept {y : Sys} (ha : o % 4 = 0) (ho : o ≠ 0x18 ∧ o ≠ 0x2C ∧ o ≠ 0x34 ∧ o ≠ 0x38)
    (hf : forwarded o = false ∨ s.sys.glob.config ≠ 2) (hw : s.sys.writeAt s.boot.cause e o w = y) (hg : y.glob = s.sys.glob) :
    s.hostWriteReg e o w 4 = { s with sys := y } := by
  have hword : s.writeWord e o w = { s with sys := y } := by
    rw [State.writeWord_block e w s ho]
    simp only [State.modSys, hw, Sys.countOnce_self y _ (congrArg Glob.rejects hg)]
  rw [State.hostWriteReg_notForwarded ha hf (by rw [hword, hg]), hword]

/-- A write that its block rejects is counted once. -/
theorem State.hostWriteReg_rejected (ha : o % 4 = 0) (ho : o ≠ 0x18 ∧ o ≠ 0x2C ∧ o ≠ 0x34 ∧ o ≠ 0x38) (hf : forwarded o = false)
    (hw : s.sys.writeAt s.boot.cause e o w = s.sys.reject) : s.hostWriteReg e o w 4 = s.modSys Sys.reject := by
  have hword : s.writeWord e o w = s.modSys Sys.reject := by
    rw [State.writeWord_block e w s ho]
    simp only [State.modSys, hw, Sys.reject_countOnce]
  rw [State.hostWriteReg_notForwarded ha (.inl hf) (by rw [hword]; rfl), hword]

/-- A REGISTER_WRITE that keeps the global block. -/
theorem exec_registerWrite_kept {y : Sys} (hm : m < 2) (hup : (s.sys.module m).st = 3) (hstill : s.sys.inStill = false) (hlt : o < 2 ^ 26)
    (ha : o % 4 = 0) (ho : o ≠ 0x18 ∧ o ≠ 0x2C ∧ o ≠ 0x34 ∧ o ≠ 0x38) (hf : forwarded o = false ∨ s.sys.glob.config ≠ 2)
    (hw : (s.sys.emit (.crd m 1 0 1)).writeAt s.boot.cause e o (w % 2 ^ 32) = y) (hg : y.glob = s.sys.glob) :
    exec (.registerWrite m o ⟨w, e⟩ 4) s = .next { s with sys := y } := by
  rw [exec_registerWrite hm hup hstill hlt, State.hostWriteReg_kept (s := s.modSys (Sys.emit (.crd m 1 0 1))) ha ho hf hw hg]
  simp only [State.modSys]

/-- A REGISTER_WRITE that its block rejects. -/
theorem exec_registerWrite_rejected (hm : m < 2) (hup : (s.sys.module m).st = 3) (hstill : s.sys.inStill = false) (hlt : o < 2 ^ 26)
    (ha : o % 4 = 0) (ho : o ≠ 0x18 ∧ o ≠ 0x2C ∧ o ≠ 0x34 ∧ o ≠ 0x38) (hf : forwarded o = false)
    (hw : (s.sys.emit (.crd m 1 0 1)).writeAt s.boot.cause e o (w % 2 ^ 32) = (s.sys.emit (.crd m 1 0 1)).reject) :
    exec (.registerWrite m o ⟨w, e⟩ 4) s = .next (s.modSys fun y => (y.emit (.crd m 1 0 1)).reject) := by
  rw [exec_registerWrite hm hup hstill hlt, State.hostWriteReg_rejected (s := s.modSys (Sys.emit (.crd m 1 0 1))) ha ho hf hw]
  simp only [State.modSys]

end

/-! #### The bits of a word -/

theorem bitAt_eq_testBit (w k : Nat) : bitAt w k = w.testBit k := by
  rw [Nat.testBit_eq_decide_div_mod_eq, bitAt, beq_eq_decide]

theorem testBit_andNot (w m i : Nat) : (andNot w m).testBit i = (w.testBit i && !m.testBit i) := by
  unfold andNot
  induction i generalizing w m with
  | zero =>
    have hle : w &&& m ≤ w := Nat.and_le_left
    have hmod : (w &&& m) % 2 = 1 ↔ w % 2 = 1 ∧ m % 2 = 1 := Nat.and_mod_two_eq_one
    rw [Nat.testBit_zero, Nat.testBit_zero, Nat.testBit_zero, ← decide_not, ← Bool.decide_and, decide_eq_decide]
    omega
  | succ i ih =>
    have hle : w &&& m ≤ w := Nat.and_le_left
    have hmod : (w &&& m) % 2 = 1 ↔ w % 2 = 1 ∧ m % 2 = 1 := Nat.and_mod_two_eq_one
    have hdiv : (w &&& m) / 2 = w / 2 &&& m / 2 := Nat.and_div_two
    have hsub : (w - (w &&& m)) / 2 = w / 2 - (w &&& m) / 2 := by omega
    rw [Nat.testBit_succ, hsub, hdiv, ih, Nat.testBit_succ, Nat.testBit_succ]

/-- What an RW1C field of n bits holds after a write (R6, R8). -/
theorem bitAt_rw1c {n i : Nat} (hi : i < n) (hn : n ≤ 32) (old w h : Nat) :
    bitAt (put (rw1c old (w % 2 ^ 32 % 2 ^ n) (h % 2 ^ n)) 0 n) i = (bitAt h i || (bitAt (put old 0 n) i && !bitAt w i)) := by
  have h32 : i < 32 := by omega
  simp only [put, pow_zero, Nat.mul_one, bitAt_eq_testBit, rw1c, Nat.testBit_mod_two_pow, Nat.testBit_or, testBit_andNot, hi, h32,
    decide_true, Bool.true_and]
  exact Bool.or_comm _ _

end Sys2Proof.Machine

section
open Sys2Proof.Machine

/-- Settles O13: at each offset listed the window's table gives one row, which writes its field, nothing, or counts. -/
theorem registerFieldTypes : Obligations.RegisterFieldTypes := by
  intro m w e s hm hup hstill
  have kept : ∀ o y, o < 2 ^ 26 → o % 4 = 0 → (o ≠ 0x18 ∧ o ≠ 0x2C ∧ o ≠ 0x34 ∧ o ≠ 0x38) → (forwarded o = false ∨ s.sys.glob.config ≠ 2) →
    (s.sys.emit (.crd m 1 0 1)).writeAt s.boot.cause e o (w % 2 ^ 32) = y → y.glob = s.sys.glob →
    exec (.registerWrite m o ⟨w, e⟩ 4) s = .next { s with sys := y } := fun o y => exec_registerWrite_kept hm hup hstill
  have width : ∀ n ≤ 32, put (w % 2 ^ 32 % 2 ^ n) 0 n = w % 2 ^ n := fun n hn => by
    rw [put, pow_zero, Nat.mul_one, Nat.mod_mod, Nat.mod_mod_of_dvd _ (pow_dvd_pow 2 hn)]
  refine ⟨?_, ?_, ?_, ?_⟩
  · simp only [List.forall_mem_cons]
    exact ⟨⟨_, kept 0x100004 _ (by decide) rfl (by decide) (.inl rfl) rfl rfl, width 16 (by decide), rfl, rfl, rfl, rfl, rfl, rfl⟩,
      ⟨_, kept 0x200030 _ (by decide) rfl (by decide) (.inl rfl) rfl rfl, width 16 (by decide), rfl, rfl, rfl, rfl, rfl, rfl⟩,
      ⟨_, kept 0x200038 _ (by decide) rfl (by decide) (.inl rfl) rfl rfl, width 16 (by decide), rfl, rfl, rfl, rfl, rfl, rfl⟩,
      ⟨_, kept 0x500020 _ (by decide) rfl (by decide) (.inl rfl) rfl rfl, width 16 (by decide), rfl, rfl, rfl, rfl, rfl, rfl⟩,
      ⟨_, kept 0x500024 _ (by decide) rfl (by decide) (.inl rfl) rfl rfl, width 8 (by decide), rfl, rfl, rfl, rfl, rfl, rfl⟩,
      ⟨_, kept 0x800010 _ (by decide) rfl (by decide) (.inl rfl) rfl rfl, width 16 (by decide), rfl, rfl, rfl, rfl, rfl, rfl⟩,
      ⟨_, kept 0xB00014 _ (by decide) rfl (by decide) (.inl rfl) rfl rfl, width 16 (by decide), rfl, rfl, rfl, rfl, rfl, rfl⟩,
      ⟨_, kept 0x60001C _ (by decide) rfl (by decide) (.inl rfl) rfl rfl, width 16 (by decide), rfl, rfl, rfl, rfl, rfl, rfl⟩, by simp⟩
  · simp only [List.forall_mem_cons]
    exact ⟨fun _ => ⟨_, kept 0x10000C _ (by decide) rfl (by decide) (.inl rfl) rfl rfl, rfl, rfl, rfl, fun _ hi => bitAt_rw1c hi (by decide) _ w e⟩,
      fun _ => ⟨_, kept 0x10081C _ (by decide) rfl (by decide) (.inl rfl) rfl rfl, rfl, rfl, rfl, fun _ hi => bitAt_rw1c hi (by decide) _ w e⟩,
      fun _ => ⟨_, kept 0x500028 _ (by decide) rfl (by decide) (.inl rfl) rfl rfl, rfl, rfl, rfl, fun _ hi => bitAt_rw1c hi (by decide) _ w e⟩,
      fun hc => ⟨_, kept 0x100C24 _ (by decide) rfl (by decide) (.inr (hc.resolve_left (by decide))) rfl rfl, rfl, rfl, rfl,
        fun _ hi => bitAt_rw1c hi (by decide) _ w e⟩, by simp⟩
  · simp only [List.forall_mem_cons]
    exact ⟨kept 0x0 _ (by decide) rfl (by decide) (.inl rfl) rfl rfl, kept 0x4 _ (by decide) rfl (by decide) (.inl rfl) rfl rfl,
      kept 0x10 _ (by decide) rfl (by decide) (.inl rfl) rfl rfl, kept 0x20 _ (by decide) rfl (by decide) (.inl rfl) rfl rfl,
      kept 0x700000 _ (by decide) rfl (by decide) (.inl rfl) rfl rfl, kept 0x800000 _ (by decide) rfl (by decide) (.inl rfl) rfl rfl, by simp⟩
  · have counted : ∀ o, o < 2 ^ 26 → o % 4 = 0 → (o ≠ 0x18 ∧ o ≠ 0x2C ∧ o ≠ 0x34 ∧ o ≠ 0x38) → forwarded o = false →
        (s.sys.emit (.crd m 1 0 1)).writeAt s.boot.cause e o (w % 2 ^ 32) = (s.sys.emit (.crd m 1 0 1)).reject →
        exec (.registerWrite m o ⟨w, e⟩ 4) s = .next (s.modSys fun y => (y.emit (.crd m 1 0 1)).reject) :=
      fun o => exec_registerWrite_rejected hm hup hstill
    simp only [List.forall_mem_cons]
    exact ⟨counted 0x200008 (by decide) rfl (by decide) rfl rfl, counted 0x20000C (by decide) rfl (by decide) rfl rfl,
      counted 0x30000C (by decide) rfl (by decide) rfl rfl, counted 0x300010 (by decide) rfl (by decide) rfl rfl,
      counted 0x300014 (by decide) rfl (by decide) rfl rfl, counted 0x500000 (by decide) rfl (by decide) rfl rfl, by simp⟩
end

/-! ### Forwarded writes (R391) -/

namespace Sys2Proof.Machine

/-- BRIDLE_CTX_MIXc as a write takes it. -/
def Sys.mixWrite (c w : Nat) (y : Sys) : Sys := y.modCtx c fun k => { k with mixEn := bitAt w 0, prefillMax := fld w 1 3 }

section
variable {c : Nat} (hc : c < 64)
include hc

theorem forwarded_mix : forwarded (0x100400 + 4 * c) = true := by
  simp only [forwarded, Bool.or_eq_true, decide_eq_true_eq]
  omega

/-- No 64-bit register lies at a BRIDLE_CTX_MIX word or right before it. -/
theorem Sys.wideReg_mix {k : Nat} (hk : k = 0x100400 + 4 * c ∨ k + 4 = 0x100400 + 4 * c) (y : Sys) : y.wideReg k = none := by
  unfold Sys.wideReg
  rw [if_neg (by omega), if_neg (by omega)]
  refine tfind_eq_none ?_
  simp only [List.forall_mem_cons]
  refine ⟨?_, ?_, ?_, ?_, ?_, ?_, ?_, ?_, ?_, ?_, ?_, ?_, ?_, ?_, ?_, ?_, ?_, ?_, ?_, ?_, ?_, by simp⟩
  all_goals omega

theorem Sys.writeAt_mix (cause h w : Nat) (y : Sys) : y.writeAt cause h (0x100400 + 4 * c) w = y.mixWrite c w := by
  have hcell : (0x100400 + 4 * c - 0x100000 - 0x400) / 4 = c := by omega
  simp only [Sys.writeAt, Sys.wideReg_mix hc (.inl rfl), Sys.wideReg_mix hc (k := 0x100400 + 4 * c - 4) (by omega), Option.isSome_none,
    Bool.false_eq_true, and_false, if_false]
  rw [if_neg (by omega), if_pos (by omega)]
  simp only [Sys.bridleWriteAt]
  rw [if_neg (by omega), if_pos (by omega), hcell]
  rfl

theorem State.writeWord_mix (h w : Nat) (s : State) : s.writeWord h (0x100400 + 4 * c) w = s.modSys (Sys.mixWrite c w) := by
  rw [State.writeWord_block h w s (by omega)]
  simp only [State.modSys, Sys.writeAt_mix hc]
  rw [Sys.countOnce_self (s.sys.mixWrite c w) s.sys.glob.rejects rfl]

/-- Where no worker rejects it, a host write of the register takes effect and is offered to the Harness (R391). -/
theorem State.hostWriteReg_mix {s : State} (h w : Nat) (hw : s.sys.mirrorWorker = false) :
    s.hostWriteReg h (0x100400 + 4 * c) w 4 = (s.modSys (Sys.mixWrite c w)).modSys (Sys.mirrored (0x100400 + 4 * c) w id) := by
  rw [State.hostWriteReg, if_neg (by omega), if_pos (forwarded_mix hc), State.writeWord_mix hc]
  simp only [hw, Bool.false_eq_true, if_false]

end

/-- The manager of a formed Duo sends on what it writes (R391). -/
theorem Sys.mirrored_manager {off w : Nat} {f : Sys → Sys} {y : Sys} (hw : y.mirrorWorker = false)
    (h : y.glob.config = 2 ∧ y.duo.role = 2 ∧ y.duo.alone = false ∧ y.duo.st = 3) : y.mirrored off w f = (f y).hpost (.harness "MIRROR" [off, w] []) := by
  simp only [Sys.mirrored, hw, Bool.false_eq_true, if_false, if_pos h]

/-- A worker that serves a manager rejects the host's write of a forwarded register (R391). -/
theorem State.hostWriteReg_worker {s : State} {o : Nat} (h w : Nat) (hw : s.sys.mirrorWorker = true) (hf : forwarded o = true) (ho : o % 4 = 0) :
    s.hostWriteReg h o w 4 = s.rejected := by
  rw [State.hostWriteReg, if_neg (by omega), if_pos hf, if_pos hw]

end Sys2Proof.Machine

section
open Sys2Proof.Machine

/-- Settles O14: the write of the word is the same on every die; the role decides whether it is rejected, applied, or applied and sent on. -/
theorem forwardedWrites : Obligations.ForwardedWrites := by
  intro c w h s hc hw
  refine ⟨⟨s.modSys (Sys.mixWrite c w), rfl, fun hcfg => ?_, fun hcfg hrole halone hst => ?_, fun hcfg hrole hst => ?_⟩,
    fun hcfg hrole halone o hf ho => ?_⟩
  · rw [State.hostWriteReg_mix hc h w (by simp [Sys.mirrorWorker, hcfg])]
    have hplain : (s.modSys (Sys.mixWrite c w)).sys.glob.config ≠ 2 := by simp [State.modSys, Sys.mixWrite, Sys.modCtx, hcfg]
    simp only [State.modSys] at hplain ⊢
    rw [Sys.mirrored_plain hplain]
    rfl
  · have hmanager : s.sys.mirrorWorker = false := by simp [Sys.mirrorWorker, hrole]
    rw [State.hostWriteReg_mix hc h w hmanager]
    simp only [State.modSys]
    rw [Sys.mirrored_manager (y := s.sys.mixWrite c w) hmanager ⟨hcfg, hrole, halone, hst⟩]
    rfl
  · change execMirror (0x100400 + 4 * c) w [] s = _
    rw [execMirror, if_pos ⟨hcfg, hrole, hst⟩, Nat.mod_eq_of_lt hw, State.writeWord_mix hc]
    rfl
  · rw [State.hostWriteReg_worker h w (by simp [Sys.mirrorWorker, hcfg, hrole, halone]) hf ho]
    rfl
end

/-! ### Loads of bring-up (R44, R425, R454) -/

namespace Sys2Proof.Machine

/-! #### A pipe's own changes -/

section
variable (n k : Nat) (y : Sys)

@[simp] theorem Sys.modPipe_bridle (f : Pipe → Pipe) : (y.modPipe n f).bridle = y.bridle := by unfold Sys.modPipe; split <;> rfl
@[simp] theorem Sys.modPipe_work (f : Pipe → Pipe) : (y.modPipe n f).work = y.work := by unfold Sys.modPipe; split <;> rfl
@[simp] theorem Sys.modPipe_cores (f : Pipe → Pipe) : (y.modPipe n f).cores = y.cores := by unfold Sys.modPipe; split <;> rfl

@[simp] theorem Sys.calmClear_glob : (y.calmClear n k).glob = y.glob := Sys.modPipe_glob ..
@[simp] theorem Sys.calmClear_bridle : (y.calmClear n k).bridle = y.bridle := Sys.modPipe_bridle ..
@[simp] theorem Sys.calmClear_work : (y.calmClear n k).work = y.work := Sys.modPipe_work ..
@[simp] theorem Sys.calmClear_cores : (y.calmClear n k).cores = y.cores := Sys.modPipe_cores ..

@[simp] theorem Sys.setSource_glob : (y.setSource n).glob = y.glob := by unfold Sys.setSource; split <;> simp
@[simp] theorem Sys.setSource_bridle : (y.setSource n).bridle = y.bridle := by unfold Sys.setSource; split <;> simp

@[simp] theorem Sys.timingStopped_glob : (y.timingStopped n).glob = y.glob := by
  unfold Sys.timingStopped; dsimp only; split <;> split <;> simp
@[simp] theorem Sys.timingStopped_bridle : (y.timingStopped n).bridle = y.bridle := by
  unfold Sys.timingStopped; dsimp only; split <;> split <;> simp

@[simp] theorem Sys.pipeDisable_glob : (y.pipeDisable n).glob = y.glob := by unfold Sys.pipeDisable; split <;> simp
@[simp] theorem Sys.pipeDisable_bridle : (y.pipeDisable n).bridle = y.bridle := by unfold Sys.pipeDisable; split <;> simp

@[simp] theorem Sys.newDisplay_glob (ws : List Nat) : (y.newDisplay n ws).glob = y.glob := by
  unfold Sys.newDisplay; dsimp only; split_ifs <;> simp
@[simp] theorem Sys.newDisplay_bridle (ws : List Nat) : (y.newDisplay n ws).bridle = y.bridle := by
  unfold Sys.newDisplay; dsimp only; split_ifs <;> simp

end

/-! #### A Pattern that applies -/

theorem Sys.applyPattern_glob (msg : List Byte) (y : Sys) : (y.applyPattern msg).glob =
    { y.glob with config := fld ((section_ msg 9).getD 0 0) 0 2, patternDigest := Shake.shake256 32 msg, amendCount := 0 } := by
  simp only [Sys.applyPattern, Sys.newDisplay_glob]
  rfl

theorem Sys.applyPattern_ranges (msg : List Byte) (y : Sys) : (y.applyPattern msg).bridle.ranges = queueRanges (section_ msg 3) := by
  simp only [Sys.applyPattern, Sys.newDisplay_bridle]
  rfl

/-- An image that passes the checks of R37 has the form of a Pattern. -/
theorem patParts_of_patternError {key img : List Byte} {part step en : Nat} {duoMode : Bool}
    (h : patternError key part step en duoMode img = 0) : ∃ msg sig, patParts img = some (msg, sig) := by
  unfold patternError at h
  split at h
  · exact absurd h (by decide)
  · exact ⟨_, _, ‹_›⟩

section
variable {s : State}

theorem State.loadFw_waiting (img : List Byte) (h : s.boot.phase = .waitFirmware) : s.loadFw img = (s.stage img).enter .firmware := if_pos h

theorem State.loadPattern_waiting (img : List Byte) (h : s.boot.phase = .waitPattern) : s.loadPattern img = (s.stage img).enter .pattern := if_pos h

/-- A firmware image that fails leaves its code in ERROR. -/
theorem execFirmwareVerifyDone_error (h : s.boot.phase = .firmware) {e : Nat}
    (he : firmwareCheck s.boot.rootKey s.sys.glob.part s.sys.glob.step s.boot.image = .error e) :
    execFirmwareVerifyDone s = .next (s.modBoot fun b => { b with phase := .waitFirmware, error := e, image := [] }) := by
  simp only [execFirmwareVerifyDone, h, ne_eq, not_true_eq_false, if_false, he]

/-- A firmware image that passes leaves its version. -/
theorem execFirmwareVerifyDone_ok (h : s.boot.phase = .firmware) {v : Nat}
    (hv : firmwareCheck s.boot.rootKey s.sys.glob.part s.sys.glob.step s.boot.image = .ok v) :
    execFirmwareVerifyDone s = .next ((s.modBoot fun b => { b with phase := .waitPattern, error := 0, image := [] }).modSys fun y =>
      y.modSec fun c => { c with fwVersion := v }) := by
  simp only [execFirmwareVerifyDone, h, ne_eq, not_true_eq_false, if_false, hv]

/-- A Pattern that fails leaves its code in ERROR and nothing else. -/
theorem execPatternCheckDone_error (h : s.boot.phase = .pattern) {e : Nat}
    (he : patternError s.boot.rootKey s.sys.glob.part s.sys.glob.step s.sys.glob.stallEn s.boot.duoMode s.boot.image = e) (h0 : e ≠ 0) :
    execPatternCheckDone s = .next (s.modBoot fun b => { b with phase := .waitPattern, error := e, image := [] }) := by
  simp only [execPatternCheckDone, h, ne_eq, not_true_eq_false, if_false, he, h0, not_false_eq_true, if_true]

/-- A Pattern that passes applies whole. -/
theorem execPatternCheckDone_ok (h : s.boot.phase = .pattern) {msg sig : List Byte} (hp : patParts s.boot.image = some (msg, sig))
    (he : patternError s.boot.rootKey s.sys.glob.part s.sys.glob.step s.sys.glob.stallEn s.boot.duoMode s.boot.image = 0) :
    ∃ t, execPatternCheckDone s = .next t ∧ t.boot.phase = .apply ∧ t.boot.error = 0 ∧ t.tap = s.tap ∧ t.sys = s.sys.applyPattern msg := by
  simp only [execPatternCheckDone, h, ne_eq, not_true_eq_false, if_false, he, hp]
  exact ⟨_, rfl, rfl, rfl, rfl, rfl⟩

end

end Sys2Proof.Machine

section
open Sys2Proof.Machine

/-- Settles O16: each of the four commands has one equation per outcome of its check, and `applyPattern_glob` and `applyPattern_ranges` say what a
Pattern leaves in the registers named. -/
theorem bringUpLoads : Obligations.BringUpLoads := by
  refine ⟨fun img s h => ?_, fun img s h => ?_, fun img s => ⟨fun h => ?_, fun h => ?_, rfl⟩, fun s h => ?_, fun s h => ?_⟩
  · change Host.Outcome.next (s.loadFw img) = _
    rw [State.loadFw_waiting img h]
    rfl
  · change Host.Outcome.next (s.loadPattern img) = _
    rw [State.loadPattern_waiting img h]
    rfl
  · change Host.Outcome.next (s.loadFw img) = _
    rw [State.loadFw, if_neg h]
  · change Host.Outcome.next (s.loadPattern img) = _
    rw [State.loadPattern, if_neg h]
  · change ∃ t, execFirmwareVerifyDone s = .next t ∧ _
    cases hc : firmwareCheck s.boot.rootKey s.sys.glob.part s.sys.glob.step s.boot.image with
    | error e =>
      rw [execFirmwareVerifyDone_error h hc]
      refine ⟨_, rfl, rfl, ?_, ?_⟩
      · rintro _ ⟨⟩; rfl
      · rintro _ ⟨⟩
    | ok v =>
      rw [execFirmwareVerifyDone_ok h hc]
      refine ⟨_, rfl, rfl, ?_, ?_⟩
      · rintro _ ⟨⟩
      · rintro _ ⟨⟩; rfl
  · change ∃ t, execPatternCheckDone s = .next t ∧ _
    by_cases h0 : patternError s.boot.rootKey s.sys.glob.part s.sys.glob.step s.sys.glob.stallEn s.boot.duoMode s.boot.image = 0
    · obtain ⟨msg, sig, hp⟩ := patParts_of_patternError h0
      obtain ⟨t, ht, hphase, herror, htap, hsys⟩ := execPatternCheckDone_ok h hp h0
      refine ⟨t, ht, htap, ?_⟩
      rintro e rfl
      refine ⟨fun hne => absurd h0 hne, fun _ => ⟨hphase, herror, (msg, sig), hp, ?_, ?_, ?_⟩⟩
      · rw [hsys, Sys.applyPattern_glob]
      · rw [hsys, Sys.applyPattern_glob]
      · rw [hsys, Sys.applyPattern_ranges]
    · refine ⟨_, execPatternCheckDone_error h rfl h0, rfl, ?_⟩
      rintro e rfl
      exact ⟨fun _ => rfl, fun h => absurd h h0⟩
end

/-! ### Steps 10, 11a and 11b (R42) -/

namespace Sys2Proof.Machine

/-! #### Tables and masks -/

/-- A table that lists one value of a function for each number below n. -/
theorem tget_map_range {α : Type} (d : α) (f : Nat → α) {n c : Nat} (h : c < n) : tget d ((List.range n).map fun i => (i, f i)) c = f c := by
  have hlist : ∀ l : List Nat, c ∈ l → tget d (l.map fun i => (i, f i)) c = f c := fun l hc => by
    induction l with
    | nil => cases hc
    | cons i l ih =>
      by_cases hi : i = c
      · rw [List.map_cons, tget, if_pos hi, hi]
      · simp only [List.map_cons, tget, if_neg hi]
        exact ih ((List.mem_cons.mp hc).resolve_left fun e => hi e.symm)
  exact hlist _ (List.mem_range.mpr h)

theorem mem_maskList {n w k : Nat} : k ∈ maskList n w ↔ k < n ∧ bitAt w k = true := by
  simp [maskList]

/-- Two masks of n bits have a common bit, or their conjunction is 0. -/
theorem land_eq_zero_iff (a b n : Nat) : Nat.land (a % 2 ^ n) b = 0 ↔ ∀ c < n, bitAt b c = true → bitAt a c = false := by
  change a % 2 ^ n &&& b = 0 ↔ _
  simp only [bitAt_eq_testBit]
  constructor
  · intro h c hc hb
    have hbit := congrArg (Nat.testBit · c) h
    simpa [Nat.testBit_and, hc, hb] using hbit
  · intro h
    refine Nat.eq_of_testBit_eq fun c => ?_
    rw [Nat.testBit_and, Nat.testBit_mod_two_pow, Nat.zero_testBit]
    by_cases hc : c < n
    · cases hb : b.testBit c
      · simp
      · simp [h c hc hb]
    · simp [hc]

/-! #### Stalls changed in a row -/

section
variable {f : Stall → Stall} (hf : ∀ t, f (f t) = f t)

theorem Sys.stall_foldl_modStall_other (l : List Nat) (y : Sys) {k : Nat} (hk : k ∉ l) : (l.foldl (fun y k => y.modStall k f) y).stall k = y.stall k := by
  induction l generalizing y with
  | nil => rfl
  | cons j l ih =>
    obtain ⟨hkj, hkl⟩ : k ≠ j ∧ k ∉ l := by simpa using hk
    rw [List.foldl_cons, ih _ hkl, Sys.stall_modStall_other _ _ _ _ hkj]

include hf

theorem Sys.stall_foldl_modStall_mem (l : List Nat) (y : Sys) {k : Nat} (hk : k ∈ l) : (l.foldl (fun y k => y.modStall k f) y).stall k = f (y.stall k) := by
  induction l generalizing y with
  | nil => cases hk
  | cons j l ih =>
    rw [List.foldl_cons]
    by_cases hl : k ∈ l
    · by_cases hkj : k = j
      · rw [ih _ hl, hkj, Sys.stall_modStall_same, hf]
      · rw [ih _ hl, Sys.stall_modStall_other _ _ _ _ hkj]
    · obtain rfl : k = j := (List.mem_cons.mp hk).resolve_right hl
      rw [Sys.stall_foldl_modStall_other l _ hl, Sys.stall_modStall_same]

end
theorem Sys.mem_foldl_modStall (f : Stall → Stall) (l : List Nat) (y : Sys) : (l.foldl (fun y k => y.modStall k f) y).mem = y.mem := by
  induction l generalizing y with
  | nil => rfl
  | cons j l ih => exact ih _

/-! #### What the three commands do -/

/-- What a stall that comes up has cleared (R50, R52). -/
def Stall.ungated (t : Stall) : Stall := { t with gated := false, waking := false, epoch := 1, pool := {}, badPool := [] }

section
variable {s : State}

theorem execApplyPllLockDone_apply (h : s.boot.phase = .apply) (hpll : s.boot.pllDone = false) (ok : Bool) :
    execApplyPllLockDone ok s = if !ok then .next (s.halt 0x31) else
      .next ((s.modBoot fun b => { b with pinsOn := true, pllDone := true }).modSys fun y =>
        (y.runDomains ((maskList 17 (s.boot.clockWords.getD 2 0)).filter fun n => n != 4 || s.sys.glob.config != 0)).startArith) := by
  rw [execApplyPllLockDone, if_neg (by simp [h, hpll])]

theorem State.inStep11_apply (h : s.boot.phase = .apply) (hpll : s.boot.pllDone = true) : s.inStep11 = true := by simp [State.inStep11, h, hpll]

/-- READY comes when both parts of step 11 have ended. -/
theorem State.tryReady_both (hm : s.boot.memDone = true) (hs : s.boot.stallsDone = true) : s.tryReady.boot.phase = .ready := by
  rw [State.tryReady, if_pos (by rw [hm, hs]; rfl)]
  rfl

theorem State.tryReady_done (s : State) : s.tryReady.boot.memDone = s.boot.memDone ∧ s.tryReady.boot.stallsDone = s.boot.stallsDone := by
  unfold State.tryReady
  split <;> exact ⟨rfl, rfl⟩

theorem State.tryReady_waits (h : s.boot.memDone = false ∨ s.boot.stallsDone = false) : s.tryReady = s := by
  rw [State.tryReady, if_neg]
  rcases h with h | h <;> simp [h]

theorem State.tryReady_tap (s : State) : s.tryReady.tap = s.tap := by unfold State.tryReady; split <;> rfl

/-- The run-time blocks once the stalls have come up. -/
def Sys.stallsUp (y : Sys) : Sys :=
  ((y.placed.foldl (fun y k => y.modStall k Stall.ungated) y).modCores fun _ => []).modMem fun m => { m with loft := [] }

def State.stallsUp (s : State) : State := { s with boot := { s.boot with stallsDone := true }, sys := s.sys.stallsUp }

theorem execStallInitDone_step11 (h : s.inStep11 = true) (hd : s.boot.stallsDone = false) :
    execStallInitDone s = .next s.stallsUp.tryReady := by
  rw [execStallInitDone, if_neg (by simp [h, hd])]
  rfl

theorem Sys.stallsUp_mem (y : Sys) : y.stallsUp.mem = { y.mem with loft := [] } := by
  rw [Sys.stallsUp, Sys.modMem_mem]
  exact congrArg (fun m : MemSys => { m with loft := [] }) (Sys.mem_foldl_modStall _ _ _)

theorem Sys.mem_placed {y : Sys} {k : Nat} : k ∈ y.placed ↔ k < 64 ∧ y.enabled k = true ∧ y.domOfStall k ≠ none := by
  simp [Sys.placed, Option.isSome_iff_ne_none]

theorem Sys.stallsUp_placed {y : Sys} {k : Nat} (h : k ∈ y.placed) : y.stallsUp.stall k = (y.stall k).ungated :=
  Sys.stall_foldl_modStall_mem (f := Stall.ungated) (fun _ => rfl) _ _ h

theorem Sys.stallsUp_other {y : Sys} {k : Nat} (h : k ∉ y.placed) : y.stallsUp.stall k = y.stall k := Sys.stall_foldl_modStall_other _ _ h

/-- A channel's state once training has ended (R339, R342). -/
def chanTrained (failed mapped : Nat) (den : Nat → Nat) (c : Nat) : Chan :=
  { st := if bitAt failed c then 4 else if bitAt mapped c then 2 else 3, density := if den c ≤ 2 then den c else 0 }

def Sys.chansTrained (failed mapped : Nat) (den : Nat → Nat) (y : Sys) : Sys :=
  y.modMem fun m => { m with chans := (List.range 16).map fun c => (c, chanTrained failed mapped den c) }

theorem Sys.chansTrained_chans (failed mapped : Nat) (den : Nat → Nat) (y : Sys) :
    (y.chansTrained failed mapped den).mem.chans = (List.range 16).map fun c => (c, chanTrained failed mapped den c) := rfl

/-- The memory once the mapped channels are trained at one density. -/
def Sys.memUp (failed d0 : Nat) (keep : Bool) (y : Sys) : Sys :=
  let y := y.modMem fun m => { m with density := d0 }
  let y := if keep then y else y.modMem fun m => { m with dram := [], bad := [], shelf := [], shelfBad := [] }
  if failed % 2 ^ 16 ≠ 0 then y.memEvent 0 else y

def State.memTrained (failed mapped : Nat) (den : Nat → Nat) (s : State) : State :=
  { s with boot := { s.boot with memDone := true }
           sys := (s.sys.chansTrained failed mapped den).memUp failed (den ((maskList 16 mapped).headD 0)) s.boot.keepMem }

theorem execMemTrainDone_step11 (failed mapped : Nat) (densities : List Nat) (den : Nat → Nat) (h : s.inStep11 = true) (hd : s.boot.memDone = false)
    (hmapped : mapped = s.sys.mem.domChans.foldl Nat.lor 0)
    (hden : ∀ c, den c = if s.boot.keepMem then (tget {} s.sys.mem.chans c).density else densities.getD c 3) :
    execMemTrainDone failed densities s =
      if Nat.land (failed % 2 ^ 16) mapped ≠ 0 ∨ 2 < den ((maskList 16 mapped).headD 0) ∨
          (maskList 16 mapped).any (fun c => den c != den ((maskList 16 mapped).headD 0)) = true then
        .next ((s.modSys (Sys.chansTrained failed mapped den)).halt 0x30)
      else .next (s.memTrained failed mapped den).tryReady := by
  obtain rfl : den = fun c => if s.boot.keepMem then (tget {} s.sys.mem.chans c).density else densities.getD c 3 := funext hden
  subst hmapped
  rw [execMemTrainDone, if_neg (by simp [h, hd])]
  rfl

theorem Sys.memEvent_density (y : Sys) (k : Nat) : (y.memEvent k).mem.density = y.mem.density := by
  unfold Sys.memEvent; rw [(Sys.raiseIf_sent _ _ _).mem]; rfl

theorem Sys.memEvent_chans (y : Sys) (k : Nat) : (y.memEvent k).mem.chans = y.mem.chans := by
  unfold Sys.memEvent; rw [(Sys.raiseIf_sent _ _ _).mem]; rfl

theorem Sys.memUp_mem (failed d0 : Nat) (keep : Bool) (y : Sys) : (y.memUp failed d0 keep).mem.density = d0 ∧
    (y.memUp failed d0 keep).mem.dram = (if keep then y.mem.dram else []) ∧ (y.memUp failed d0 keep).mem.chans = y.mem.chans := by
  have event : ∀ z : Sys, (if failed % 2 ^ 16 ≠ 0 then z.memEvent 0 else z).mem.density = z.mem.density ∧
      (if failed % 2 ^ 16 ≠ 0 then z.memEvent 0 else z).mem.dram = z.mem.dram ∧
      (if failed % 2 ^ 16 ≠ 0 then z.memEvent 0 else z).mem.chans = z.mem.chans := fun z => by
    split
    · exact ⟨z.memEvent_density 0, Sys.memEvent_dram 0 z, z.memEvent_chans 0⟩
    · exact ⟨rfl, rfl, rfl⟩
  obtain ⟨hdensity, hdram, hchans⟩ := event _
  rw [Sys.memUp, hdensity, hdram, hchans]
  cases keep <;> exact ⟨rfl, rfl, rfl⟩

end

end Sys2Proof.Machine

section
open Sys2Proof.Machine

/-- Settles O17: `execApplyPllLockDone_apply`, `execStallInitDone_step11` and `execMemTrainDone_step11` give the three effects; a mapped channel that fails
shows in the common bits of the two masks (`land_eq_zero_iff`), one of another density in the comparison with the first. -/
theorem applySteps : Obligations.ApplySteps := by
  refine ⟨fun s h hpll => ⟨?_, ?_⟩, fun s h hpll hd => ?_, fun failed d0 den s h hpll hd mapped d hmapped hden => ⟨fun hex h2 hall => ?_, fun hbad => ?_⟩⟩
  · change ∃ t, execApplyPllLockDone true s = .next t ∧ _
    rw [execApplyPllLockDone_apply h hpll]
    exact ⟨_, rfl, rfl, rfl, rfl, rfl, rfl, rfl⟩
  · change execApplyPllLockDone false s = _
    rw [execApplyPllLockDone_apply h hpll]
    rfl
  · change ∃ t, execStallInitDone s = .next t ∧ _
    rw [execStallInitDone_step11 (State.inStep11_apply h hpll) hd]
    refine ⟨_, rfl, (State.tryReady_done _).2, State.tryReady_tap _, fun hm => State.tryReady_both hm rfl, fun hm => ?_⟩
    · rw [State.tryReady_waits (s := s.stallsUp) (.inl hm)]
      refine ⟨h, rfl, Sys.stallsUp_mem _, fun k hk he hp => ?_, fun k he => Sys.stallsUp_other fun hk => ?_⟩
      · have hup : s.stallsUp.sys.stall k = (s.sys.stall k).ungated := Sys.stallsUp_placed (Sys.mem_placed.mpr ⟨hk, he, hp⟩)
        rw [hup]
        exact ⟨rfl, rfl, rfl⟩
      · exact absurd he (by simp [(Sys.mem_placed.mp hk).2.1])
  · change ∃ t, execMemTrainDone failed den s = .next t ∧ _
    have hmem : ∀ c ∈ maskList 16 mapped, d c = d0 := fun c hc =>
      (hall c (mem_maskList.mp hc).1 (mem_maskList.mp hc).2).2
    have hhead : d ((maskList 16 mapped).headD 0) = d0 := by
      obtain ⟨c, hc16, hc⟩ := hex
      cases hl : maskList 16 mapped with
      | nil => exact absurd (mem_maskList.mpr ⟨hc16, hc⟩) (by simp [hl])
      | cons a l => exact hmem a (by simp [hl])
    have hland : Nat.land (failed % 2 ^ 16) mapped = 0 := (land_eq_zero_iff _ _ _).mpr fun c hc hb => (hall c hc hb).1
    rw [execMemTrainDone_step11 failed mapped den d (State.inStep11_apply h hpll) hd hmapped hden, if_neg (by
      rw [hhead]
      simp only [hland, ne_eq, not_true_eq_false, false_or, List.any_eq_true, bne_iff_ne, not_or, not_exists, not_and, not_not]
      exact ⟨by omega, hmem⟩)]
    refine ⟨_, rfl, (State.tryReady_done _).1, State.tryReady_tap _, fun hs => State.tryReady_both rfl hs, fun hs => ?_⟩
    · rw [State.tryReady_waits (s := s.memTrained failed mapped d) (.inr hs), State.memTrained, hhead]
      obtain ⟨hdensity, hdram, hchans⟩ := Sys.memUp_mem failed d0 s.boot.keepMem (s.sys.chansTrained failed mapped d)
      refine ⟨h, hdensity, hdram, fun c hc => ?_⟩
      rw [hchans, Sys.chansTrained_chans, tget_map_range {} (chanTrained failed mapped d) hc]
      rfl
  · change ∃ t, execMemTrainDone failed den s = .next t ∧ _
    obtain ⟨c, hc, hmap, hc2⟩ := hbad
    rw [execMemTrainDone_step11 failed mapped den d (State.inStep11_apply h hpll) hd hmapped hden, if_pos]
    · exact ⟨_, rfl, rfl, rfl, rfl⟩
    · rcases hc2 with hf | hdc
      · exact .inl fun hland => by simp [(land_eq_zero_iff _ _ _).mp hland c hc hmap] at hf
      · refine .inr ?_
        by_cases h0 : 2 < d ((maskList 16 mapped).headD 0)
        · exact .inl h0
        · refine .inr (List.any_eq_true.mpr ⟨c, mem_maskList.mpr ⟨hc, hmap⟩, bne_iff_ne.mpr ?_⟩)
          omega
end

/-! ### Run-time amendments (R47 to R49, R456) -/

namespace Sys2Proof.Machine

section
variable {s : State}

/-- AMEND out of READY, or during an amendment, is rejected. -/
theorem State.amend_refused (image : List Byte) (h : s.boot.phase ≠ .ready ∨ s.sys.glob.amendState = 1) : s.amend image = s.rejected := if_pos h

/-- The domains an image affects as written; none when it has no amendment's form (R47). -/
def State.affectedBy (image : List Byte) (s : State) : List Nat :=
  match patParts image with
  | some (msg, _) => affected s.loaded (s.loaded.amended msg)
  | none => []

/-- AMEND in READY stages the image and holds the domains it affects. -/
theorem State.amend_ready {img image : List Byte} {ds : List Nat} (h : s.boot.phase = .ready) (ha : s.sys.glob.amendState ≠ 1)
    (himage : image = if s.sys.glob.loadAddr % 64 = 0 then img.take (2 ^ 20) else []) (hds : ds = s.affectedBy image) :
    s.amend img = (s.modBoot fun b => { b with image := image, amendIdle := ds.all s.sys.domIdle, amendDoms := maskOf ds }).modSys fun y =>
      y.modGlob fun g => { g with amendState := 1, amendReason := 0, heldDomains := maskOf ds } := by
  subst hds himage
  rw [State.amend, if_neg (by simp [h, ha])]
  rfl

/-- An image without an amendment's form is rejected as malformed. -/
theorem execAmendmentEnd_formless (h : s.sys.glob.amendState = 1) (hp : patParts s.boot.image = none) : execAmendmentEnd s = .next (s.amendEnd 4) := by
  simp only [execAmendmentEnd, h, ne_eq, not_true_eq_false, if_false, hp]

/-- The order of the checks at the end of an amendment. -/
theorem execAmendmentEnd_form (h : s.sys.glob.amendState = 1) {p : List Byte × List Byte} (hp : patParts s.boot.image = some p) {e pool : Nat}
    (he : e = amendError s.boot.rootKey s.loaded s.boot.image) (hpool : pool = fld ((s.loaded.amended p.1).permits.getD 0 0) 0 18) :
    execAmendmentEnd s =
      if e ≠ 0 then .next (s.amendEnd e)
      else if !s.boot.amendIdle then .next (s.amendEnd 3)
      else if secLen p.1 4 ≠ 0 ∧ s.sys.girth.step ≠ .idle ∧ s.sys.girth.step ≠ .forced then .next s
      else if secLen p.1 4 ≠ 0 ∧ pool < (s.sys.pool 0 0).held - s.sys.girth.withheld then .next (s.amendEnd 6)
      else .next ((s.amended p.1).amendEnd 0) := by
  subst he hpool
  obtain ⟨msg, sig⟩ := p
  simp only [execAmendmentEnd, h, ne_eq, not_true_eq_false, if_false, hp]

/-- What a rejected amendment leaves: STATE and REASON, and no hold. -/
theorem State.amendEnd_rejected {r : Nat} (hr : r ≠ 0) : s.amendEnd r =
    { s with boot := { s.boot with image := [], amendDoms := 0, amendIdle := true }
             sys := Sys.grantAll s.sys.girth.reqs.length { s.sys with glob := { s.sys.glob with amendState := 3, amendReason := r, heldDomains := 0 } } } := by
  simp only [State.amendEnd, if_neg hr]
  rfl

end
end Sys2Proof.Machine

section
open Sys2Proof.Machine

/-- Settles O18: `execAmendmentEnd_form` gives the order of the checks, and each clause names the first that decides. -/
theorem amendments : Obligations.Amendments := by
  refine ⟨fun img s => ⟨fun h ha image ds himage hds => ?_, fun h => ?_⟩, fun s e h he rejected hrej => ⟨fun hp => ?_, fun p new pool hp hnew hpool => ?_⟩,
    fun s => rfl⟩
  · change Host.Outcome.next (s.amend img) = _
    rw [State.amend_ready h ha himage (hds.trans (by unfold State.affectedBy; cases patParts image <;> rfl))]
    rfl
  · change Host.Outcome.next (s.amend img) = _
    rw [State.amend_refused img h]
    rfl
  · change execAmendmentEnd s = _
    rw [execAmendmentEnd_formless h hp, State.amendEnd_rejected (by decide), hrej]
  · subst hnew
    change (_ → execAmendmentEnd s = _) ∧ (_ → _ → execAmendmentEnd s = _) ∧ (_ → _ → _ → _ → _ → execAmendmentEnd s = _) ∧
      (_ → _ → _ → _ → _ → execAmendmentEnd s = _) ∧ (_ → _ → _ → ∃ t, execAmendmentEnd s = _ ∧ _)
    rw [execAmendmentEnd_form h hp he hpool]
    refine ⟨fun h0 => ?_, fun h0 hi => ?_, fun h0 hi hs h1 h2 => ?_, fun h0 hi hs hst hheld => ?_, fun h0 hi hok => ?_⟩
    · rw [if_pos h0, State.amendEnd_rejected h0, hrej]
    · rw [if_neg (by simp [h0]), if_pos (by simp [hi]), State.amendEnd_rejected (by decide), hrej]
    · rw [if_neg (by simp [h0]), if_neg (by simp [hi]), if_pos ⟨hs, h1, h2⟩]
    · rw [if_neg (by simp [h0]), if_neg (by simp [hi]), if_neg (by tauto), if_pos ⟨hs, hheld⟩, State.amendEnd_rejected (by decide), hrej]
    · rw [if_neg (by simp [h0]), if_neg (by simp [hi]), if_neg (by tauto), if_neg]
      · exact ⟨_, rfl, rfl, rfl, rfl, rfl⟩
      · rintro ⟨hs, hheld⟩
        exact absurd (hok.resolve_left hs).2 (by omega)
end

/-! ### The TAP (R450) -/

namespace Sys2Proof.Machine

/-! #### Masks and words bit by bit -/

/-- The mask of the numbers below n that pass a test has their bits. -/
theorem testBit_maskOf_filter (f : Nat → Bool) (n i : Nat) : (maskOf ((List.range n).filter f)).testBit i = (decide (i < n) && f i) := by
  induction n generalizing i with
  | zero => simp [maskOf]
  | succ n ih =>
    have hlt : maskOf ((List.range n).filter f) < 2 ^ n := Nat.lt_pow_two_of_testBit _ fun j hj => by simp [ih, hj]
    have hsucc : maskOf ((List.range (n + 1)).filter f) = maskOf ((List.range n).filter f) + (if f n then 2 ^ n else 0) := by
      cases hn : f n <;> simp [maskOf, List.range_succ, hn]
    rw [hsucc]
    cases hn : f n with
    | false =>
      rw [if_neg (by simp), Nat.add_zero, ih]
      rcases Nat.lt_trichotomy i n with h | h | h
      · simp [h, Nat.lt_succ_of_lt h]
      · simp [h, hn]
      · simp [Nat.not_lt_of_gt h, Nat.not_le_of_gt h]
    | true =>
      rw [if_pos rfl, ← Nat.or_two_pow_eq_add_of_lt hlt, Nat.testBit_or, ih, Nat.testBit_two_pow]
      rcases Nat.lt_trichotomy i n with h | h | h
      · simp [h, Nat.lt_succ_of_lt h, h.ne']
      · simp [h, hn]
      · simp [Nat.not_lt_of_gt h, Nat.not_le_of_gt h, h.ne]

theorem getD_map_range {α : Type} (f : Nat → α) (d : α) {n i : Nat} (h : i < n) : ((List.range n).map f).getD i d = f i := by simp [h]

/-- The IDCODE's low twelve bits: bit 0 set, the manufacturer above it. -/
theorem idcode_mod (part : Nat) : idcode part % 2 ^ 12 = 1 + 0xAC * 2 := by
  simp only [idcode, put]
  omega

/-- The IDCODE above them: the part number, then the version. -/
theorem idcode_div (part : Nat) : idcode part / 2 ^ 12 = part % 2 ^ 16 + 2 ^ 16 * (Config.idVersion % 2 ^ 4) := by
  simp only [idcode, put]
  omega

theorem bitAt_idcode_manufacturer (part : Nat) {k : Nat} (h : k < 11) : bitAt (idcode part) (1 + k) = bitAt 0xAC k := by
  have hlow : (idcode part % 2 ^ 12).testBit (1 + k) = (idcode part).testBit (1 + k) := by
    rw [Nat.testBit_mod_two_pow, decide_eq_true (by omega : 1 + k < 12), Bool.true_and]
  rw [bitAt_eq_testBit, bitAt_eq_testBit, ← hlow, idcode_mod, Nat.add_comm 1 k, Nat.testBit_succ]

theorem bitAt_idcode_part (part : Nat) {k : Nat} (h : k < 16) : bitAt (idcode part) (12 + k) = bitAt part k := by
  have hlow : ((part % 2 ^ 16 + 2 ^ 16 * (Config.idVersion % 2 ^ 4)) % 2 ^ 16).testBit k = part.testBit k := by
    rw [Nat.add_mul_mod_self_left, Nat.mod_mod, Nat.testBit_mod_two_pow, decide_eq_true h, Bool.true_and]
  rw [bitAt_eq_testBit, bitAt_eq_testBit, Nat.add_comm 12 k, Nat.testBit_add, idcode_div, ← hlow, Nat.testBit_mod_two_pow, decide_eq_true h, Bool.true_and]

/-! #### The commands -/

section
variable {s : State}

theorem State.tapOn_iff : s.tapOn = true ↔ s.boot.power = true ∧ s.tap.reset = false := by simp [State.tapOn]

/-- A boundary scan of 29 bits shifts out the levels and leaves what arrived in the cells. -/
theorem State.boundary_full (ir lev : Nat) {tdi : List Bool} (h : tdi.length = 29) : ∃ cells, (∀ i, i < 29 → bitAt cells i = tdi.getD i false) ∧
    s.boundary ir lev tdi = { s with tap := { s.tap with ir := ir, cells := cells, driving := ir == 2 }
                                     sys := { s.sys with out := .tdo ((List.range 29).map (bitAt lev)) :: s.sys.out } } := by
  have hlen : ((List.range ctrlIo).map (bitAt lev)).length = tdi.length := by simp [ctrlIo, h]
  have hshift : shift ((List.range ctrlIo).map (bitAt lev)) tdi = ((List.range ctrlIo).map (bitAt lev), tdi) := by
    rw [shift, ← hlen, List.take_left, List.drop_left]
  refine ⟨maskOf ((List.range ctrlIo).filter fun i => tdi.getD i false), fun i hi => ?_, ?_⟩
  · rw [bitAt_eq_testBit, testBit_maskOf_filter, decide_eq_true (show i < ctrlIo from hi), Bool.true_and]
  · simp only [State.boundary, hshift]
    rfl

end

end Sys2Proof.Machine

section
open Sys2Proof.Machine

/-- Settles O20: a TAP that answers shifts as `shift` says; `idcode_mod` and `idcode_div` place the fields of the IDCODE. -/
theorem tapRows : Obligations.TapRows := by
  refine ⟨fun s => rfl, fun s hp => ?_, fun s => ?_, fun tdi s hp hr => ?_, fun s hp hr => ?_, fun lev tdi s hp hr hlen => ?_⟩
  · change execTapExitTestLogicReset true s = _
    rw [execTapExitTestLogicReset, if_pos ⟨hp, rfl⟩]
  · change execTapExitTestLogicReset false s = _
    rw [execTapExitTestLogicReset, if_neg (by simp)]
  · change execJtagBypass tdi s = _
    rw [execJtagBypass, if_pos (State.tapOn_iff.mpr ⟨hp, hr⟩)]
    rfl
  · change ∃ bits : List Bool, execJtagIdcode s = _ ∧ _
    rw [execJtagIdcode, if_pos (State.tapOn_iff.mpr ⟨hp, hr⟩)]
    refine ⟨_, rfl, by simp, ?_, fun k hk => ?_, fun k hk => ?_⟩
    · have := idcode_mod s.sys.glob.part
      rw [getD_map_range _ _ (by decide), bitAt_eq_testBit, Nat.testBit_zero, decide_eq_true_eq]
      omega
    · rw [getD_map_range _ _ (by omega), bitAt_idcode_manufacturer _ hk]
    · rw [getD_map_range _ _ (by omega), bitAt_idcode_part _ hk]
  · have hon := State.tapOn_iff.mpr ⟨hp, hr⟩
    simp only [List.forall_mem_cons]
    refine ⟨?_, ?_, by simp⟩
    · obtain ⟨cells, hcells, hscan⟩ := State.boundary_full (s := s) 1 lev hlen
      change ∃ t, execJtagSamplePreload lev tdi s = .next t ∧ _
      rw [execJtagSamplePreload, if_pos hon, hscan]
      exact ⟨_, rfl, rfl, rfl, rfl, rfl, hr, hcells⟩
    · obtain ⟨cells, hcells, hscan⟩ := State.boundary_full (s := s) 2 lev hlen
      change ∃ t, execJtagExtest lev tdi s = .next t ∧ _
      rw [execJtagExtest, if_pos hon, hscan]
      exact ⟨_, rfl, rfl, rfl, rfl, rfl, hr, hcells⟩
end

/-! ### Resets (R45, R46) -/

namespace Sys2Proof.Machine

/-! #### Single bits -/

theorem clrBit_eq_andNot (w k : Nat) : clrBit w k = andNot w (2 ^ k) := by
  unfold clrBit andNot
  rw [Nat.and_two_pow, bitAt_eq_testBit]
  cases w.testBit k <;> simp

theorem testBit_clrBit_other (w : Nat) {k j : Nat} (h : j ≠ k) : (clrBit w k).testBit j = w.testBit j := by
  rw [clrBit_eq_andNot, testBit_andNot, Nat.testBit_two_pow, decide_eq_false h.symm, Bool.not_false, Bool.and_true]

theorem testBit_setBit_same (w k : Nat) : (setBit w k).testBit k = true := by
  unfold setBit
  split
  · rwa [← bitAt_eq_testBit]
  · rename_i h
    rw [Nat.add_comm, Nat.testBit_two_pow_add_eq, ← bitAt_eq_testBit]
    simpa using h

/-! #### The transmit queues once requests are gone (R336) -/

/-- A completion, the one kind of packet that a reset leaves in a transmit queue. -/
def OutPkt.completes : OutPkt → Bool
  | .cpl _ _ _ | .cple _ _ _ => true
  | _ => false

/-- Nothing but completions waits to be sent. -/
def Sys.OnlyCompletions (y : Sys) : Prop := (∀ p ∈ y.link.m0.txq, p.completes = true) ∧ ∀ p ∈ y.link.m1.txq, p.completes = true

theorem Sys.OnlyCompletions.modModule {y : Sys} (h : y.OnlyCompletions) (m : Nat) {f : Module → Module} {rest : List OutPkt}
    (hf : ∀ k, (f k).txq = rest) (hrest : ∀ p ∈ rest, p.completes = true) : (y.modModule m f).OnlyCompletions := by
  unfold Sys.modModule Sys.OnlyCompletions
  rw [Sys.modLink_link]
  split
  · exact ⟨by rw [hf]; exact hrest, h.2⟩
  · exact ⟨h.1, by rw [hf]; exact hrest⟩

/-- A completion that leaves does not touch host memory. -/
theorem Sys.OnlyCompletions.sendOne {y : Sys} (h : y.OnlyCompletions) (m : Nat) : (y.sendOne m).mem.host = y.mem.host ∧ (y.sendOne m).OnlyCompletions := by
  have hq : ∀ p ∈ (y.module m).txq, p.completes = true := by unfold Sys.module; split <;> [exact h.1; exact h.2]
  unfold Sys.sendOne
  dsimp only
  split
  · exact ⟨rfl, h⟩
  · rename_i p rest htxq
    rw [htxq] at hq
    obtain ⟨hp, hrest⟩ := List.forall_mem_cons.mp hq
    split
    · cases p with
      | cpl => exact ⟨rfl, h.modModule m (f := fun k => { (k.ledgerAdd 0 0).ledgerAdd 1 0 with txq := rest }) (fun _ => rfl) hrest⟩
      | cple => exact ⟨rfl, h.modModule m (f := fun k => { (k.ledgerAdd 0 0).ledgerAdd 1 0 with txq := rest }) (fun _ => rfl) hrest⟩
      | _ => exact absurd hp (by simp [OutPkt.completes])
    · exact ⟨rfl, h⟩

theorem Sys.OnlyCompletions.flush {y : Sys} (h : y.OnlyCompletions) (m : Nat) : (y.flush m).mem.host = y.mem.host ∧ (y.flush m).OnlyCompletions := by
  unfold Sys.flush
  induction List.range (y.module m).txq.length generalizing y with
  | nil => exact ⟨rfl, h⟩
  | cons a l ih =>
    obtain ⟨hhost, hnext⟩ := h.sendOne m
    obtain ⟨hhost', hlast⟩ := ih hnext
    exact ⟨hhost'.trans hhost, hlast⟩

/-! #### What a reset of the host link keeps -/

/-- From y to z the host link has been reset. -/
structure Sys.LinkReset (y z : Sys) : Prop where
  glob : z.glob = y.glob
  beam : z.beam = y.beam
  pipe0 : z.pipe0 = y.pipe0
  pipe1 : z.pipe1 = y.pipe1
  host : z.mem.host = y.mem.host
  loft : z.mem.loft = y.mem.loft

namespace Sys.LinkReset

variable {x y z : Sys}

theorem trans (a : Sys.LinkReset x y) (b : Sys.LinkReset y z) : Sys.LinkReset x z :=
  ⟨b.glob.trans a.glob, b.beam.trans a.beam, b.pipe0.trans a.pipe0, b.pipe1.trans a.pipe1, b.host.trans a.host, b.loft.trans a.loft⟩

theorem of_sent (a : Sys.Sent y z) (h : z.mem.host = y.mem.host) : Sys.LinkReset y z :=
  ⟨a.glob, a.beam, a.pipe0, a.pipe1, h, by rw [a.mem]⟩

theorem foldl {α : Type} {f : Sys → α → Sys} (h : ∀ y a, Sys.LinkReset y (f y a)) (l : List α) (y : Sys) : Sys.LinkReset y (l.foldl f y) := by
  induction l generalizing y with
  | nil => exact ⟨rfl, rfl, rfl, rfl, rfl, rfl⟩
  | cons a l ih => exact (h y a).trans (ih _)

end Sys.LinkReset

theorem Sys.endReads_linkReset (m : Nat) (y : Sys) : Sys.LinkReset y ((y.module m).reads.foldl (fun y r => y.endRead m r) y) :=
  Sys.LinkReset.foldl (f := fun y r => y.endRead m r) (fun _ _ => ⟨rfl, rfl, rfl, rfl, rfl, rfl⟩) _ _

theorem Sys.linkReset_keeps (y : Sys) : Sys.LinkReset y y.linkReset := by
  have hreads : Sys.LinkReset y ([0, 1].foldl (fun y m => (y.module m).reads.foldl (fun y r => y.endRead m r) y) y) :=
    (Sys.endReads_linkReset 0 y).trans (Sys.endReads_linkReset 1 _)
  unfold Sys.linkReset
  refine hreads.trans ?_
  generalize [0, 1].foldl (fun y m => (y.module m).reads.foldl (fun y r => y.endRead m r) y) y = z
  have hfilter : ∀ (w : Sys), w.OnlyCompletions → Sys.LinkReset w ((w.flush 0).flush 1) := fun w h =>
    (Sys.LinkReset.of_sent (Sys.flush_sent 0 w) (h.flush 0).1).trans (.of_sent (Sys.flush_sent 1 _) ((h.flush 0).2.flush 1).1)
  refine Sys.LinkReset.trans ?_ (hfilter _ ⟨fun p hp => ?_, fun p hp => ?_⟩)
  · exact ⟨rfl, rfl, rfl, rfl, rfl, rfl⟩
  · obtain ⟨-, hkeep⟩ := List.mem_filter.mp hp
    cases p <;> exact hkeep
  · by_cases hc : z.glob.config = 0
    · rw [Sys.modMem_link, Sys.modLink_link] at hp
      simp only [if_pos hc] at hp
      obtain ⟨-, hkeep⟩ := List.mem_filter.mp hp
      cases p <;> exact hkeep
    · rw [Sys.modMem_link, Sys.modLink_link] at hp
      simp only [if_neg hc] at hp
      cases hp

/-! #### What WARM and RELOAD both clear -/

/-- The blocks that WARM and RELOAD clear, and what they leave of the others. -/
structure Sys.RunCleared (y z : Sys) : Prop where
  rejects : z.glob.rejects = y.glob.rejects
  stallEn : z.glob.stallEn = y.glob.stallEn
  ready : z.glob.ready = false
  host : z.mem.host = y.mem.host
  loft : z.mem.loft = y.mem.loft
  bridle : z.bridle = {}
  work : z.work = {}
  cores : z.cores = []
  beam : z.beam = y.beam.cleared
  fg : z.fg = {}
  raster : z.raster = {}
  vision : z.vision = {}
  kv : z.kv = {}
  duo : z.duo = {}
  pipe0 : z.pipe0 = y.pipe0
  pipe1 : z.pipe1 = y.pipe1

theorem Sys.RunCleared.emit_unless {y z : Sys} (h : Sys.RunCleared y z) (c : Prop) [Decidable c] (p : OutPkt) :
    Sys.RunCleared y (if c then z else z.emit p) := by
  split
  · exact h
  · exact ⟨h.rejects, h.stallEn, h.ready, h.host, h.loft, h.bridle, h.work, h.cores, h.beam, h.fg, h.raster, h.vision, h.kv, h.duo, h.pipe0, h.pipe1⟩

theorem Sys.clearRun_clears (y : Sys) : Sys.RunCleared y y.clearRun := by
  obtain ⟨hglob, hbeam, hpipe0, hpipe1, hhost, hloft⟩ := y.linkReset_keeps
  unfold Sys.clearRun
  generalize y.linkReset = w at *
  have hrej : w.glob.rejects = y.glob.rejects := congrArg Glob.rejects hglob
  have hen : w.glob.stallEn = y.glob.stallEn := congrArg Glob.stallEn hglob
  have hbc : w.beam.cleared = y.beam.cleared := congrArg Beam.cleared hbeam
  refine Sys.RunCleared.emit_unless ?_ _ _
  exact ⟨hrej, hen, rfl, hhost, hloft, rfl, rfl, rfl, hbc, rfl, rfl, rfl, rfl, rfl,
    hpipe0, hpipe1⟩

/-! #### WARM -/

section
variable {s : State} (hpower : s.boot.power = true)

/-- The run-time blocks after WARM, step 2 and module 0's training apart. -/
def Sys.warmCleared (y : Sys) : Sys :=
  let y := y.clearRun
  let run := maskList 17 y.glob.domainsRun
  { y with mem := { host := y.mem.host }, pipe0 := { hpd := y.pipe0.hpd }, pipe1 := { hpd := y.pipe1.hpd },
           glob := { y.glob with domainsRun := maskOf ([2, 14, 15, 16] ++ run.filter fun n => n == 3 || n == 4) } }

/-- Bring-up after WARM, the phase apart. -/
def Boot.warmCleared (k : Nat) (b : Boot) : Boot :=
  { b.cleared with cause := setBit b.cause k, pinsOn := false, pinWords := [], clockWords := [], oldClocks := [] }

/-- The device after WARM, the phase and where it resumes apart. -/
def State.warmCleared (k : Nat) (s : State) : State := { s with boot := s.boot.warmCleared k, sys := s.sys.warmCleared }

/-- Bring-up restarts with no record read and module 0 untrained. -/
def State.restarted (s : State) : State :=
  { s with boot := { s.boot with recordRead := false, recordOk := false }
           sys := { s.sys with link := { s.sys.link with m0 := {} }, glob := { s.sys.glob with domainsRun := 2 ^ 14 } } }

theorem State.warm_powered (k : Nat) (pin pll : Bool) (hpower : s.boot.power = true) : s.warm k pin pll =
    if s.boot.linked then
      (if pin ∧ (s.warmCleared k).sys.link.m0.st = 0 then (s.warmCleared k).modSys fun y => y.modModule 0 fun m => { m with st := 1 }
       else s.warmCleared k).enter .waitFirmware
    else (s.warmCleared k).restarted.step2 pll := by
  unfold State.warm State.warmCleared Sys.warmCleared
  rw [if_neg (by simp [hpower])]
  generalize Sys.clearRun = clear
  rfl

/-- What every WARM leaves (R45). -/
structure State.Warmed (k : Nat) (s t : State) : Prop where
  cause : t.boot.cause = setBit s.boot.cause k
  record : t.boot.record = s.boot.record
  duoId : t.boot.duoId = s.boot.duoId
  duoMode : t.boot.duoMode = s.boot.duoMode
  idDigest : t.boot.idDigest = s.boot.idDigest
  tap : t.tap = s.tap
  pending : t.pending = s.pending
  rejects : t.sys.glob.rejects = s.sys.glob.rejects
  ready : t.sys.glob.ready = false
  stallEn : t.sys.glob.stallEn = s.sys.glob.stallEn
  dram : t.sys.mem.dram = []
  loft : t.sys.mem.loft = []
  host : t.sys.mem.host = s.sys.mem.host
  bridle : t.sys.bridle = {}
  work : t.sys.work = {}
  cores : t.sys.cores = []
  beam : t.sys.beam = s.sys.beam.cleared
  fg : t.sys.fg = {}
  raster : t.sys.raster = {}
  vision : t.sys.vision = {}
  kv : t.sys.kv = {}
  duo : t.sys.duo = {}
  pipe0 : t.sys.pipe0 = { hpd := s.sys.pipe0.hpd }
  pipe1 : t.sys.pipe1 = { hpd := s.sys.pipe1.hpd }

theorem State.warmCleared_warmed (k : Nat) (s : State) : s.Warmed k (s.warmCleared k) := by
  obtain ⟨hrej, hen, hready, hhost, -, hbridle, hwork, hcores, hbeam, hfg, hraster, hvision, hkv, hduo, hpipe0, hpipe1⟩ := s.sys.clearRun_clears
  have hhpd0 : ({ hpd := s.sys.clearRun.pipe0.hpd } : Pipe) = { hpd := s.sys.pipe0.hpd } := by rw [hpipe0]
  have hhpd1 : ({ hpd := s.sys.clearRun.pipe1.hpd } : Pipe) = { hpd := s.sys.pipe1.hpd } := by rw [hpipe1]
  unfold State.warmCleared Sys.warmCleared
  generalize s.sys.clearRun = w at *
  exact ⟨rfl, rfl, rfl, rfl, rfl, rfl, rfl, hrej, hready, hen, rfl, rfl, hhost, hbridle, hwork, hcores, hbeam, hfg, hraster, hvision, hkv, hduo,
    hhpd0, hhpd1⟩

namespace State.Warmed

variable {k : Nat} {t : State} (h : s.Warmed k t)
include h

theorem enter (p : Phase) : s.Warmed k (t.enter p) := { h with }
theorem halt (code : Nat) : s.Warmed k (t.halt code) := { h with }
theorem modLink (f : Link → Link) : s.Warmed k (t.modSys fun y => y.modLink f) := { h with }
theorem runDomains (l : List Nat) : s.Warmed k (t.modSys (Sys.runDomains l)) := { h with }
theorem restarted : s.Warmed k t.restarted := { h with }

theorem step2 (pll : Bool) : s.Warmed k (t.step2 pll) := by
  unfold State.step2
  split
  · exact (h.runDomains _).enter _
  · exact h.halt _

end State.Warmed

theorem State.warm_warmed (k : Nat) (pin pll : Bool) (hpower : s.boot.power = true) : s.Warmed k (s.warm k pin pll) := by
  have hclear := s.warmCleared_warmed k
  rw [State.warm_powered k pin pll hpower]
  split
  · split
    · exact (hclear.modLink _).enter _
    · exact hclear.enter _
  · exact hclear.restarted.step2 pll

theorem State.warm_linked (k : Nat) (pin pll : Bool) (hpower : s.boot.power = true) (hl : s.boot.linked = true) :
    (s.warm k pin pll).boot.phase = .waitFirmware ∧ (s.warm k pin pll).boot.error = 0 := by
  rw [State.warm_powered k pin pll hpower, if_pos hl]
  split <;> exact ⟨rfl, rfl⟩

theorem State.warm_unlinked (k : Nat) (pin pll : Bool) (hpower : s.boot.power = true) (hl : s.boot.linked = false) :
    s.warm k pin pll = (s.warmCleared k).restarted.step2 pll := by
  rw [State.warm_powered k pin pll hpower, if_neg (by simp [hl])]

/-! #### RELOAD -/

theorem Phase.reloads_iff {p : Phase} : p.reloads = true ↔ p = .waitPattern ∨ p = .pattern ∨ p = .apply ∨ p = .ready := by
  cases p <;> simp [Phase.reloads]

@[simp] theorem Sys.writeRecord_glob (j st status : Nat) (y : Sys) : (y.writeRecord j st status).glob = y.glob := by
  unfold Sys.writeRecord
  dsimp only
  split_ifs
  · rfl
  · rw [Sys.raise_glob, (Sys.vwrite_accessed ..).glob]
  · exact (Sys.vwrite_accessed ..).glob

@[simp] theorem Sys.finishJob_glob (j st status : Nat) (y : Sys) : (y.finishJob j st status).glob = y.glob := Sys.writeRecord_glob ..

@[simp] theorem Sys.cancelAll_glob (y : Sys) : y.cancelAll.glob = y.glob := by
  unfold Sys.cancelAll
  generalize y.aliveJobs = l
  induction l generalizing y with
  | nil => rfl
  | cons j l ih => rw [List.foldl_cons, ih, Sys.finishJob_glob]

/-! ##### Pipes in Calm -/

/-- Two numbers name one pipe: pipe 0 is named by 0, pipe 1 by every other number. -/
def SamePipe (n m : Nat) : Prop := n = 0 ↔ m = 0

section
variable (n k m : Nat) (y : Sys)

theorem Sys.pipe_modPipe_same (f : Pipe → Pipe) : (y.modPipe n f).pipe n = f (y.pipe n) := by
  unfold Sys.modPipe Sys.pipe
  split <;> rfl

theorem Sys.pipe_modPipe_other {n m : Nat} (h : ¬ SamePipe n m) (f : Pipe → Pipe) : (y.modPipe n f).pipe m = y.pipe m := by
  unfold Sys.modPipe Sys.pipe
  by_cases hn : n = 0
  · have hm : m ≠ 0 := fun e => h (by simp [SamePipe, hn, e])
    rw [if_pos hn, if_neg hm, if_neg hm]
    rfl
  · have hm : m = 0 := by_contra fun e => h (by simp [SamePipe, hn, e])
    rw [if_neg hn, if_pos hm, if_pos hm]
    rfl

/-- From y to z pipes have changed, nothing has been sent that touches device memory. -/
structure Sys.PipesOnly (y z : Sys) : Prop where
  glob : z.glob = y.glob
  bridle : z.bridle = y.bridle
  work : z.work = y.work
  cores : z.cores = y.cores
  loft : z.mem.loft = y.mem.loft

theorem Sys.PipesOnly.trans {x y z : Sys} (a : Sys.PipesOnly x y) (b : Sys.PipesOnly y z) : Sys.PipesOnly x z :=
  ⟨b.glob.trans a.glob, b.bridle.trans a.bridle, b.work.trans a.work, b.cores.trans a.cores, b.loft.trans a.loft⟩

theorem Sys.modPipe_pipesOnly (f : Pipe → Pipe) : Sys.PipesOnly y (y.modPipe n f) := by
  unfold Sys.modPipe
  split <;> exact ⟨rfl, rfl, rfl, rfl, rfl⟩

theorem Sys.pipeEvent_pipesOnly : Sys.PipesOnly y (y.pipeEvent n k) := by
  have hsent := Sys.raiseIf_sent (y.pipe n).irq k (y.modPipe n fun p => { p with events := setBit p.events k })
  exact (y.modPipe_pipesOnly n _).trans ⟨hsent.glob, hsent.bridle, hsent.work, hsent.cores, by rw [Sys.pipeEvent, hsent.mem]⟩

theorem Sys.pipeEvent_pipe : (y.pipeEvent n k).pipe m = (y.modPipe n fun p => { p with events := setBit p.events k }).pipe m := by
  simp [Sys.pipeEvent, Sys.pipe]

theorem Sys.signalReplay_pipesOnly : Sys.PipesOnly y (y.signalReplay n) := by
  unfold Sys.signalReplay
  dsimp only
  split
  · exact ⟨rfl, rfl, rfl, rfl, rfl⟩
  · exact (y.modPipe_pipesOnly n _).trans ⟨rfl, rfl, rfl, rfl, rfl⟩

theorem Sys.calmClear_pipesOnly : Sys.PipesOnly y (y.calmClear n k) := y.modPipe_pipesOnly n _

theorem Sys.calmCause_pipesOnly : Sys.PipesOnly y (y.calmCause n k) := by
  unfold Sys.calmCause
  split
  · exact y.modPipe_pipesOnly n _
  · exact ((y.modPipe_pipesOnly n _).trans (Sys.pipeEvent_pipesOnly ..)).trans (Sys.signalReplay_pipesOnly ..)

theorem Sys.signalReplay_cause : ((y.signalReplay n).pipe m).cause = (y.pipe m).cause := by
  unfold Sys.signalReplay
  dsimp only
  split
  · rfl
  · unfold Sys.modPipe
    split <;> unfold Sys.pipe <;> split <;> rfl

theorem Sys.pipeEvent_cause : ((y.pipeEvent n k).pipe m).cause = (y.pipe m).cause := by
  rw [Sys.pipeEvent_pipe]
  unfold Sys.modPipe
  split <;> unfold Sys.pipe <;> split <;> rfl

/-- A cause of Calm joins its pipe's. -/
theorem Sys.calmCause_cause : ((y.calmCause n k).pipe n).cause = setBit (y.pipe n).cause k := by
  unfold Sys.calmCause
  split
  · rw [Sys.pipe_modPipe_same]
  · rw [Sys.signalReplay_cause, Sys.pipeEvent_cause, Sys.pipe_modPipe_same]

theorem Sys.calmCause_cause_other {n m : Nat} (h : ¬ SamePipe n m) : ((y.calmCause n k).pipe m).cause = (y.pipe m).cause := by
  unfold Sys.calmCause
  split
  · rw [Sys.pipe_modPipe_other y h]
  · rw [Sys.signalReplay_cause, Sys.pipeEvent_cause, Sys.pipe_modPipe_other y h]

theorem Sys.calmClear_cause : ((y.calmClear n k).pipe n).cause = clrBit (y.pipe n).cause k := by rw [Sys.calmClear, Sys.pipe_modPipe_same]

theorem Sys.calmClear_cause_other {n m : Nat} (h : ¬ SamePipe n m) : ((y.calmClear n k).pipe m).cause = (y.pipe m).cause := by
  rw [Sys.calmClear, Sys.pipe_modPipe_other y h]

/-- RELOAD puts a pipe in Calm for the load and ends its other causes but CALM_ENTER's (R45). -/
def Sys.calmForLoad : Sys := (((y.calmCause n 4).calmClear n 1).calmClear n 2).calmClear n 3

theorem Sys.calmForLoad_pipesOnly : Sys.PipesOnly y (y.calmForLoad n) :=
  (((y.calmCause_pipesOnly n 4).trans (Sys.calmClear_pipesOnly ..)).trans (Sys.calmClear_pipesOnly ..)).trans (Sys.calmClear_pipesOnly ..)

theorem Sys.calmForLoad_cause : bitAt ((y.calmForLoad n).pipe n).cause 4 = true := by
  rw [Sys.calmForLoad, Sys.calmClear_cause, Sys.calmClear_cause, Sys.calmClear_cause, Sys.calmCause_cause, bitAt_eq_testBit,
    testBit_clrBit_other _ (by decide), testBit_clrBit_other _ (by decide), testBit_clrBit_other _ (by decide), testBit_setBit_same]

theorem Sys.calmForLoad_cause_other {n m : Nat} (h : ¬ SamePipe n m) : ((y.calmForLoad n).pipe m).cause = (y.pipe m).cause := by
  rw [Sys.calmForLoad, Sys.calmClear_cause_other _ _ h, Sys.calmClear_cause_other _ _ h, Sys.calmClear_cause_other _ _ h, Sys.calmCause_cause_other _ _ h]

end

/-! ##### The whole of RELOAD -/

/-- What RELOAD leaves of the run-time blocks. -/
structure Sys.Reloaded (y z : Sys) : Prop where
  rejects : z.glob.rejects = y.glob.rejects
  bridle : z.bridle = {}
  work : z.work = {}
  cores : z.cores = []
  loft : z.mem.loft = []
  calm0 : bitAt z.pipe0.cause 4 = true
  calm1 : bitAt z.pipe1.cause 4 = true

/-- The run-time blocks under RELOAD. -/
def Sys.reload (y : Sys) : Sys :=
  ((((y.cancelAll.modMem MemSys.shelve).clearRun).calmForLoad 0).calmForLoad 1).modGlob fun g =>
    { g with domainsRun := setBit ([0, 10, 11].foldl clrBit g.domainsRun) 15 }

theorem Sys.reload_reloaded (y : Sys) : Sys.Reloaded y y.reload := by
  have hclear := (y.cancelAll.modMem MemSys.shelve).clearRun_clears
  have hrej : (y.cancelAll.modMem MemSys.shelve).clearRun.glob.rejects = y.glob.rejects := by
    rw [hclear.rejects, Sys.modMem_glob, Sys.cancelAll_glob]
  have hloft : (y.cancelAll.modMem MemSys.shelve).clearRun.mem.loft = [] := by
    rw [hclear.loft, Sys.modMem_mem]
    rfl
  have hbridle := hclear.bridle
  have hwork := hclear.work
  have hcores := hclear.cores
  unfold Sys.reload
  generalize (y.cancelAll.modMem MemSys.shelve).clearRun = z at *
  have hcalm : Sys.PipesOnly z ((z.calmForLoad 0).calmForLoad 1) := (z.calmForLoad_pipesOnly 0).trans (Sys.calmForLoad_pipesOnly 1 _)
  have hcause0 : bitAt (((z.calmForLoad 0).calmForLoad 1).pipe 0).cause 4 = true := by
    rw [Sys.calmForLoad_cause_other _ (by simp [SamePipe] : ¬ SamePipe 1 0), Sys.calmForLoad_cause]
  have hcause1 : bitAt (((z.calmForLoad 0).calmForLoad 1).pipe 1).cause 4 = true := Sys.calmForLoad_cause 1 _
  generalize (z.calmForLoad 0).calmForLoad 1 = w at *
  exact ⟨(congrArg Glob.rejects hcalm.glob).trans hrej, hcalm.bridle.trans hbridle, hcalm.work.trans hwork, hcalm.cores.trans hcores,
    hcalm.loft.trans hloft, hcause0, hcause1⟩

/-- RELOAD from step 8 on (R45, R46). -/
theorem State.reload_accepted (k : Nat) (h : s.boot.phase.reloads = true) : ∃ old, s.reload k =
    { s with boot := { s.boot.cleared with cause := setBit s.boot.cause k, phase := .waitPattern, oldClocks := old }, sys := s.sys.reload } := by
  unfold State.reload
  rw [if_neg (by simp [h])]
  unfold Sys.reload
  generalize Sys.clearRun = clear
  exact ⟨_, rfl⟩

theorem State.reload_rejected (k : Nat) (h : ¬ s.boot.phase.reloads = true) : s.reload k = s.rejected := if_pos (by simpa using h)

end

end Sys2Proof.Machine

section
open Sys2Proof.Machine

/-- Settles O19: every WARM is `State.Warmed` whatever it resumes at, and RELOAD is `Sys.Reloaded`. -/
theorem resetKinds : Obligations.ResetKinds := by
  have reset : ∀ s : State, s.boot.phase ≠ .halted ∨ s.boot.recordOk = true → exec .globalResetWarm s = .next (s.warm 1 false true) := fun s h => by
    change execGlobalResetWarm s = _
    rw [execGlobalResetWarm, if_neg]
    rcases h with h | h <;> simp [State.recordHalt, h]
  refine ⟨?_, ?_, fun s hp => ⟨fun hl => ⟨fun hh => ?_, fun pll => ?_⟩, fun hl => ⟨fun hh => ?_, fun hh hr => ?_, ?_, ?_⟩⟩,
    fun s on hon => ⟨fun h k t ht => ?_, fun h => ⟨rfl, fun hcalm hauto => ?_⟩, fun h => ?_⟩⟩
  · rintro s _ rfl
    exact ⟨rfl, rfl⟩
  · rintro s t k hp ⟨pin, pll, rfl⟩
    obtain ⟨⟩ := State.warm_warmed k pin pll hp
    refine ⟨?_, ?_, ?_, ?_, ?_, ?_, ?_, ?_, ?_, ?_, ?_, ?_, ?_, ?_, ?_, ?_, ?_, ?_, ?_, ?_, ?_, ?_, ?_, ?_⟩
    all_goals assumption
  · exact ⟨_, reset s hh, rfl, State.warm_linked 1 false true hp hl⟩
  · exact ⟨_, rfl, rfl, State.warm_linked 2 true pll hp hl⟩
  · refine ⟨_, reset s hh, rfl, ?_⟩
    rw [State.warm_unlinked 1 false true hp hl]
    exact ⟨rfl, rfl, rfl, rfl⟩
  · change execGlobalResetWarm s = _
    rw [execGlobalResetWarm, if_pos (by simp [State.recordHalt, hh, hr])]
  · refine ⟨_, rfl, rfl, ?_⟩
    rw [State.warm_unlinked 2 true true hp hl]
    exact ⟨rfl, rfl, rfl⟩
  · refine ⟨_, rfl, rfl, ?_⟩
    rw [State.warm_unlinked 2 true false hp hl]
    exact ⟨rfl, rfl⟩
  · obtain ⟨old, heq⟩ := State.reload_accepted k (Phase.reloads_iff.mpr (hon.mp h))
    obtain ⟨hrej, hbridle, hwork, hcores, hloft, hcalm0, hcalm1⟩ := s.sys.reload_reloaded
    subst ht
    rw [heq]
    exact ⟨rfl, rfl, rfl, rfl, rfl, rfl, hrej, hbridle, hwork, hcores, hloft, hcalm0, hcalm1⟩
  · change execAutoReloadExpire s = _
    rw [execAutoReloadExpire, if_pos (by simp [hcalm, hauto])]
  · change Host.Outcome.next (s.reload 3) = _
    rw [State.reload_rejected 3 fun hr => h (hon.mpr (Phase.reloads_iff.mp hr))]
    rfl
end

/-! ### The end of a job (R301, R305, R307) -/

namespace Sys2Proof.Machine

/-! #### Engines of the hash unit -/

/-- Every request of the hash unit, waiting or on an engine, passes a test. -/
def Sec.All (P : HashReq → Prop) (c : Sec) : Prop := (∀ h ∈ c.hashes, P h) ∧ (∀ h, c.eng0 = some h → P h) ∧ ∀ h, c.eng1 = some h → P h

/-- A free engine takes a request that waits: the requests stay the same. -/
theorem Sec.All.fill {P : HashReq → Prop} {c : Sec} (a : c.All P) : c.fill.All P := by
  have step0 : ∀ c : Sec, c.All P → Sec.All P (match c.eng0, c.hashes with
      | none, h :: t => { c with eng0 := some h, hashes := t }
      | _, _ => c) := fun c ⟨hq, h0, h1⟩ => by
    split
    · rename_i h t he hl
      rw [hl] at hq
      obtain ⟨hh, ht⟩ := List.forall_mem_cons.mp hq
      exact ⟨ht, fun k hk => by cases hk; exact hh, h1⟩
    · exact ⟨hq, h0, h1⟩
  have step1 : ∀ c : Sec, c.All P → Sec.All P (match c.eng1, c.hashes with
      | none, h :: t => { c with eng1 := some h, hashes := t }
      | _, _ => c) := fun c ⟨hq, h0, h1⟩ => by
    split
    · rename_i h t he hl
      rw [hl] at hq
      obtain ⟨hh, ht⟩ := List.forall_mem_cons.mp hq
      exact ⟨ht, h0, fun k hk => by cases hk; exact hh⟩
    · exact ⟨hq, h0, h1⟩
  exact step1 _ (step0 c a)

/-- After a drop no request of the kind dropped is left. -/
theorem Sec.drop_all (p : HashReq → Bool) (c : Sec) : (Sec.drop p c).All fun h => p h = false := by
  refine Sec.All.fill ⟨fun h hh => ?_, fun h hh => ?_, fun h hh => ?_⟩
  · simpa using (List.mem_filter.mp hh).2
  · simpa using (Option.filter_eq_some_iff.mp hh).2
  · simpa using (Option.filter_eq_some_iff.mp hh).2

/-! #### Tokens -/

/-- A holder that returns its tokens has none left, and waits for none. -/
theorem Sys.semReturnAll_clears (w : SemHolder) (y : Sys) :
    ∀ k ∈ (y.semReturnAll w).work.sems, (∀ h ∈ k.2.holds, h.who ≠ w) ∧ ∀ r ∈ k.2.waits, r.who ≠ w := by
  intro k hk
  obtain ⟨q, -, rfl⟩ := List.mem_map.mp hk
  exact ⟨fun h hh => by simpa using (List.mem_filter.mp hh).2, fun r hr => by simpa using (List.mem_filter.mp hr).2⟩

/-- The completion record is an access of memory. -/
theorem Sys.writeRecord_accessed (j st status : Nat) (y : Sys) : Sys.Accessed y (y.writeRecord j st status) := by
  unfold Sys.writeRecord
  dsimp only
  split_ifs
  · exact .refl y
  · exact (Sys.vwrite_accessed ..).trans (Sys.raise_sent ..).accessed
  · exact Sys.vwrite_accessed ..

/-- A finished job before its record is written. -/
def Sys.jobEnded (j st status : Nat) (y : Sys) : Sys :=
  ((y.semReturnAll (.job j)).modJob j fun b => { b with st := st, status := status }).modSec (Sec.drop (HashReq.ofJob j))

theorem Sys.finishJob_accessed (j st status : Nat) (y : Sys) : Sys.Accessed (y.jobEnded j st status) (y.finishJob j st status) :=
  Sys.writeRecord_accessed ..

end Sys2Proof.Machine

section
open Sys2Proof.Machine

/-- Settles O32: the record, tokens and hash requests stand before the completion record is written, which only accesses memory. -/
theorem jobFinish : Obligations.JobFinish := by
  intro j st status y
  have a := Sys.finishJob_accessed j st status y
  refine ⟨_, rfl, ?_, ?_, ?_, ?_, a.cores, a.beam⟩
  · have hjob : (y.finishJob j st status).job j = (y.jobEnded j st status).job j := by rw [Sys.job, a.work]; rfl
    rw [hjob]
    exact tget_tmod_same {} y.work.jobs j fun b => { b with st := st, status := status }
  · rw [a.work]
    exact Sys.semReturnAll_clears (.job j) y
  · rw [a.sec]
    exact (Sec.drop_all _ _).1
  · rw [a.sec]
    obtain ⟨-, h0, h1⟩ := Sec.drop_all (HashReq.ofJob j) (y.semReturnAll (.job j)).sec
    exact fun h hh => hh.elim (h0 h) (h1 h)
end

/-! ### Semaphore, queue, Calm and conservation registers, a stall's queue heads -/

namespace Sys2Proof.Machine

section
variable {s : State}

theorem exec_semCfgWrite (w : Nat) (hc : s.sys.glob.config ≠ 2) : exec (.semCfgWrite w) s = .next { s with sys := s.sys.semCfg w } := by
  change onSys (Sys.mirrored 0x00100904 w (Sys.semCfg w)) s = _
  rw [onSys, Sys.mirrored_plain hc]

theorem exec_qcfgBaseWrite (w : Nat) (hc : s.sys.glob.config ≠ 2) : exec (.qcfgBaseWrite w) s = .next { s with sys := s.sys.qcfgBase w } := by
  change onSys (fun y => (y.mirrored 0x00100B08 (w / 2 ^ 32 % 2 ^ 32) id).mirrored 0x00100B04 (w % 2 ^ 32) (Sys.qcfgBase w)) s = _
  simp only [onSys, Sys.mirrored_plain hc, id]

theorem exec_qcfgRingWrite (w : Nat) (hc : s.sys.glob.config ≠ 2) : exec (.qcfgRingWrite w) s = .next { s with sys := s.sys.qcfgRing w } := by
  change onSys (Sys.mirrored 0x00100B0C w (Sys.qcfgRing w)) s = _
  rw [onSys, Sys.mirrored_plain hc]

end

section
variable {y : Sys}

theorem Sys.semCfg_free {n : Nat} {k : Sem} (w : Nat) (hn : n = y.bridle.semSel % 4096) (hk : k = y.sem n) (hh : k.holds = []) (hw : k.waits = []) :
    y.semCfg w = (y.modSem n fun k => { k with total := w % 256 }).modPool 4 0 fun p =>
      { p with total := p.total - k.total + w % 256, free := p.free - k.total + w % 256 } := by
  subst hn hk
  simp only [Sys.semCfg, hh, hw, List.isEmpty_nil, Bool.and_self, if_true]

theorem Sys.semCfg_used {n : Nat} {k : Sem} (w : Nat) (hn : n = y.bridle.semSel % 4096) (hk : k = y.sem n) (h : k.holds ≠ [] ∨ k.waits ≠ []) :
    y.semCfg w = y.reject := by
  subst hn hk
  rw [Sys.semCfg, if_neg]
  simpa [List.isEmpty_iff, ← not_and_or] using h

theorem Sys.queueIdle_iff {q : Nat} : y.queueIdle q = true ↔ (y.queue q).slots = [] ∧ (y.queue q).read = (y.queue q).write := by
  simp [Sys.queueIdle]

/-- A doorbell size below 4 counts as 4 and is counted (R293). -/
theorem clamp_ring (w : Nat) : clamp 4 15 (w % 16) = if w % 16 < 4 then 4 else w % 16 := by
  unfold clamp
  split <;> omega

theorem Sys.ctxCalmExit_go (w : Nat) (h : bitAt w 6 = true) : y.ctxCalmExit w =
    if y.work.jobs.any (fun j => j.2.st == 5 && j.2.ctx == w % 64) then y.reject
    else if (y.ctx (w % 64)).compositor then ((y.modCtx (w % 64) fun k => { k with calm := false }).calmClear 0 1).calmClear 1 1
    else y.modCtx (w % 64) fun k => { k with calm := false } := by
  have hcomp : ((y.modCtx (w % 64) fun k => { k with calm := false }).ctx (w % 64)).compositor = (y.ctx (w % 64)).compositor := by
    rw [Sys.ctx, Sys.modCtx, Sys.modBridle_bridle, tget_tmod_same]
    rfl
  simp only [Sys.ctxCalmExit, h, if_true, hcomp]

end

end Sys2Proof.Machine

section
open Sys2Proof.Machine

/-- Settles O33: each register's row is one function of the blocks; outside TANDEM nothing is forwarded. -/
theorem jobRegisters : Obligations.JobRegisters := by
  refine ⟨fun w s hc n k hn hk => ⟨fun hh hw => ?_, fun h => ?_⟩, fun w s hc q k hq hk => ⟨fun hs hr => ?_, fun h => ?_⟩, fun w c s hcw => ⟨fun h => ?_, fun h => ⟨fun hj => ?_, fun hj => ?_⟩⟩,
    fun s p hp => ?_, fun s h => ?_, fun n w s hn he => ?_, fun n w s k hn he hk => ?_⟩
  · rw [exec_semCfgWrite w hc, Sys.semCfg_free w hn hk hh hw, hk]
    rfl
  · rw [exec_semCfgWrite w hc, Sys.semCfg_used w hn hk h]
    rfl
  · have hidle : s.sys.queueIdle q = true := by rw [Sys.queueIdle_iff, ← hk]; exact ⟨hs, hr⟩
    rw [exec_qcfgBaseWrite w hc, exec_qcfgRingWrite w hc]
    simp only [Sys.qcfgBase, Sys.qcfgRing, ← hq, hidle, if_true, clamp_ring]
    subst hk
    refine ⟨rfl, fun h4 => ?_, fun h4 => ?_⟩
    · rw [if_neg (by omega), decide_eq_false (by omega)]
      rfl
    · rw [if_pos h4, decide_eq_true h4]
      rfl
  · have hidle : ¬ s.sys.queueIdle q = true := by rw [Sys.queueIdle_iff, ← hk]; tauto
    rw [exec_qcfgBaseWrite w hc, exec_qcfgRingWrite w hc]
    simp only [Sys.qcfgBase, Sys.qcfgRing, ← hq, if_neg hidle]
    exact ⟨rfl, rfl⟩
  · change onSys (Sys.ctxCalmExit w) s = _
    rw [onSys, Sys.ctxCalmExit, if_neg (by simp [h])]
  · change onSys (Sys.ctxCalmExit w) s = _
    obtain ⟨j, hmem, hst, hctx⟩ := hj
    rw [onSys, Sys.ctxCalmExit_go w h, if_pos (List.any_eq_true.mpr ⟨j, hmem, by simp [hst, hctx, hcw]⟩)]
    rfl
  · change onSys (Sys.ctxCalmExit w) s = _
    subst hcw
    rw [onSys, Sys.ctxCalmExit_go w h, if_neg]
    · cases hcomp : (s.sys.ctx (w % 64)).compositor <;> rfl
    · simpa using hj
  · subst hp
    change onSys Sys.consTotal s = _
    have hsel : s.sys.consPool = s.sys.pool (s.sys.cons.sel % 8) (s.sys.cons.sel / 8 % 64) := by simp [Sys.consPool, fld]
    rw [← hsel]
    rfl
  · change execAuditSweep s = _
    have hgood : (s.sys.instances.filter fun k => s.sys.holderSum k.1 k.2 != (s.sys.pool k.1 k.2).held) = [] :=
      List.filter_eq_nil_iff.mpr fun k hk => by simp [h k hk]
    simp only [execAuditSweep, onSys, hgood]
    rfl
  · refine ⟨?_, ?_⟩
    · change execStallQselWrite n w s = _
      simp only [execStallQselWrite, Nat.mod_eq_of_lt hn, onSys, Sys.ifEnabled, he, Bool.false_eq_true, if_false]
      rfl
    · change execStallQdataRead n s = _
      simp only [execStallQdataRead, Nat.mod_eq_of_lt hn, onSys, he, Bool.false_eq_true, if_false]
      rfl
  · subst hk
    refine ⟨?_, ?_⟩
    · change execStallQselWrite n w s = _
      have hhead : fld w 0 12 = w % 2 ^ 12 := by rw [fld, pow_zero, Nat.div_one]
      simp only [execStallQselWrite, Nat.mod_eq_of_lt hn, onSys, Sys.ifEnabled, he, if_true, Sys.stallQsel, hhead]
      rfl
    · rintro ws rfl
      have hread : exec (.stallQdataRead n) s = .next { s with sys := s.sys.stallQdata n } := by
        change execStallQdataRead n s = _
        simp only [execStallQdataRead, Nat.mod_eq_of_lt hn, onSys, he, if_true]
      rw [hread]
      refine ⟨fun h0 => ?_, fun h0 => ?_⟩
      · rw [Sys.stallQdata, if_pos h0]
        rfl
      · rw [Sys.stallQdata, if_neg h0]
        cases hl : (s.sys.stall n).qlatch <;> rfl
end

/-! ### Packets at the head of a queue (R296, R301, R302, R315) -/

namespace Sys2Proof.Machine

/-! #### Admission -/

section
variable {q : Nat} {y : Sys} {p : Pkt} {rest : List Pkt}

/-- What holds back a head packet whatever its job (R302, R315, R399). -/
def Sys.headHeld (q : Nat) (y : Sys) : Prop :=
  (y.ctx (y.queue q).ctx).calm = true ∨ y.flt.dieCalm = true ∨ y.duo.hold = true ∨ bitAt y.glob.heldDomains (y.ctx (y.queue q).ctx).domain = true

/-- A packet that has started is not taken in again. -/
theorem Sys.takeIn_started (hs : (y.queue q).slots = p :: rest) (hp : p.started = true) : y.takeIn q = (y, none) := by
  simp only [Sys.takeIn, hs, hp, true_or, if_true]

theorem Sys.takeIn_held (hs : (y.queue q).slots = p :: rest) (h : y.headHeld q) : y.takeIn q = (y, none) := by
  simp only [Sys.takeIn, hs]
  exact if_pos (.inr h)

theorem Sys.not_held (hp : p.started = false) (h : ¬ y.headHeld q) : ¬ (p.started = true ∨ y.headHeld q) := by
  simp [hp, h]

section
variable (hs : (y.queue q).slots = p :: rest) (hp : p.started = false) (h : ¬ y.headHeld q)
include hs hp h

theorem Sys.takeIn_foreign (hb : (y.job p.job).st = 0 ∨ (y.job p.job).st = 6 ∨ (y.job p.job).ctx ≠ (y.queue q).ctx) :
    y.takeIn q = (y.packetComplete q 0x10 0, none) := by
  simp only [Sys.takeIn, hs]
  exact (if_neg (Sys.not_held hp h)).trans (if_pos hb)

theorem Sys.takeIn_failed (hc : (y.job p.job).ctx = (y.queue q).ctx) (hb : (y.job p.job).st = 7) : y.takeIn q = (y.packetComplete q 0x01 0, none) := by
  simp only [Sys.takeIn, hs]
  exact (if_neg (Sys.not_held hp h)).trans ((if_neg (by omega)).trans (if_pos hb))

theorem Sys.takeIn_waits (hc : (y.job p.job).ctx = (y.queue q).ctx) (hb : (y.job p.job).st = 3 ∨ (y.job p.job).st = 4 ∨ (y.job p.job).st = 5) :
    y.takeIn q = (y, none) := by
  simp only [Sys.takeIn, hs]
  exact (if_neg (Sys.not_held hp h)).trans ((if_neg (by omega)).trans ((if_neg (by omega)).trans (if_pos (by omega))))

theorem Sys.takeIn_running (hc : (y.job p.job).ctx = (y.queue q).ctx) (hb : (y.job p.job).st = 2) (hbr : (y.brandOf p.job).st = 2) :
    y.takeIn q = (y, some p) := by
  simp only [Sys.takeIn, hs]
  refine (if_neg (Sys.not_held hp h)).trans ((if_neg (by omega)).trans ((if_neg (by omega)).trans ((if_neg (by omega)).trans
    ((if_neg (by omega)).trans ((if_neg (by omega)).trans ?_)))))
  rw [if_neg (by omega)]

theorem Sys.takeIn_first (hc : (y.job p.job).ctx = (y.queue q).ctx) (hb : (y.job p.job).st = 1) (hbr : (y.brandOf p.job).st = 0)
    (hm : (y.job p.job).manifest = 0) : y.takeIn q = ((y.modBrand p.job fun r => { r with st := 2 }).enterRunning p.job, some p) := by
  simp only [Sys.takeIn, hs]
  exact (if_neg (Sys.not_held hp h)).trans ((if_neg (by omega)).trans ((if_neg (by omega)).trans ((if_neg (by omega)).trans ((if_pos hbr).trans (if_pos hm)))))

end

/-! #### Completion -/

/-- A job whose LAST packet has not completed is not done (R301). -/
theorem Sys.tryDone_notLast {j : Nat} (h : (y.job j).lastDone = false) : y.tryDone j = y := by
  rw [Sys.tryDone, if_neg (by simp [h])]

/-- A queue whose head packet has completed with a status. -/
def Queue.popped (rest : List Pkt) (st : Nat) (k : Queue) : Queue := { k with slots := rest, lastStatus := st, done := (k.done + 1) % 2 ^ 24 }

/-- The head packet has left its slot, and its credit is back. -/
def Sys.popped (q : Nat) (rest : List Pkt) (st : Nat) (y : Sys) : Sys := (y.modQueue q (Queue.popped rest st)).modPool 3 0 (Pool.give 1)

/-- A job that counts a completed packet and joins its status (R301). -/
def Job.counted (st grp : Nat) (last : Bool) (b : Job) : Job :=
  { b with packets := (b.packets + 1) % 2 ^ 32, status := statusJoin b.status st, lastDone := b.lastDone || last,
           group := if statusJoin b.status st ≠ b.status ∧ st = statusJoin b.status st then grp else b.group }

theorem Sys.popped_queue (q : Nat) (rest : List Pkt) (st : Nat) (y : Sys) : (y.popped q rest st).queue q = (y.queue q).popped rest st :=
  Sys.queue_modQueue_same y q _

/-- The completion of a packet that is no task and raises no vector, on a live job of the queue's context (R296, R301). -/
theorem Sys.packetComplete_plain {st : Nat} (grp : Nat) (hs : (y.queue q).slots = p :: rest) (htype : p.type ≠ 1) (hirq : p.irq = false)
    (halive : (y.job p.job).alive = true) (hctx : (y.job p.job).ctx = (y.queue q).ctx) (hpub : publishes st = true) (hlast : p.last = false)
    (hdone : (y.job p.job).lastDone = false) : y.packetComplete q st grp = (y.popped q rest st).modJob p.job (Job.counted st grp p.last) := by
  have hpop : (y.modQueue q fun k => { k with slots := rest, lastStatus := st, done := (k.done + 1) % 2 ^ 24 }).modPool 3 0 (Pool.give 1) =
    y.popped q rest st := rfl
  have hmine : (((y.popped q rest st).job p.job).alive && ((y.popped q rest st).job p.job).ctx == ((y.popped q rest st).queue q).ctx) = true := by
    rw [Sys.popped_queue, Bool.and_eq_true, beq_iff_eq]
    exact ⟨halive, hctx⟩
  simp only [Sys.packetComplete, hs, hpop, hmine, htype, hirq, hpub, false_and, if_false, if_true, Bool.false_eq_true, Bool.not_true]
  refine Sys.tryDone_notLast ?_
  have hjob : ((y.popped q rest st).modJob p.job (Job.counted st grp p.last)).job p.job = (y.job p.job).counted st grp p.last := tget_tmod_same _ _ _ _
  refine (congrArg Job.lastDone hjob).trans ?_
  rw [Job.counted, hdone, hlast]
  rfl

end

/-! #### NOP, WRITE, SOURCE and reserved packets -/

section
variable {q : Nat} {y z : Sys} {p : Pkt} {rest : List Pkt}

/-- A started head packet, its work named. -/
theorem Sys.startHead_queue (w : Option Nat) (hs : (y.queue q).slots = p :: rest) :
    ((y.startHead q w).queue q).slots = { p with started := true, work := w } :: rest := by
  rw [Sys.startHead, Sys.queue_modQueue_same, hs]

/-- A WRITE at the head completes once nothing holds its word back (R299). -/
theorem Sys.writeDone_started (hs : (y.queue q).slots = p :: rest) (htype : p.type = 6) (hp : p.started = true) : y.writeDone q =
    if y.writeWaits (y.queue q).ctx p = false then y.packetComplete q 0x00 0 else y := by
  simp only [Sys.writeDone, hs, htype, hp, true_and]

end

section
variable {q : Nat} {s : State} {p : Pkt} {rest : List Pkt}

theorem exec_nopPacket_head {y : Sys} (hs : (s.sys.queue q).slots = p :: rest) (ht : s.sys.takeIn q = (y, some p)) (h : p.type = 0) :
    exec (.nopPacket q) s = .next { s with sys := y.packetComplete q (if p.reservedOk [] then 0x00 else 0x10) 0 } := by
  change execNopPacket q s = _
  rw [execNopPacket, onSys, atHead_run hs (by simp [h]) ht]

theorem exec_reservedPacket_head {y : Sys} (hs : (s.sys.queue q).slots = p :: rest) (ht : s.sys.takeIn q = (y, some p)) (h : 7 ≤ p.type) :
    exec (.reservedPacket q) s = .next { s with sys := y.packetComplete q 0x10 0 } := by
  change execReservedPacket q s = _
  rw [execReservedPacket, onSys, atHead_run hs (by simp [h]) ht]

/-- What a head WRITE does once it may run. -/
theorem exec_writePacket_head {y : Sys} (hs : (s.sys.queue q).slots = p :: rest) (ht : s.sys.takeIn q = (y, some p)) (h : p.type = 6) :
    (p.reservedOk [2, 3, 4] = false ∨ p.addr % 4 ≠ 0 → exec (.writePacket q) s = .next { s with sys := y.packetComplete q 0x10 0 }) ∧
    (p.reservedOk [2, 3, 4] = true → p.addr % 4 = 0 →
      (∀ z r, y.vwrite none (y.queue q).ctx p.addr (leBytes 4 (p.word 4)) none = (z, .ok r) →
        exec (.writePacket q) s = .next { s with sys := (z.startHead q none).writeDone q }) ∧
      ∀ z e, y.vwrite none (y.queue q).ctx p.addr (leBytes 4 (p.word 4)) none = (z, .error e) →
        exec (.writePacket q) s = .next { s with sys := z.packetComplete q e 0 }) := by
  change (_ → execWritePacket q s = _) ∧ (_ → _ → (∀ z r, _ → execWritePacket q s = _) ∧ ∀ z e, _ → execWritePacket q s = _)
  rw [execWritePacket, onSys, atHead_run hs (by simp [h]) ht]
  refine ⟨fun hbad => by rw [if_pos hbad], fun hres ha => ⟨fun z r hw => ?_, fun z e hw => ?_⟩⟩
  · rw [if_neg (by simp [hres, ha]), hw]
  · rw [if_neg (by simp [hres, ha]), hw]

/-- What a head SOURCE does once it may run. -/
theorem exec_sourcePacket_head {y : Sys} (hs : (s.sys.queue q).slots = p :: rest) (ht : s.sys.takeIn q = (y, some p)) (h : p.type = 4) :
    exec (.sourcePacket q) s = .next { s with sys := if p.reservedOk [1, 2, 3] = false ∨ fld (p.word 1) 2 30 ≠ 0 then y.packetComplete q 0x10 0
                                                     else y.startHead q none } := by
  change execSourcePacket q s = _
  rw [execSourcePacket, onSys, atHead_run hs (by simp [h]) ht]

/-- SOURCE_REGISTER of a waiting SOURCE (R235). -/
theorem exec_sourceRegister_head (hs : (s.sys.queue q).slots = p :: rest) (h : p.type = 4) (hp : p.started = true) :
    (s.sys.slotInUse (fld (p.word 1) 0 2) = true → exec (.sourceRegister q) s = .next s) ∧
    (s.sys.slotInUse (fld (p.word 1) 0 2) = false →
      (∀ y bs, s.sys.vread none (s.sys.queue q).ctx (p.word 2 + 2 ^ 32 * p.word 3) 8 = (y, .ok bs) → exec (.sourceRegister q) s = .next { s with sys :=
        (y.modFg fun f => { f with slots := tset f.slots (fld (p.word 1) 0 2) { ready := true, reg := f.nextReg, desc := p.word 2 + 2 ^ 32 * p.word 3, app := wordAt bs 1 }, nextReg := f.nextReg + 1 }).packetComplete q 0x00 0 }) ∧
      ∀ y e, s.sys.vread none (s.sys.queue q).ctx (p.word 2 + 2 ^ 32 * p.word 3) 8 = (y, .error e) →
        exec (.sourceRegister q) s = .next { s with sys := y.packetComplete q e 0 }) := by
  change (_ → execSourceRegister q s = _) ∧ (_ → (∀ y bs, _ → execSourceRegister q s = _) ∧ ∀ y e, _ → execSourceRegister q s = _)
  simp only [execSourceRegister, onSys, hs]
  refine ⟨fun huse => by rw [if_pos (.inr (.inr huse))], fun hfree => ⟨fun y bs hr => ?_, fun y e hr => ?_⟩⟩
  · rw [if_neg (by simp [h, hp, hfree]), hr]
  · rw [if_neg (by simp [h, hp, hfree]), hr]

end

/-! #### TASK packets (R298) -/

section
variable {q : Nat} {y z : Sys} {p : Pkt} {rest : List Pkt}

/-- Only a packet that has not started is taken in. -/
theorem Sys.notStarted_of_takeIn (hs : (y.queue q).slots = p :: rest) (ht : y.takeIn q = (z, some p)) : p.started = false := by
  by_contra hp
  rw [Sys.takeIn_started hs (by simpa using hp)] at ht
  cases ht

/-- The row of a head TASK packet's kernel starts it. -/
theorem Sys.taskPacket_head {want : Nat × Nat → Bool} {k : Nat × Nat} (hs : (y.queue q).slots = p :: rest) (htype : p.type = 1)
    (ht : y.takeIn q = (z, some p)) (hk : y.headKernel q = some k) (hw : want k = true) : y.taskPacket q want = z.startTask q p := by
  have hp := Sys.notStarted_of_takeIn hs ht
  simp only [Sys.taskPacket, hk, hw, Bool.not_true, Bool.false_eq_true, if_false, hs, List.head?_cons, Option.map_some, hp, Option.getD_some]
  exact atHead_run hs (by simp [htype]) ht

/-- A TASK packet out of form, or that waits for the beam outside REALTIME. -/
theorem Sys.startTask_refused (hbad : taskForm p.words = false ∨ (bitAt (p.word 0) 18 = true ∧ (y.ctx (y.queue q).ctx).realtime = false)) :
    y.startTask q p = y.packetComplete q 0x10 (p.word 4) := by
  simp only [Sys.startTask]
  rw [if_pos hbad]

/-- The task group that a TASK packet of no frame-generation chain becomes. -/
def taskGroup (q : Nat) (p : Pkt) (y : Sys) : Tg :=
  let g := taskOf q (y.queue q).ctx p.job (y.exactFor q p.job) y.bridle.seq p.words
  { g with st := if bitAt (p.word 0) 18 then .beamWait else if bitAt (p.word 0) 27 then .flagWait else .ready
           stripes := if bitAt (p.word 0) 27 then g.stripes else 0, slivers := if g.kernel = 0 then g.slivers else 1, chain := none }

/-- The task group has been added and the head packet has become it. -/
def Sys.taskAdded (q : Nat) (g : Tg) (y : Sys) : Sys :=
  Sys.startHead q (some y.bridle.nextTg) (Sys.addTg g { y with bridle := { y.bridle with seq := y.bridle.seq + 1 } })

/-- The way of a new task group into the device: its chain, its record, its start. -/
def Sys.taskStart (q : Nat) (g : Tg) (y : Sys) : Sys :=
  let g := { g with chain := y.chainOf g }
  if y.cutHere g then (y.cancelNext g).beginCancel g.job 0x01 else
  let t := y.bridle.nextTg
  let y := (((y.chainJob g).closeChain g).addTg g).startHead q (some t)
  if g.st ≠ .ready then y else if g.kernel ≠ 0 then y.kernelStart t else y.tgBreeze t

/-- A task group of no chain is added as it is. -/
theorem Sys.taskStart_noChain {g : Tg} (h : y.chainOf g = none) (hg : g.chain = none) : y.taskStart q g =
    if g.st ≠ .ready then (y.addTg g).startHead q (some y.bridle.nextTg)
    else if g.kernel ≠ 0 then ((y.addTg g).startHead q (some y.bridle.nextTg)).kernelStart y.bridle.nextTg
    else ((y.addTg g).startHead q (some y.bridle.nextTg)).tgBreeze y.bridle.nextTg := by
  have hsame : ({ g with chain := y.chainOf g } : Tg) = g := by rw [h, ← hg]
  have hcut : y.cutHere g = false := by rw [Sys.cutHere, hg]
  have hjob : y.chainJob g = y := by rw [Sys.chainJob, hg]
  have hclose : y.closeChain g = y := by rw [Sys.closeChain, hg]
  simp only [Sys.taskStart, hsame, hcut, hjob, hclose, Bool.false_eq_true, if_false]

theorem Sys.startTask_taken (hform : taskForm p.words = true) (hwait : bitAt (p.word 0) 18 = true → (y.ctx (y.queue q).ctx).realtime = true)
    (hchain : bitAt (p.word 0) 18 = true ∨ y.fg.openOn q = none) : y.startTask q p =
      if (taskGroup q p y).st ≠ .ready then y.taskAdded q (taskGroup q p y)
      else if (taskGroup q p y).kernel ≠ 0 then (y.taskAdded q (taskGroup q p y)).kernelStart y.bridle.nextTg
      else (y.taskAdded q (taskGroup q p y)).tgBreeze y.bridle.nextTg := by
  have hnone : (y.modBridle fun b => { b with seq := b.seq + 1 }).chainOf (taskGroup q p y) = none := by
    unfold Sys.chainOf
    rcases hchain with hw | hopen
    · exact if_pos (if_pos hw)
    · split
      · rfl
      · exact hopen
  have hstart : y.startTask q p = (y.modBridle fun b => { b with seq := b.seq + 1 }).taskStart q (taskGroup q p y) := by
    rw [Sys.startTask, if_neg]
    · rfl
    · rintro (h | ⟨h, hr⟩)
      · simp [hform] at h
      · simp [hwait h] at hr
  rw [hstart, Sys.taskStart_noChain hnone rfl]
  rfl

end

end Sys2Proof.Machine

section
open Sys2Proof.Machine

/-- Settles O26: one lemma per state of the job for admission, and `Sys.packetComplete_plain` for the completion, whose job is not done yet. -/
theorem packetAdmission : Obligations.PacketAdmission := by
  refine ⟨?_, ?_⟩
  · rintro q y p rest hs hp _ rfl _ rfl
    refine ⟨fun h => Sys.takeIn_held hs h, fun h => ⟨fun hb => Sys.takeIn_foreign hs hp h hb, fun hc hb => Sys.takeIn_failed hs hp h hc hb,
      fun hc hb => Sys.takeIn_waits hs hp h hc hb, fun hc hb hbr => Sys.takeIn_running hs hp h hc hb hbr,
      fun hc hb hbr hm => Sys.takeIn_first hs hp h hc hb hbr hm⟩⟩
  · intro q st grp y p rest hs htype hirq halive hctx hpub hlast hdone
    have hz := Sys.packetComplete_plain grp hs (by omega) hirq halive hctx hpub hlast hdone
    have hqueue : ((y.packetComplete q st grp).queue q) = (y.queue q).popped rest st := by rw [hz]; exact Sys.popped_queue q rest st y
    have hjob : ((y.packetComplete q st grp).job p.job) = (y.job p.job).counted st grp p.last := by rw [hz]; exact tget_tmod_same _ _ _ _
    have hpool : (y.packetComplete q st grp).pool 3 0 = Pool.give 1 (y.pool 3 0) := by rw [hz]; exact tget_tmod_same _ _ _ _
    refine ⟨_, rfl, ?_⟩
    rw [hqueue, hjob, hpool]
    refine ⟨rfl, rfl, rfl, rfl, rfl, rfl, rfl, rfl, rfl, ?_, ?_, ?_⟩
    all_goals rw [hz]; rfl

/-- Settles O28: each row is what its packet does at the head, once `atHead_run` has taken it in. -/
theorem headPackets : Obligations.HeadPackets := by
  refine ⟨fun q s y p rest hs ht => ⟨exec_nopPacket_head hs ht, exec_reservedPacket_head hs ht, ?_, fun h => ?_⟩, ?_⟩
  · rintro h _ rfl
    obtain ⟨hbad, hgood⟩ := exec_writePacket_head hs ht h
    refine ⟨hbad, fun hres ha => ?_⟩
    obtain ⟨hok, herr⟩ := hgood hres ha
    refine ⟨?_, herr⟩
    rintro z r _ hw hslots rfl
    rw [hok z r hw, Sys.writeDone_started (Sys.startHead_queue none hslots) h rfl]
    exact ⟨fun hfree => by rw [if_pos hfree], fun hwait => by rw [if_neg (by simp [hwait])]⟩
  · rw [exec_sourcePacket_head hs ht h]
    exact ⟨fun hres hword => by rw [if_neg (by simp [hres, hword])], fun hbad => by rw [if_pos hbad]⟩
  · rintro q k s p rest hs h hp rfl
    obtain ⟨hused, hfree⟩ := exec_sourceRegister_head hs h hp
    refine ⟨hused, ?_⟩
    rintro hf _ rfl
    exact hfree hf

/-- Settles O29: a row starts the head TASK whose kernel it names, and `taskGroup` is what the words describe. -/
theorem taskRows : Obligations.TaskRows := by
  refine ⟨fun q s y p rest k op hs htype ht hk => ?_, ?_⟩
  · have row : ∀ want : Nat × Nat → Bool, want (k, op) = true → onSys (Sys.taskPacket q want) s = .next { s with sys := y.startTask q p } :=
      fun want hw => by rw [onSys, Sys.taskPacket_head hs htype ht hk hw]
    exact ⟨fun h => row _ (by simpa using h), fun h => row _ (by simp [h]), fun h => row _ (by simp [h]), fun h => row _ (by simp [h]),
      fun h ho => row _ (by simp [h, ho]), fun h ho => row _ (by simp [h, ho]), fun h ho => row _ (by simp [h, ho]),
      fun h ho => row _ (by simp [h, ho]), fun h ho => row _ (by simp [h, ho])⟩
  · rintro q y p _ _ rfl rfl
    refine ⟨Sys.startTask_refused, fun hform hwait hchain => ?_⟩
    rw [Sys.startTask_taken hform hwait hchain]
    have hst : (taskGroup q p y).st = if bitAt (p.word 0) 18 then .beamWait else if bitAt (p.word 0) 27 then .flagWait else .ready := rfl
    have hfld : ∀ w n, fld w 0 n = w % 2 ^ n := fun w n => by rw [fld, pow_zero, Nat.div_one]
    refine ⟨taskGroup q p y, _, rfl, rfl, rfl, rfl, rfl, hfld _ 8, rfl, fun h => ?_, hfld _ 20, fun hw => ?_, fun hw hf => ?_, fun hw hf => ?_⟩
    · exact (if_pos h).trans (hfld _ 24)
    · rw [hw, if_pos rfl] at hst
      exact ⟨hst, by rw [if_pos (by simp [hst])]; rfl⟩
    · rw [hw, hf, if_neg (by simp), if_pos rfl] at hst
      exact ⟨hst, by rw [if_pos (by simp [hst])]; rfl⟩
    · rw [hw, hf, if_neg (by simp), if_neg (by simp)] at hst
      refine ⟨hst, ?_⟩
      rw [if_neg (by simp [hst])]
      by_cases hk : (taskGroup q p y).kernel = 0
      · rw [if_neg (by simp [hk]), if_pos hk]
        rfl
      · rw [if_pos hk, if_neg hk]
        rfl
end

/-! ### JOB_CMD (R289, R300 to R304) -/

namespace Sys2Proof.Machine

/-- Outside TANDEM a job command acts on this die alone. -/
theorem onSys_jobCmd (op : Nat) {s : State} (hc : s.sys.glob.config ≠ 2) : onSys (Sys.jobCmd op) s = .next { s with sys := s.sys.jobOp op } := by
  rw [onSys, Sys.jobCmd, Sys.mirrored_plain hc]

section
variable {y : Sys} {j : Nat} {b : Job} (hj : j = y.bridle.jobSel % 4096) (hb : b = y.job j)
include hj hb

theorem Sys.jobOpen_free (hst : b.st = 0) (hv : (y.ctx b.ctx).valid = true) : y.jobOpen =
    ((y.modJob j fun b => { b with st := 1, opens := b.opens + 1, status := 0, packets := 0, group := 0, reruns := 0, reexec := 0, lastDone := false,
                                   started := false, cancelWith := 0, resumeHeld := false, brandValue := [], digest := [] }).modSec
      fun c => { c with brands := tdel c.brands j }).modDuo fun d => { d with unmirrored := d.unmirrored.filter (· != j) } := by
  subst hj hb
  exact if_pos ⟨hst, hv⟩

theorem Sys.jobOpen_refused (h : b.st ≠ 0 ∨ (y.ctx b.ctx).valid = false) : y.jobOpen = y.reject := by
  subst hj hb
  refine if_neg ?_
  rintro ⟨hst, hv⟩
  rcases h with h | h
  · exact h hst
  · exact absurd (h.symm.trans hv) (by decide)

theorem Sys.jobClose_eq : y.jobClose = if b.st = 6 ∨ b.st = 7 then y.modJob j fun b => { b with st := 0 } else y.reject := by
  subst hj hb
  rfl

theorem Sys.jobCancel_live (h1 : 1 ≤ b.st) (h4 : b.st ≤ 4) (hbr : (y.brandOf j).st ≠ 3) :
    y.jobCancel = (y.modJob j fun b => { b with st := 5, cancelWith := 0x01, resumeHeld := false }).stopJobWork j := by
  subst hj hb
  have hbegin : y.beginCancel (y.bridle.jobSel % 4096) 0x01 =
      y.modJob (y.bridle.jobSel % 4096) fun b => { b with st := 5, cancelWith := 0x01, resumeHeld := false } := if_pos ⟨h1, h4⟩
  exact (if_pos ⟨h1, h4, hbr⟩).trans (congrArg (Sys.stopJobWork _) hbegin)

theorem Sys.jobCancel_refused (h : b.st = 0 ∨ 5 ≤ b.st ∨ (y.brandOf j).st = 3) : y.jobCancel = y.reject := by
  subst hj hb
  exact if_neg (by rintro ⟨h1, h4, hbr⟩; unfold Sys.selJob at *; omega)

theorem Sys.jobSuspend_eq : y.jobSuspend =
    if b.st = 1 then ((y.modSec (Sec.drop (HashReq.ofJob j))).modBrand j fun r => { r with starts := [] }).suspended j
    else if (y.brandOf j).st = 3 then y.reject
    else if b.st = 2 then
      if (y.ctx b.ctx).saveAddr = 0 then y.reject.bridleEvent 2 else (y.modJob j fun b => { b with st := 3 }).suspendWork j
    else y.reject := by
  subst hj hb
  rfl

theorem Sys.jobResume_eq : y.jobResume =
    if b.st = 4 then if ((y.resumeJob j).brandOf j).st = 1 then (y.resumeJob j).queueHashes j false else y.resumeJob j
    else if b.st = 3 then y.modJob j fun b => { b with resumeHeld := true }
    else y.reject := by
  subst hj hb
  rfl

end

theorem Sys.chainsCancelled_bridle (j : Nat) (y : Sys) : (y.chainsCancelled j).bridle = y.bridle := rfl

/-- The end of a cancel waits for the work of the job to stop (R303). -/
theorem Sys.cancelEnd_cancelling {y z : Sys} {j : Nat} (h : (y.job j).st = 5) (hz : z = y.stopJobWork j) :
    (z.workLeft j = true → y.cancelEnd j = z) ∧ (z.workLeft j = false → ∀ w,
      w = (z.bridle.queues.map (·.1)).foldl (fun w q => w.endPackets j (z.job j).cancelWith q 2) (z.chainsCancelled j) →
      y.cancelEnd j = (w.finishJob j 7 (statusJoin (w.job j).status (z.job j).cancelWith)).recountCtx
        ((w.finishJob j 7 (statusJoin (w.job j).status (z.job j).cancelWith)).job j).ctx) := by
  subst hz
  simp only [Sys.cancelEnd, h, ne_eq, not_true_eq_false, if_false]
  refine ⟨fun hl => if_pos hl, ?_⟩
  intro hl w hw
  rw [if_neg (by simp [hl]), hw, Sys.chainsCancelled_bridle]

theorem Sys.suspendEnd_suspending {y z : Sys} {j : Nat} (h : (y.job j).st = 3) (hz : z = (y.saveArea j).standAgain) :
    y.suspendEnd j = if z.notStopped j then z else z.suspended j := by
  subst hz
  unfold Sys.suspendEnd
  rw [if_neg (by simp [h])]

/-- A job whose RESUME is not held stays SUSPENDED. -/
theorem Sys.suspended_st {y : Sys} {j : Nat} (h : (y.job j).resumeHeld = false) : ((y.suspended j).job j).st = 4 := by
  have hjob : ((y.modJob j fun b => { b with st := 4 }).writeRecord j 4 0x02).job j = { y.job j with st := 4 } := by
    rw [Sys.job, (Sys.writeRecord_accessed ..).work]
    exact tget_tmod_same {} y.work.jobs j fun b => { b with st := 4 }
  rw [Sys.suspended, hjob, if_neg (by simp [h]), hjob]

end Sys2Proof.Machine

section
open Sys2Proof.Machine

/-- Settles O31: one equation per command gives its effect by the record's state. -/
theorem jobCommands : Obligations.JobCommands := by
  refine ⟨fun s j b hc hj hb => ?_, fun j s y h hy => ?_, fun j s z h hz => ?_⟩
  · have hopen : exec .jobOpen s = .next { s with sys := s.sys.jobOpen } := onSys_jobCmd 0 hc
    have hsusp : exec .jobSuspend s = .next { s with sys := s.sys.jobSuspend } := onSys_jobCmd 1 hc
    have hresume : exec .jobResume s = .next { s with sys := s.sys.jobResume } := onSys_jobCmd 2 hc
    have hcancel : exec .jobCancel s = .next { s with sys := s.sys.jobCancel } := onSys_jobCmd 3 hc
    have hclose : exec .jobClose s = .next { s with sys := s.sys.jobClose } := onSys_jobCmd 4 hc
    rw [hopen, hclose, hcancel, hsusp, hresume, Sys.jobClose_eq hj hb, Sys.jobSuspend_eq hj hb, Sys.jobResume_eq hj hb]
    refine ⟨fun hst hv => ?_, fun hbad => ?_, fun hst => ?_, fun h6 h7 => ?_, fun h1 h4 hbr => ?_, fun hbad => ?_, fun hst => ?_,
      fun hst hbr => ⟨fun ha => ?_, fun ha => ?_⟩, fun hbad => ?_, fun hst => ?_, fun hst => ?_, fun h3 h4 => ?_⟩
    · rw [Sys.jobOpen_free hj hb hst hv, hb]
      rfl
    · rw [Sys.jobOpen_refused hj hb hbad]
      rfl
    · rw [if_pos hst, hb]
      rfl
    · rw [if_neg (by omega)]
      rfl
    · rw [Sys.jobCancel_live hj hb h1 h4 hbr, hb]
      rfl
    · rw [Sys.jobCancel_refused hj hb hbad]
      rfl
    · rw [if_pos hst]
    · rw [if_neg (by omega), if_neg hbr, if_pos hst, if_neg ha, hb]
      rfl
    · rw [if_neg (by omega), if_neg hbr, if_pos hst, if_pos ha]
      rfl
    · rw [if_neg (by omega)]
      by_cases hbr : (s.sys.brandOf j).st = 3
      · rw [if_pos hbr]
        rfl
      · rw [if_neg hbr, if_neg (by omega)]
        rfl
    · rw [if_pos hst]
    · rw [if_neg (by omega), if_pos hst, hb]
      rfl
    · rw [if_neg h4, if_neg h3]
      rfl
  · obtain ⟨hleft, hend⟩ := Sys.cancelEnd_cancelling h hy
    change (_ → onSys (Sys.cancelEnd j) s = _) ∧ (_ → ∃ z, _ ∧ onSys (Sys.cancelEnd j) s = _)
    exact ⟨fun hl => by rw [onSys, hleft hl], fun hl => ⟨_, rfl, by rw [onSys, hend hl _ rfl]⟩⟩
  · change (_ → onSys (Sys.suspendEnd j) s = _) ∧ (_ → onSys (Sys.suspendEnd j) s = _ ∧ _)
    rw [onSys, Sys.suspendEnd_suspending h hz]
    exact ⟨fun hn => by rw [if_pos hn], fun hn => ⟨by rw [if_neg (by simp [hn])], Sys.suspended_st⟩⟩
end

/-! ### Semaphores (R282, R283, R306, R307) -/

namespace Sys2Proof.Machine

/-! #### Requests and grants -/

/-- What some entry of a table shows, some entry still shows after a change of one entry that keeps it. -/
theorem any_tset {α : Type} (d v : α) (t : Tab α) (k : Nat) (P : Nat × α → Bool) (h : P (k, tget d t k) = true → P (k, v) = true)
    (ht : t.any P = true) : (tset t k v).any P = true := by
  induction t with
  | nil => cases ht
  | cons e t ih =>
    obtain ⟨i, w⟩ := e
    rw [List.any_cons, Bool.or_eq_true] at ht
    simp only [tset, tget] at h ⊢
    by_cases hi : i = k
    · subst hi
      rw [if_pos rfl] at h
      rw [if_pos rfl, List.any_cons, Bool.or_eq_true]
      exact ht.imp_left h
    · rw [if_neg hi] at h ⊢
      split
      · rw [List.any_cons, List.any_cons, Bool.or_eq_true, Bool.or_eq_true]
        exact .inr ht
      · rw [List.any_cons, Bool.or_eq_true]
        exact ht.imp_right (ih h)

section
variable {n : Nat} {y : Sys} {q : SemReq}

/-- The request at the end of the line. -/
def Sys.semJoined (n : Nat) (q : SemReq) (y : Sys) : Sys := y.modSem n fun m => { m with waits := m.waits ++ [q] }

theorem Sys.semJoined_sem (n : Nat) (q : SemReq) (y : Sys) : (y.semJoined n q).sem n = { y.sem n with waits := (y.sem n).waits ++ [q] } := by
  rw [Sys.sem, Sys.semJoined, Sys.modSem, Sys.modWork_work, tget_tmod_same]
  rfl

/-- A request that can be served at once only joins the line. -/
theorem Sys.semRequest_served (hw : (y.sem n).waits = []) (hf : (y.sem n).need q ≤ (y.sem n).free) : y.semRequest n q = y.semJoined n q := by
  simp only [Sys.semRequest, hw, List.isEmpty_nil, Bool.true_and, hf, decide_true, if_true]
  rfl

/-- A request that waits makes the holders it waits for lent to (R282). -/
theorem Sys.semRequest_waits (h : (y.sem n).waits ≠ [] ∨ (y.sem n).free < (y.sem n).need q) : y.semRequest n q = y.countLends (y.semJoined n q) := by
  simp only [Sys.semRequest]
  rw [if_neg]
  · rfl
  · rw [Bool.and_eq_true, List.isEmpty_iff, decide_eq_true_iff]
    rintro ⟨hw, hf⟩
    rcases h with h | h
    · exact h hw
    · omega

/-- The semaphores once the oldest request has its tokens. -/
def Sys.semTaken (n : Nat) (q : SemReq) (rest : List SemReq) (y : Sys) : Sys :=
  (y.modSem n fun m => { m with waits := rest, holds := m.holds ++ [{ who := q.who, n := (y.sem n).need q }] }).modPool 4 0 (Pool.take ((y.sem n).need q))

theorem Sys.semTaken_sem (n : Nat) (q : SemReq) (rest : List SemReq) (y : Sys) : (y.semTaken n q rest).sem n =
    { y.sem n with waits := rest, holds := (y.sem n).holds ++ [{ who := q.who, n := (y.sem n).need q }] } := by
  rw [Sys.semTaken, Sys.sem, Sys.modPool, Sys.modCons_work, Sys.modSem, Sys.modWork_work, tget_tmod_same]
  rfl

theorem Sys.semGrant_taken {rest : List SemReq} (hw : (y.sem n).waits = q :: rest) (hf : (y.sem n).need q ≤ (y.sem n).free) (ht : (y.sem n).total ≠ 0) :
    y.semGrant n = (y.countLends (y.semTaken n q rest), some q.who) := semGrant_ok hw hf ht

/-- A grant that gives nothing changes nothing. -/
theorem Sys.semGrant_fst_of_none (h : (y.semGrant n).2.isSome = false) : (y.semGrant n).1 = y := by
  unfold Sys.semGrant at h ⊢
  dsimp only at h ⊢
  split
  · rfl
  · rename_i r rest hw
    rw [hw] at h
    split
    · rename_i hc
      dsimp only at h
      rw [if_pos hc] at h
      cases h
    · rfl

theorem Sys.limitZero_limited (hl : y.bridle.holdLimit ≠ 0) : y.limitZero n = y := if_pos hl

end

/-! #### SEMACQ and SEMREL -/

section
variable {c a n : Nat} {s : State} {r : Run}

/-- Semaphores do not stop a sliver at its boundary. -/
theorem State.Undisturbed.of_semaphores {z : Sys} (u : s.Undisturbed r) (hj : z.work.jobs = s.sys.work.jobs) (hg : z.bridle.tgs = s.sys.bridle.tgs)
    (hd : z.duo = s.sys.duo) : ({ s with sys := z } : State).Undisturbed r := by
  have htg : z.tg r.tg = s.sys.tg r.tg := by rw [Sys.tg, hg]; rfl
  have hjob : ∀ j, z.job j = s.sys.job j := fun j => by rw [Sys.job, hj]; rfl
  refine ⟨?_, ?_, ?_, ?_, u.request⟩
  · change (z.job (z.tg r.tg).job).st ≠ 5
    rw [hjob, htg]
    exact u.cancel
  · change (z.tg r.tg).cut = false
    rw [htg]
    exact u.whole
  · change (z.job (z.tg r.tg).job).st ≠ 3
    rw [hjob, htg]
    exact u.suspend
  · change z.duo.hold = false
    rw [hd]
    exact u.hold

theorem semacq_empty (h : s.Issues c r) (hn : n = (r.x a).toNat % 4096) (ht : (s.sys.sem n).total = 0) :
    exec (.semacq c a) s = .next { s with sys := s.sys.sliverEnd c 0x10 false } := by
  subst hn
  change onSys (Sys.awl c _) s = _
  rw [onSys_awl h, if_pos ht]
  rfl

/-- What a SEMACQ does once its request has joined. -/
theorem semacq_joined (h : s.Issues c r) (hn : n = (r.x a).toNat % 4096) (ht : (s.sys.sem n).total ≠ 0) {q : SemReq}
    (hq : q = ⟨.sliver r.tg r.sliver, bitAt (r.x a).toNat 12⟩) {y : Sys} (hy : y = s.sys.semRequest n q) :
    exec (.semacq c a) s = .next { s with sys :=
      match if (y.sem n).waits.length = 1 then y.semGrant n else (y.limitZero n, none) with
      | (y, some _) => (y.retire c r).boundary c
      | (y, none) => ((y.waitOn c r (.sem n)).boundary c).yieldCore c } := by
  subst hn hq hy
  change onSys (Sys.awl c _) s = _
  rw [onSys_awl h, if_neg ht] <;> rfl

/-- A request that can be served at once takes its tokens, and the sliver goes on. -/
theorem semacq_served (h : s.Issues c r) (g : r.GoesOn (r.pc + 4)) (u : s.Undisturbed r) (hn : n = (r.x a).toNat % 4096) {q : SemReq}
    (hq : q = ⟨.sliver r.tg r.sliver, bitAt (r.x a).toNat 12⟩) (ht : (s.sys.sem n).total ≠ 0) (hw : (s.sys.sem n).waits = [])
    (hf : (s.sys.sem n).need q ≤ (s.sys.sem n).free) :
    exec (.semacq c a) s = .next (State.putRun c { r with pc := r.pc + 4 }
      { s with sys := (s.sys.semJoined n q).countLends ((s.sys.semJoined n q).semTaken n q []) }) := by
  have hsem := Sys.semJoined_sem n q s.sys
  have hjoined : (s.sys.semJoined n q).semGrant n = ((s.sys.semJoined n q).countLends ((s.sys.semJoined n q).semTaken n q []), some q.who) :=
    Sys.semGrant_taken (by rw [hsem, hw]; rfl) (by rw [hsem]; exact hf) (by rw [hsem]; exact ht)
  have hlen : ((s.sys.semJoined n q).sem n).waits.length = 1 := by rw [hsem, hw]; rfl
  rw [semacq_joined h hn ht hq (Sys.semRequest_served hw hf).symm, if_pos hlen, hjoined]
  exact congrArg Host.Outcome.next (retire_boundary (s := { s with sys := (s.sys.semJoined n q).countLends ((s.sys.semJoined n q).semTaken n q []) }) g
    (u.of_semaphores rfl rfl rfl))

/-- A waiting core keeps running for the holders of its semaphore. -/
theorem Sys.holderRuns_waitOn {y : Sys} (hr : (y.core c).run = some r) (w : Wait) {h : SemHolder} (hh : y.holderRuns h = true) :
    (y.waitOn c r w).holderRuns h = true := by
  have hcovers : ∀ t k, (y.waitOn c r w).covers h t k = y.covers h t k := fun _ _ => by cases h <;> rfl
  simp only [Sys.holderRuns, hcovers] at hh ⊢
  refine any_tset {} _ y.cores c _ (fun hc => ?_) hh
  have hr' : (tget {} y.cores c).run = some r := hr
  simpa [hr'] using hc

theorem Sys.yieldCore_holdersRun {y : Sys} (hr : (y.core c).run = some r) (hw : r.wait = .sem n)
    (hh : ∀ h ∈ (y.sem n).holds, y.holderRuns h.who = true) : y.yieldCore c = y := by
  simp only [Sys.yieldCore, hr, hw]
  exact if_pos (by simp [List.all_eq_true.mpr hh])

/-- A request that cannot be served waits, and its core waits with it while the holders run. -/
theorem semacq_waits (h : s.Issues c r) (u : s.Undisturbed r) (hn : n = (r.x a).toNat % 4096) {q : SemReq}
    (hq : q = ⟨.sliver r.tg r.sliver, bitAt (r.x a).toNat 12⟩) (ht : (s.sys.sem n).total ≠ 0)
    (hwait : (s.sys.sem n).waits ≠ [] ∨ (s.sys.sem n).free < (s.sys.sem n).need q)
    (hh : ∀ h ∈ (s.sys.sem n).holds, s.sys.holderRuns h.who = true) (hl : s.sys.bridle.holdLimit ≠ 0) :
    exec (.semacq c a) s = .next { s with sys := (s.sys.countLends (s.sys.semJoined n q)).waitOn c r (.sem n) } := by
  rw [semacq_joined h hn ht hq (Sys.semRequest_waits hwait).symm]
  have hsem : (s.sys.countLends (s.sys.semJoined n q)).sem n = { s.sys.sem n with waits := (s.sys.sem n).waits ++ [q] } := Sys.semJoined_sem n q s.sys
  have hnone : (if ((s.sys.countLends (s.sys.semJoined n q)).sem n).waits.length = 1 then (s.sys.countLends (s.sys.semJoined n q)).semGrant n
      else ((s.sys.countLends (s.sys.semJoined n q)).limitZero n, none)) = (s.sys.countLends (s.sys.semJoined n q), none) := by
    split
    · rename_i hlen
      rw [hsem, List.length_append, List.length_singleton] at hlen
      have hempty : (s.sys.sem n).waits = [] := List.eq_nil_of_length_eq_zero (by omega)
      refine semGrant_wait (r := q) (rest := []) (by rw [hsem, hempty]; rfl) ?_
      rw [hsem]
      exact hwait.resolve_left fun h => h hempty
    · rw [Sys.limitZero_limited (show (s.sys.countLends (s.sys.semJoined n q)).bridle.holdLimit ≠ 0 from hl)]
  rw [hnone]
  have hruns : ∀ who, s.sys.holderRuns who = true → (s.sys.countLends (s.sys.semJoined n q)).holderRuns who = true := fun who hw => by
    cases who <;> exact hw
  have hund := u.of_semaphores (z := s.sys.countLends (s.sys.semJoined n q)) rfl rfl rfl
  have hcore : ((s.sys.countLends (s.sys.semJoined n q)).core c).run = some r := h.run
  generalize s.sys.countLends (s.sys.semJoined n q) = z at *
  have hbound : (z.waitOn c r (.sem n)).boundary c = z.waitOn c r (.sem n) := congrArg State.sys (waitOn_boundary (s := { s with sys := z }) (.sem n) hund)
  refine congrArg (fun x => Host.Outcome.next ({ s with sys := x } : State)) ?_
  change ((z.waitOn c r (.sem n)).boundary c).yieldCore c = _
  rw [hbound]
  refine Sys.yieldCore_holdersRun (r := { r with wait := .sem n }) ?_ rfl fun x hx => Sys.holderRuns_waitOn hcore _ (hruns _ (hh x ?_))
  · rw [Sys.waitOn, Sys.core_modCore_same]
  · have hholds : (z.waitOn c r (.sem n)).sem n = z.sem n := rfl
    rw [hholds, hsem] at hx
    exact hx

theorem semrel_holds (h : s.Issues c r) (hn : n = (r.x a).toNat % 4096) {k : SemHold}
    (hk : (s.sys.sem n).holds.find? (fun h => h.who == .sliver r.tg r.sliver) = some k) : exec (.semrel c a) s =
      .next { s with sys := ((s.sys.modSem n fun m => { m with holds := m.holds.erase k }).modPool 4 0 (Pool.give k.n)).retire c r } := by
  subst hn
  change onSys (Sys.awl c _) s = _
  rw [onSys_awl h]
  simp only [Sys.semRelease, hk]

theorem semrel_none (h : s.Issues c r) (hn : n = (r.x a).toNat % 4096)
    (hk : (s.sys.sem n).holds.find? (fun h => h.who == .sliver r.tg r.sliver) = none) : exec (.semrel c a) s =
      .next { s with sys := s.sys.sliverEnd c 0x10 false } := by
  subst hn
  change onSys (Sys.awl c _) s = _
  rw [onSys_awl h]
  simp only [Sys.semRelease, hk]
  rfl

end

/-! #### Grants and packets -/

section
variable {n q : Nat} {s : State} {p : Pkt} {rest : List Pkt} {y : Sys}

/-- SEM_GRANT of a request that no kernel made. -/
theorem exec_semGrant_taken {r : SemReq} {rest : List SemReq} (hw : (s.sys.sem n).waits = r :: rest) (ht : (s.sys.sem n).total ≠ 0)
    (hf : (s.sys.sem n).need r ≤ (s.sys.sem n).free) (hy : y = s.sys.countLends (s.sys.semTaken n r rest)) :
    (∀ t k, r.who = .sliver t k → exec (.semGrant n) s = .next { s with sys := (y.semWake t k).limitZero n }) ∧
    (∀ j w, r.who = .job j → y.semPacketOf n j = some w → exec (.semGrant n) s = .next { s with sys := (y.packetComplete w 0x00 0).limitZero n }) := by
  subst hy
  change (∀ t k, _ → execSemGrant n s = _) ∧ (∀ j w, _ → _ → execSemGrant n s = _)
  have hgrant := Sys.semGrant_taken hw hf ht
  obtain ⟨who, all⟩ := r
  refine ⟨?_, ?_⟩
  · rintro t k rfl
    simp only [execSemGrant, onSys, hw, hgrant]
  · rintro j w rfl hp
    simp only [execSemGrant, onSys, hw, hgrant, hp]

/-- A SEMACQ packet whose request has joined completes when it is first and is granted. -/
def Sys.semTry (n q : Nat) (z : Sys) : Sys :=
  if (z.sem n).waits.length = 1 then
    match z.semGrant n with
    | (y, some _) => y.packetComplete q 0x00 0
    | (y, none) => y.limitZero n
  else z.limitZero n

theorem Sys.semTry_eq (n q : Nat) (z : Sys) : z.semTry n q =
    if (z.sem n).waits.length = 1 ∧ (z.semGrant n).2.isSome then (z.semGrant n).1.packetComplete q 0x00 0 else z.limitZero n := by
  unfold Sys.semTry
  by_cases hlen : (z.sem n).waits.length = 1
  · rw [if_pos hlen]
    cases hg : (z.semGrant n).2 with
    | none =>
      have hpair : z.semGrant n = (z, none) := Prod.ext (Sys.semGrant_fst_of_none (by rw [hg]; rfl)) hg
      rw [if_neg (by simp), hpair]
    | some w =>
      have hpair : z.semGrant n = ((z.semGrant n).1, some w) := Prod.ext rfl hg
      rw [if_pos ⟨hlen, rfl⟩, hpair]
  · rw [if_neg hlen, if_neg fun hc => hlen hc.1]

section
variable (hs : (s.sys.queue q).slots = p :: rest) (h : p.type = 5) (ht : s.sys.takeIn q = (y, some p)) (hn : n = fld (p.word 1) 0 12)
include hs h ht hn

/-- A head SEMACQ packet. -/
theorem exec_semAcquirePacket_head (hd : bitAt (p.word 1) 13 = false) :
    ((y.sem n).total = 0 → exec (.semAcquirePacket q) s = .next { s with sys := y.packetComplete q 0x10 0 }) ∧
    (p.reservedOk [1] = true → fld (p.word 1) 14 18 = 0 → (y.sem n).total ≠ 0 → ∀ z, z = Sys.semRequest n { who := .job p.job, all := bitAt (p.word 1) 12 }
        (Sys.startHead q (some y.bridle.seq) { y with bridle := { y.bridle with seq := y.bridle.seq + 1 } }) →
      exec (.semAcquirePacket q) s = .next { s with sys := if (z.sem n).waits.length = 1 ∧ (z.semGrant n).2.isSome then (z.semGrant n).1.packetComplete q 0x00 0
                                                           else z.limitZero n }) := by
  subst hn
  change (_ → execSemAcquirePacket q s = _) ∧ (_ → _ → _ → ∀ z, _ → execSemAcquirePacket q s = _)
  simp only [execSemAcquirePacket, onSys, hs, hd, Bool.false_eq_true, if_false]
  rw [atHead_run hs (by simp [h]) ht]
  refine ⟨fun h0 => by rw [if_pos (.inr (.inr h0))], fun hres hw h0 z hz => ?_⟩
  rw [if_neg (by simp [hres, hw, h0])]
  subst hz
  exact congrArg (fun x => Host.Outcome.next ({ s with sys := x } : State)) (Sys.semTry_eq (fld (p.word 1) 0 12) q _)

theorem exec_semReleasePacket_head (hd : bitAt (p.word 1) 13 = true) (hres : p.reservedOk [1] = true) (hw : fld (p.word 1) 14 18 = 0) {z : Sys} {b : Bool}
    (hr : y.semRelease n (.job p.job) = (z, b)) :
    exec (.semReleasePacket q) s = .next { s with sys := z.packetComplete q (if b then 0x00 else 0x10) 0 } := by
  subst hn
  change execSemReleasePacket q s = _
  simp only [execSemReleasePacket, onSys, hs, hd, Bool.not_true, Bool.false_eq_true, if_false]
  rw [atHead_run hs (by simp [h]) ht, if_neg (by simp [hres, hw]), hr]
  cases b <;> rfl

end

end

end Sys2Proof.Machine

section
open Sys2Proof.Machine

/-- Settles O48: a SEMACQ first joins the line, and `Sys.semRequest_served` or `Sys.semRequest_waits` says whether it is served there. -/
theorem semaphoreRows : Obligations.SemaphoreRows := by
  refine ⟨?_, fun c a n s r h hn => ⟨fun k hk => semrel_holds h hn hk, semrel_none h hn⟩, ?_, ?_⟩
  · rintro c a n s r _ h g hn rfl u
    refine ⟨semacq_empty h hn, fun q hq ht => ⟨fun hw hf => ?_, fun hwait hh hl => ?_⟩⟩
    · refine ⟨_, semacq_served h g u hn hq ht hw hf, ?_, ?_, ?_, rfl⟩
      · have hjoin := Sys.semJoined_sem n q s.sys
        refine (Sys.semTaken_sem n q [] _).trans ?_
        rw [hjoin, hq, ← hw]
        rfl
      · have hjoin := Sys.semJoined_sem n q s.sys
        have htaken : ((s.sys.semJoined n q).semTaken n q []).pool 4 0 = Pool.take (((s.sys.semJoined n q).sem n).need q) (s.sys.pool 4 0) := tget_tmod_same _ _ _ _
        refine htaken.trans ?_
        rw [hjoin]
        rfl
      · exact tget_tset_same _ _ _ _
    · refine ⟨_, semacq_waits h u hn hq ht hwait hh hl, Sys.semJoined_sem n q s.sys, ?_, rfl⟩
      exact Sys.core_modCore_same _ _ _
  · rintro n s q rest _ y rfl hw ht hf rfl
    exact exec_semGrant_taken hw ht hf rfl
  · rintro q n s p rest y hs h ht hn
    refine ⟨fun hd h0 => (exec_semAcquirePacket_head hs h ht hn hd).1 h0, fun hd hres hw h0 => (exec_semAcquirePacket_head hs h ht hn hd).2 hres hw h0, 
      fun hd hres hw z b hr => exec_semReleasePacket_head hs h ht hn hd hres hw hr⟩
end

section
/-! ## What the beam, the board and the packets leave: the die's own state (`glob`)

An advance of the beam runs the table, commit points, fires, frame starts and the completions these cause. None of it writes `glob`, so that the
mode of the module (R29), which decides whom a position is told to (R389), is the same after it. -/

namespace Sys2Proof.Machine

theorem foldl_glob {α : Type} {f : Sys → α → Sys} (h : ∀ y a, (f y a).glob = y.glob) (l : List α) (y : Sys) : (l.foldl f y).glob = y.glob := by
  induction l generalizing y with
  | nil => rfl
  | cons a l ih => rw [List.foldl_cons, ih, h]

theorem foldl_pair_glob {α β : Type} {f : Sys × β → α → Sys × β} (h : ∀ s a, (f s a).1.glob = s.1.glob) (l : List α) (s : Sys × β) :
    (l.foldl f s).1.glob = s.1.glob := by
  induction l generalizing s with
  | nil => rfl
  | cons a l ih => rw [List.foldl_cons, ih, h]

/-- A kernel's work that leaves the die's identity, mode and grants of reset alone. -/
def K.KeepsGlob {α : Type} (m : K α) : Prop := ∀ y, (ExceptT.run m y).2.glob = y.glob

theorem K.KeepsGlob.pure {α : Type} (a : α) : K.KeepsGlob (pure a) := fun _ => rfl
theorem K.KeepsGlob.throw {α : Type} (e : Nat) : K.KeepsGlob (throw e : K α) := fun _ => rfl
theorem K.KeepsGlob.bind {α β : Type} {m : K α} {f : α → K β} (hm : K.KeepsGlob m) (hf : ∀ a, K.KeepsGlob (f a)) : K.KeepsGlob (m >>= f) := by
  intro y
  have h := hm y
  cases hr : ExceptT.run m y with
  | mk r z =>
    rw [hr] at h
    cases r with
    | error e => rw [← h, ExceptT.run_bind]; simp only [Bind.bind, StateT.bind, hr]; rfl
    | ok a => rw [← h, ← hf a z, ExceptT.run_bind]; simp only [Bind.bind, StateT.bind, hr]
theorem K.KeepsGlob.need (b : Bool) : K.KeepsGlob (K.need b) := by
  cases b
  · exact .throw _
  · exact .pure _
theorem K.KeepsGlob.read (k : Kid) (a n : Nat) : K.KeepsGlob (k.read a n) := fun y => (Sys.vread_accessed none k.ctx a n y).glob
theorem K.KeepsGlob.list (k : Kid) (a : Nat) : K.KeepsGlob (k.list a) := by
  refine .bind (.read k a 64) fun bs => ?_
  cases parseList a bs with
  | none => exact .throw _
  | some l => exact .pure l
theorem K.KeepsGlob.lockOf (k : Kid) (kernel : Nat) (bs : List Byte) : K.KeepsGlob (k.lockOf kernel bs) := by
  unfold Kid.lockOf
  have listed : ∀ (a : Nat) (f : LDesc → Nat × Bool), K.KeepsGlob (do let l ← k.list a; Pure.pure (f l)) := fun a f => .bind (.list k a) fun _ => .pure _
  split <;> split
  · exact listed _ fun l => (l.sem, _)
  · exact .throw _
  · exact listed _ fun l => (l.sem, false)
  · exact .throw _
  · exact listed _ fun l => (l.sem, true)
  · exact .throw _
  · exact listed _ fun l => (l.sem, true)
  · exact .throw _

/-! ### What the beam drives leaves `glob`: messages, faults, reads -/

@[simp] theorem Sys.skipRest_glob (y : Sys) : y.skipRest.glob = y.glob := rfl
@[simp] theorem Sys.modModule_glob (y : Sys) (m : Nat) (f : Module → Module) : (y.modModule m f).glob = y.glob := rfl
@[simp] theorem Sys.emit_glob (p : OutPkt) (y : Sys) : (y.emit p).glob = y.glob := rfl
@[simp] theorem Sys.sendOne_glob (m : Nat) (y : Sys) : (y.sendOne m).glob = y.glob := (Sys.sendOne_sent m y).glob
@[simp] theorem Sys.flush_glob (m : Nat) (y : Sys) : (y.flush m).glob = y.glob := (Sys.flush_sent m y).glob
@[simp] theorem Sys.queueMsg_glob (m v : Nat) (y : Sys) : (y.queueMsg m v).glob = y.glob := (Sys.queueMsg_sent m v y).glob
@[simp] theorem Sys.fgEvent_glob (k : Nat) (y : Sys) : (y.fgEvent k).glob = y.glob := by unfold Sys.fgEvent; split <;> simp
@[simp] theorem Sys.modBand_glob (y : Sys) (b : Nat) (f : Band → Band) : (y.modBand b f).glob = y.glob := rfl
@[simp] theorem Sys.beginCancel_glob (j st : Nat) (y : Sys) : (y.beginCancel j st).glob = y.glob := by grind [Sys.beginCancel, foldl_glob, Sys.modJob_glob]
@[simp] theorem Sys.cancelChain_glob (b k : Nat) (y : Sys) : (y.cancelChain b k).glob = y.glob := by simp [Sys.cancelChain]
@[simp] theorem Sys.cancelBand_glob (y : Sys) (b : Nat) : (y.cancelBand b).glob = y.glob := by grind [Sys.cancelBand, foldl_glob, Sys.cancelChain_glob]
@[simp] theorem Sys.cancelBands_glob (y : Sys) : y.cancelBands.glob = y.glob := by unfold Sys.cancelBands; exact foldl_glob (fun y a => by simp) _ _
@[simp] theorem Sys.fgStop_glob (y : Sys) : y.fgStop.glob = y.glob := by simp [Sys.fgStop]
@[simp] theorem Sys.fgDisable_glob (y : Sys) : y.fgDisable.glob = y.glob := by simp [Sys.fgDisable]
@[simp] theorem Sys.logFault_glob (e : LogE) (y : Sys) : (y.logFault e).glob = y.glob := (Sys.logFault_accessed e y).glob
@[simp] theorem Sys.xlatFault_glob (ctx va : Nat) (k : XKind) (wr : Bool) (y : Sys) : (y.xlatFault ctx va k wr).glob = y.glob := (Sys.xlatFault_accessed ctx va k wr y).glob
@[simp] theorem Sys.translate_glob (who : Option Nat) (ctx va n : Nat) (wr : Bool) (y : Sys) : (y.translate who ctx va n wr).1.glob = y.glob := (Sys.translate_accessed who ctx va n wr y).glob

@[simp] theorem Sys.regionOk_glob (ctx a n : Nat) (wr : Bool) (y : Sys) : (y.regionOk ctx a n wr).1.glob = y.glob := by
  unfold Sys.regionOk
  refine (foldl_pair_glob ?_ _ _).trans rfl
  rintro ⟨z, _ | _⟩ p <;> grind [Sys.translate_glob]

@[simp] theorem Sys.fgRegionsOk_glob (c : Nat) (y : Sys) : (y.fgRegionsOk c).1.glob = y.glob := by grind [Sys.fgRegionsOk, foldl_glob, Sys.regionOk_glob]
@[simp] theorem Sys.fgRecheck_glob (y : Sys) : y.fgRecheck.glob = y.glob := by grind [Sys.fgRecheck, foldl_glob, Sys.fgDisable_glob, Sys.fgRegionsOk_glob]
@[simp] theorem Sys.bandsReset_glob (y : Sys) : y.bandsReset.glob = y.glob := by simp [Sys.bandsReset]

@[simp] theorem Sys.applyBeam_glob {move : Sys → Sys} (h : ∀ y, (move y).glob = y.glob) (y : Sys) : (y.applyBeam move).glob = y.glob := by
  grind [Sys.applyBeam, foldl_glob, Sys.modBeam_glob, Sys.fgRecheck_glob, Sys.bandsReset_glob]

@[simp] theorem Sys.resource_glob (y : Sys) : y.resource.glob = y.glob := by unfold Sys.resource; split <;> simp
@[simp] theorem Sys.nextFrame_glob (y : Sys) : y.nextFrame.glob = y.glob := rfl
@[simp] theorem Sys.fgStopNow_glob (y : Sys) : y.fgStopNow.glob = y.glob := by unfold Sys.fgStopNow; split <;> simp

/-! ### … scanout -/

@[simp] theorem Sys.signalReplay_glob (n : Nat) (y : Sys) : (y.signalReplay n).glob = y.glob := by grind [Sys.signalReplay, foldl_glob, Sys.emit_glob, Sys.modPipe_glob]
@[simp] theorem Sys.frameSdps_glob (n : Nat) (y : Sys) : (y.frameSdps n).glob = y.glob := by grind [Sys.frameSdps, foldl_glob, Sys.emit_glob]
@[simp] theorem Sys.holdTurn_glob (n : Nat) (y : Sys) : (y.holdTurn n).glob = y.glob := by simp [Sys.holdTurn]

@[simp] theorem Sys.frameOf_glob (n : Nat) (y : Sys) : (y.frameOf n).glob = y.glob := by
  grind [Sys.frameOf, foldl_glob, Sys.timingStopped_glob, Sys.modPipe_glob, Sys.signalReplay_glob, Sys.frameSdps_glob, Sys.holdTurn_glob]

@[simp] theorem Sys.stillCalm_glob (n : Nat) (y : Sys) : (y.stillCalm n).glob = y.glob := by grind [Sys.stillCalm, foldl_glob, Sys.modPipe_glob]
@[simp] theorem Sys.uncorrectable_glob (blk : Nat) (y : Sys) : (y.uncorrectable blk).glob = y.glob := (Sys.uncorrectable_accessed blk y).glob
@[simp] theorem Sys.scan_glob (a n : Nat) (y : Sys) : (y.scan a n).1.glob = y.glob := by unfold Sys.scan; split <;> [skip; split] <;> simp
@[simp] theorem Sys.tick_glob (y : Sys) : y.tick.glob = y.glob := rfl
@[simp] theorem Sys.readPiece_glob (who : Option Nat) (ctx va n : Nat) (y : Sys) : (y.readPiece who ctx va n).1.glob = y.glob := (Sys.readPiece_accessed who ctx va n y).glob
@[simp] theorem Sys.vread_glob (who : Option Nat) (ctx va n : Nat) (y : Sys) : (y.vread who ctx va n).1.glob = y.glob := (Sys.vread_accessed who ctx va n y).glob
@[simp] theorem Sys.feed_glob (n l : Nat) (y : Sys) : (y.feed n l).1.glob = y.glob := by grind [Sys.feed, foldl_glob, Sys.scan_glob, Sys.vread_glob, Sys.fgDisable_glob]
@[simp] theorem Sys.pipeEvent_glob (n k : Nat) (y : Sys) : (y.pipeEvent n k).glob = y.glob := by simp [Sys.pipeEvent]

@[simp] theorem Sys.sendPixels_glob (n l : Nat) (px : List Nat) (y : Sys) : (y.sendPixels n l px).glob = y.glob := by
  grind [Sys.sendPixels, foldl_glob, Sys.emit_glob, Sys.modPipe_glob]

@[simp] theorem Sys.holdWrite_glob (n l : Nat) (px : List Nat) (y : Sys) : (y.holdWrite n l px).glob = y.glob := by grind [Sys.holdWrite, foldl_glob, Sys.modPipe_glob]

@[simp] theorem Sys.sendLine_glob (n l late : Nat) (px : List Nat) (y : Sys) : (y.sendLine n l late px).glob = y.glob := by
  grind [Sys.sendLine, foldl_glob, Sys.modPipe_glob, Sys.pipeEvent_glob, Sys.sendPixels_glob, Sys.holdWrite_glob]

@[simp] theorem Sys.fetchLine_glob (n line late : Nat) (y : Sys) : (y.fetchLine n line late).glob = y.glob := by
  grind [Sys.fetchLine, foldl_glob, Sys.feed_glob, Sys.sendLine_glob, Sys.modPipe_glob]

@[simp] theorem Sys.retryFetch_glob (n : Nat) (y : Sys) : (y.retryFetch n).glob = y.glob := by grind [Sys.retryFetch, foldl_glob, Sys.fetchLine_glob, Sys.modPipe_glob]
@[simp] theorem Sys.dropLatches_glob (y : Sys) : y.dropLatches.glob = y.glob := by unfold Sys.dropLatches; split <;> simp

/-! ### … the band board's commit points and fires -/

@[simp] theorem Sys.commitBand_glob (b n : Nat) (y : Sys) : (y.commitBand b n).glob = y.glob := by
  grind [Sys.commitBand, foldl_glob, Sys.modBand_glob, Sys.modFg_glob, Sys.cancelChain_glob, Sys.fgEvent_glob, Sys.raise_glob]

@[simp] theorem Sys.bandTo_glob (b n : Nat) (y : Sys) : (y.bandTo b n).glob = y.glob := by unfold Sys.bandTo; split <;> simp

@[simp] theorem Sys.commitsHere_glob (y : Sys) : y.commitsHere.glob = y.glob := by
  grind [Sys.commitsHere, foldl_glob, Sys.dropLatches_glob, Sys.commitBand_glob, Sys.bandTo_glob]

@[simp] theorem Sys.fireMiss_glob (y : Sys) : y.fireMiss.glob = y.glob := by simp [Sys.fireMiss]
@[simp] theorem Sys.stillWake_glob (y : Sys) : y.stillWake.glob = y.glob := by unfold Sys.stillWake; split <;> simp
@[simp] theorem Sys.hsendOne_glob (y : Sys) : y.hsendOne.glob = y.glob := (Sys.hsendOne_accessed y).glob
@[simp] theorem Sys.hflush_glob (y : Sys) : y.hflush.glob = y.glob := by unfold Sys.hflush; exact foldl_glob (fun y a => by simp) _ _
@[simp] theorem Sys.hpost_glob (p : OutPkt) (y : Sys) : (y.hpost p).glob = y.glob := (Sys.hpost_accessed p y).glob
@[simp] theorem Sys.hsend_glob (p : OutPkt) (y : Sys) : (y.hsend p).glob = y.glob := by unfold Sys.hsend; split <;> [skip; split] <;> simp
@[simp] theorem Sys.latchSources_glob (n : Nat) (y : Sys) : (y.latchSources n).glob = y.glob := by unfold Sys.latchSources; split <;> [skip; split] <;> simp
@[simp] theorem Sys.modTg_glob (y : Sys) (t : Nat) (f : Tg → Tg) : (y.modTg t f).glob = y.glob := rfl

/-! ### … what is written at a task group's end -/

@[simp] theorem Sys.hostWrite_glob (ctx a : Nat) (bs : List Byte) (y : Sys) : (y.hostWrite ctx a bs).glob = y.glob := (Sys.hostWritePackets_sent ctx a bs y).glob
@[simp] theorem Sys.writePiece_glob (who : Option Nat) (ctx va : Nat) (bs : List Byte) (y : Sys) : (y.writePiece who ctx va bs).1.glob = y.glob := (Sys.writePiece_accessed who ctx va bs y).glob

@[simp] theorem Sys.vwrite_glob (who : Option Nat) (ctx va : Nat) (bs : List Byte) (tg : Option Nat) (y : Sys) : (y.vwrite who ctx va bs tg).1.glob = y.glob := by
  cases tg with
  | none => exact (Sys.vwrite_accessed who ctx va bs y).glob
  | some t =>
    by_cases hc : y.glob.config = 2
    · refine Eq.trans ?_ (Sys.vwrite_accessed who ctx va bs (y.modTg t fun g => { g with digest := (g.digest + digestOf va bs) % 2 ^ 128 })).glob
      simp only [Sys.vwrite, hc, if_true]
    · refine Eq.trans ?_ (Sys.vwrite_accessed who ctx va bs y).glob
      simp only [Sys.vwrite, hc, if_false]

@[simp] theorem Sys.mirrorBytes_glob (c a : Nat) (bs : List Byte) (y : Sys) : (y.mirrorBytes c a bs).glob = y.glob := by
  grind [Sys.mirrorBytes, foldl_glob, Sys.translate_glob, Sys.hpost_glob]

@[simp] theorem Sys.writeTicket_glob (b word : Nat) (ws : List Nat) (y : Sys) : (y.writeTicket b word ws).1.glob = y.glob := by
  grind [Sys.writeTicket, foldl_glob, Sys.vwrite_glob, Sys.fgDisable_glob, Sys.mirrorBytes_glob]

@[simp] theorem Sys.seqNo_glob (y : Sys) : y.seqNo.2.glob = y.glob := rfl
@[simp] theorem Sys.modStall_glob (y : Sys) (s : Nat) (f : Stall → Stall) : (y.modStall s f).glob = y.glob := rfl

@[simp] theorem Sys.applyStaged_glob (c tg : Nat) (e : Staged) (y : Sys) : (y.applyStaged c tg e).glob = y.glob := by
  grind [Sys.applyStaged, foldl_glob, Sys.modStall_glob, Sys.vread_glob, Sys.vwrite_glob]

@[simp] theorem Sys.writeTally_glob (c tg : Nat) (t : Tally) (y : Sys) : (y.writeTally c tg t).glob = y.glob := by simp [Sys.writeTally]
@[simp] theorem Sys.recordAffinity_glob (g : Tg) (y : Sys) : (y.recordAffinity g).glob = y.glob := by unfold Sys.recordAffinity; split <;> simp
@[simp] theorem Sys.modKvDom_glob (y : Sys) (d : Nat) (f : KvDom → KvDom) : (y.modKvDom d f).glob = y.glob := rfl
@[simp] theorem Sys.kvGive_glob (d : Nat) (us : List Nat) (host : Bool) (y : Sys) : (y.kvGive d us host).glob = y.glob := rfl
@[simp] theorem Sys.semReturnAll_glob (w : SemHolder) (y : Sys) : (y.semReturnAll w).glob = y.glob := rfl

@[simp] theorem Sys.chainStep_glob (b k : Nat) (bandEnd : Bool) (st : Nat) (y : Sys) : (y.chainStep b k bandEnd st).glob = y.glob := by
  grind [Sys.chainStep, foldl_glob, Sys.modBand_glob]

@[simp] theorem Sys.mismatch_glob (key job st : Nat) (y : Sys) : (y.mismatch key job st).glob = y.glob := by
  grind [Sys.mismatch, foldl_glob, Sys.duoEvent_glob, Sys.modDuo_glob, Sys.logFault_glob, Sys.beginCancel_glob, Sys.hsend_glob]

@[simp] theorem Sys.sendDigest_glob (key job d : Nat) (y : Sys) : (y.sendDigest key job d).glob = y.glob := by
  grind [Sys.sendDigest, foldl_glob, Sys.hsend_glob, Sys.modDuo_glob, Sys.mismatch_glob]

/-! ### … packets and jobs that end -/

@[simp] theorem Sys.growCheck_glob (y : Sys) : y.growCheck.glob = y.glob := rfl
@[simp] theorem Sys.pagesGive_glob (d : Nat) (us : List Nat) (y : Sys) : (y.pagesGive d us).glob = y.glob := rfl
@[simp] theorem Sys.unrequest_glob (a : Act) (y : Sys) : (y.unrequest a).glob = y.glob := rfl
@[simp] theorem Sys.settleLimit_glob (y : Sys) : y.settleLimit.glob = y.glob := by grind [Sys.settleLimit, foldl_glob, Sys.modGirth_glob, Sys.modPool_glob]
@[simp] theorem Sys.dropHold_glob (w : Holder) (y : Sys) : (y.dropHold w).glob = y.glob := by simp [Sys.dropHold]

@[simp] theorem Sys.dropRaster_glob (y : Sys) : y.dropRaster.glob = y.glob := by
  unfold Sys.dropRaster
  rw [Sys.modRaster_glob, foldl_glob fun y n => Sys.unrequest_glob _ y, foldl_glob fun y n => by simp]
  simp

@[simp] theorem Sys.modQueue_glob (y : Sys) (q : Nat) (f : Queue → Queue) : (y.modQueue q f).glob = y.glob := rfl

@[simp] theorem Sys.chainPacket_glob (q w0 st : Nat) (y : Sys) : (y.chainPacket q w0 st).glob = y.glob := by
  grind [Sys.chainPacket, foldl_glob, Sys.chainStep_glob, Sys.modFg_glob]

@[simp] theorem Sys.openGate_glob (g : Nat) (y : Sys) : (y.openGate g).glob = y.glob := rfl

@[simp] theorem Sys.jobDone_glob (j : Nat) (y : Sys) : (y.jobDone j).glob = y.glob := by
  grind [Sys.jobDone, foldl_glob, Sys.modJob_glob, Sys.finishJob_glob, Sys.duoEvent_glob]

@[simp] theorem Sys.queueHashes_glob (j : Nat) (atEnd : Bool) (y : Sys) : (y.queueHashes j atEnd).glob = y.glob := rfl
@[simp] theorem Sys.modBrand_glob (y : Sys) (j : Nat) (f : BrandSt → BrandSt) : (y.modBrand j f).glob = y.glob := rfl

@[simp] theorem Sys.tryDone_glob (j : Nat) (y : Sys) : (y.tryDone j).glob = y.glob := by
  grind [Sys.tryDone, foldl_glob, Sys.jobDone_glob, Sys.queueHashes_glob, Sys.modBrand_glob]

@[simp] theorem Sys.packetComplete_glob (q st grp : Nat) (y : Sys) : (y.packetComplete q st grp).glob = y.glob := by
  grind [Sys.packetComplete, foldl_glob, Sys.modQueue_glob, Sys.modPool_glob, Sys.modJob_glob, Sys.chainPacket_glob, Sys.openGate_glob, Sys.raise_glob,
    Sys.tryDone_glob, Sys.beginCancel_glob]

@[simp] theorem Sys.passEnd_glob (p : Pass) (isActive : Bool) (st : Nat) (y : Sys) : (y.passEnd p isActive st).glob = y.glob := by unfold Sys.passEnd; split <;> simp
@[simp] theorem Sys.passQuiet_glob (q : Nat) (y : Sys) : (y.passQuiet q).glob = y.glob := by grind [Sys.passQuiet, foldl_glob, Sys.passEnd_glob]
@[simp] theorem Sys.shadedDraw_glob (g : Tg) (draw st : Nat) (y : Sys) : (y.shadedDraw g draw st).glob = y.glob := by simp [Sys.shadedDraw]

@[simp] theorem Sys.tgComplete_glob (t : Nat) (y : Sys) : (y.tgComplete t).glob = y.glob := by
  unfold Sys.tgComplete
  extract_lets g live again sats st0 st staged tallied published d paged prefetched returned chained digested ended
  have hpublished : published.glob = y.glob := by
    have htallied : tallied.glob = staged.glob := foldl_glob (fun y k => Sys.writeTally_glob g.ctx t k y) _ _
    have hstaged : staged.glob = y.glob := foldl_glob (fun y e => Sys.applyStaged_glob g.ctx t e y) _ _
    simp only [published]
    split <;> simp [htallied, hstaged]
  have hchained : chained.glob = y.glob := by
    simp only [chained]
    split <;> simp [returned, prefetched, paged, hpublished]
  have hdigested : digested.glob = y.glob := by
    simp only [digested]
    split
    · simp [hchained]
    · split <;> simp [hchained]
  split
  · simp [again]
  · split <;> simp [ended, hdigested]

@[simp] theorem Sys.kernelDone_glob (t st : Nat) (y : Sys) : (y.kernelDone t st).glob = y.glob := by simp [Sys.kernelDone]

/-! ### … the built-in kernels' start -/

@[simp] theorem Sys.modSem_glob (y : Sys) (s : Nat) (f : Sem → Sem) : (y.modSem s f).glob = y.glob := rfl
@[simp] theorem Sys.countLends_glob (y y' : Sys) : (Sys.countLends y y').glob = y'.glob := rfl

@[simp] theorem Sys.semRequest_glob (n : Nat) (r : SemReq) (y : Sys) : (y.semRequest n r).glob = y.glob := by
  grind [Sys.semRequest, foldl_glob, Sys.modSem_glob, Sys.countLends_glob]

@[simp] theorem Sys.semGrant_glob (n : Nat) (y : Sys) : (y.semGrant n).1.glob = y.glob := by
  grind [Sys.semGrant, foldl_glob, Sys.modPool_glob, Sys.modSem_glob, Sys.countLends_glob]

@[simp] theorem Sys.keepErrors_glob (old new : Sys) : (Sys.keepErrors old new).glob = old.glob := rfl
@[simp] theorem Sys.breezeIn_glob (d : Nat) (y : Sys) : (y.breezeIn d).glob = y.glob := by unfold Sys.breezeIn; split <;> simp
@[simp] theorem Sys.tgBreeze_glob (t : Nat) (y : Sys) : (y.tgBreeze t).glob = y.glob := by grind [Sys.tgBreeze, foldl_glob, Sys.breezeIn_glob]

@[simp] theorem Sys.kernelReady_glob (t : Nat) (y : Sys) : (y.kernelReady t).glob = y.glob := by
  unfold Sys.kernelReady; dsimp only
  split <;> simp

@[simp] theorem Sys.devRead_glob (a n : Nat) (y : Sys) : (y.devRead a n).1.glob = y.glob := by unfold Sys.devRead; split <;> simp
@[simp] theorem Sys.kvTake_glob (d n : Nat) (host : Bool) (y : Sys) : (y.kvTake d n host).1.glob = y.glob := rfl
@[simp] theorem Sys.kvEvent_glob (k : Nat) (y : Sys) : (y.kvEvent k).glob = y.glob := by unfold Sys.kvEvent; split <;> simp

@[simp] theorem Sys.kernelReserve_glob (t : Nat) (first : Bool) (y : Sys) : (y.kernelReserve t first).glob = y.glob := by
  unfold Sys.kernelReserve; dsimp only
  split
  · simp
  · split
    · simp
    · split <;> [split; skip] <;> grind [Sys.modTg_glob, Sys.kvEvent_glob, Sys.keepErrors_glob]

@[simp] theorem Sys.kernelGo_glob (t : Nat) (y : Sys) : (y.kernelGo t).glob = y.glob := by unfold Sys.kernelGo; split <;> simp
@[simp] theorem Sys.holdOver_glob (h : SemHolder) (y : Sys) : (y.holdOver h).glob = y.glob := by simp [Sys.holdOver]
@[simp] theorem Sys.limitZero_glob (n : Nat) (y : Sys) : (y.limitZero n).glob = y.glob := by grind [Sys.limitZero, foldl_glob, Sys.holdOver_glob]

@[simp] theorem Sys.kernelStart_glob (t : Nat) (y : Sys) : (y.kernelStart t).glob = y.glob := by
  have hm : K.KeepsGlob (do K.need ((y.tg t).param % 64 == 0); let bs ← (y.kidOf t).read (y.tg t).param (paramBytes (y.tg t).kernel); (y.kidOf t).lockOf (y.tg t).kernel bs) := 
    .bind (.need _) fun _ => .bind (.read _ _ _) fun _ => .lockOf _ _ _
  replace hm := hm y
  unfold Sys.kernelStart
  grind [Sys.kernelDone_glob, Sys.semRequest_glob, Sys.modTg_glob, Sys.semGrant_glob, Sys.kernelGo_glob, Sys.limitZero_glob]

@[simp] theorem Sys.tgGo_glob (t : Nat) (y : Sys) : (y.tgGo t).glob = y.glob := by unfold Sys.tgGo; split <;> simp

/-! ### … fires -/

@[simp] theorem Sys.flagGo_glob (t : Nat) (failed : Option Nat) (y : Sys) : (y.flagGo t failed).glob = y.glob := by unfold Sys.flagGo; split <;> simp

@[simp] theorem Sys.beamRelease_glob (t arg : Nat) (chain : Option (Nat × Nat)) (y : Sys) : (y.beamRelease t arg chain).glob = y.glob := by
  grind [Sys.beamRelease, foldl_glob, Sys.seqNo_glob, Sys.modTg_glob, Sys.flagGo_glob, Sys.tgGo_glob]

@[simp] theorem Sys.releaseChain_glob (t b k : Nat) (y : Sys) : (y.releaseChain t b k).glob = y.glob := by
  grind [Sys.releaseChain, foldl_glob, Sys.modBand_glob, Sys.modFg_glob, Sys.modTg_glob, Sys.hsend_glob, Sys.beamRelease_glob]

@[simp] theorem Sys.genFire_glob (t b n : Nat) (y : Sys) : (y.genFire t b n).glob = y.glob := by
  grind [Sys.genFire, foldl_glob, Sys.latchSources_glob, Sys.fgEvent_glob, Sys.modFg_glob, Sys.modBand_glob, Sys.writeTicket_glob, Sys.modChance_glob,
    Sys.releaseChain_glob]

@[simp] theorem Sys.readPoses_glob (y : Sys) : y.readPoses.1.glob = y.glob := by
  unfold Sys.readPoses
  refine (foldl_pair_glob ?_ _ _).trans rfl
  rintro ⟨z, _ | _⟩ p <;> grind [Sys.vread_glob]

@[simp] theorem Sys.warpFire_glob (t b n : Nat) (y : Sys) : (y.warpFire t b n).glob = y.glob := by
  unfold Sys.warpFire
  extract_lets latched g late reproj
  have hlate : late.glob = y.glob := by
    simp only [late]
    split <;> simp [latched]
  split
  · exact hlate
  · have hp := Sys.readPoses_glob late
    split <;> rename_i hr <;> rw [hr] at hp
    · simpa [hlate] using hp
    · dsimp only
      grind [Sys.fgDisable_glob, Sys.fgEvent_glob, Sys.vread_glob, Sys.writeTicket_glob, Sys.releaseChain_glob, Sys.modBand_glob]

@[simp] theorem Sys.boardFire_glob (k b : Nat) (y : Sys) : (y.boardFire k b).glob = y.glob := by
  grind [Sys.boardFire, foldl_glob, Sys.fireMiss_glob, Sys.bandTo_glob, Sys.modFg_glob, Sys.genFire_glob, Sys.warpFire_glob]

@[simp] theorem Sys.fire_glob (q arg ctx : Nat) (y : Sys) : (y.fire q arg ctx).glob = y.glob := by
  grind [Sys.fire, foldl_glob, Sys.stillWake_glob, Sys.hsend_glob, Sys.fireMiss_glob, Sys.boardFire_glob, Sys.beamRelease_glob]

@[simp] theorem Sys.issueEntry_glob (i : Nat) (e : BEntry) (y : Sys) : (y.issueEntry i e).glob = y.glob := by
  grind [Sys.issueEntry, foldl_glob, Sys.fireMiss_glob, Sys.modBeam_glob, Sys.fire_glob, Sys.raise_glob]

@[simp] theorem Sys.runTable_glob (n : Nat) (y : Sys) : (y.runTable n).glob = y.glob := by
  induction n generalizing y with
  | zero => rfl
  | succ n ih => unfold Sys.runTable; grind [Sys.modBeam_glob, Sys.issueEntry_glob]

/-! ### … positions, lines and frames -/

@[simp] theorem Sys.atPosition_glob (y : Sys) : y.atPosition.glob = y.glob := by simp [Sys.atPosition]

@[simp] theorem Sys.beamFrame_glob (y : Sys) : y.beamFrame.glob = y.glob := by
  grind [Sys.beamFrame, Sys.skipRest_glob, Sys.applyBeam_glob, Sys.resource_glob, Sys.nextFrame_glob, Sys.fgStopNow_glob, Sys.frameOf_glob, Sys.stillCalm_glob,
    Sys.atPosition_glob]

@[simp] theorem Sys.nextLine_glob (y : Sys) : y.nextLine.glob = y.glob := by unfold Sys.nextLine; split <;> simp

@[simp] theorem Sys.holdDecision_glob (e : BEntry) (y : Sys) : (y.holdDecision e).1.glob = y.glob := by
  grind [Sys.holdDecision, foldl_glob, Sys.modBeam_glob, Sys.beamEvent_glob]

@[simp] theorem Sys.holdEnds_glob (y : Sys) : y.holdEnds.glob = y.glob := rfl

@[simp] theorem Sys.beamAdvance_glob (y : Sys) : y.beamAdvance.glob = y.glob := by
  grind [Sys.beamAdvance, foldl_glob, Sys.modFg_glob, Sys.beamFrame_glob, Sys.modBeam_glob, Sys.atPosition_glob, Sys.nextLine_glob, Sys.holdDecision_glob,
    Sys.holdEnds_glob, Sys.hsend_glob]

end Sys2Proof.Machine
end

section
/-! ## The Beam unit's ticks, lines and frames (O21) -/

namespace Sys2Proof.Machine

/-- Where an advance moves the beam, before a manager tells its worker (R54, R66). -/
def Sys.moved (y : Sys) : Sys :=
  if y.beam.source = 2 ∧ y.beam.ghostVtotal ≤ y.beam.line then y.beamFrame
  else if y.beam.tick < 15 then
    let y := y.modBeam fun b => { b with tick := b.tick + 1 }
    if y.beam.heldNow then y else y.atPosition
  else match y.holdHere with
    | none => y.nextLine
    | some e => match y.holdDecision e with
      | (y, true) => y
      | (y, false) => y.holdEnds.nextLine

theorem Sys.moved_glob (y : Sys) : y.moved.glob = y.glob := by
  unfold Sys.moved
  split
  · simp
  · split
    · dsimp only
      split <;> simp
    · split
      · simp
      · have hd := Sys.holdDecision_glob ‹_› y
        split <;> rename_i h <;> rw [h] at hd <;> simpa using hd

/-- One more beam tick since the commit points were last looked at. -/
def Sys.ticked (y : Sys) : Sys := y.modFg fun g => { g with ticks := g.ticks + 1 }

/-- In SOLO an advance only moves the beam: no worker is told (R389). -/
theorem Sys.beamAdvance_solo {y : Sys} (hc : y.glob.config = 0) : y.beamAdvance = y.ticked.moved := by
  have hl : y.ticked.moved.beamLeads = false := by simp [Sys.beamLeads, Sys.moved_glob, Sys.ticked, hc]
  let z := y.ticked
  calc y.beamAdvance
    _ = if z.moved.beamLeads then z.moved.hsend (.harness "BEAMPOS" [z.moved.beam.line, z.moved.beam.tick, putb z.moved.beam.heldNow 0,
        z.moved.beam.source, z.moved.beam.phase, z.moved.beam.frame] []) else z.moved := rfl
    _ = z.moved := by rw [if_neg (by simp [z, hl])]

/-- The beam is not past the end of a ghost frame. -/
def Beam.within (b : Beam) : Prop := b.source < 2 ∨ b.line < b.ghostVtotal

theorem Beam.within.not_over {b : Beam} (h : b.within) : ¬(b.source = 2 ∧ b.ghostVtotal ≤ b.line) := by
  unfold Beam.within at h; omega

theorem Sys.moved_tick {y : Sys} (h : y.beam.within) (ht : y.beam.tick < 15) {z : Sys} (hz : z = { y with beam := { y.beam with tick := y.beam.tick + 1 } }) :
    y.moved = if y.beam.heldNow then z else z.atPosition := by
  rw [Sys.moved, if_neg h.not_over, if_pos ht, hz]
  rfl

theorem Sys.moved_line {y : Sys} (h : y.beam.within) (ht : y.beam.tick = 15) (hn : y.holdHere = none) : y.moved = y.nextLine := by
  rw [Sys.moved, if_neg h.not_over, if_neg (by omega), hn]

theorem Sys.moved_held {y : Sys} (h : y.beam.within) (ht : y.beam.tick = 15) {e : BEntry} (he : y.holdHere = some e) {p : Sys × Bool}
    (hp : y.holdDecision e = p) : y.moved = if p.2 then p.1 else p.1.holdEnds.nextLine := by
  rw [Sys.moved, if_neg h.not_over, if_neg (by omega), he]
  dsimp only
  rw [hp]
  obtain ⟨z, _ | _⟩ := p <;> rfl

theorem Sys.moved_frame {y : Sys} (hs : y.beam.source = 2) (hl : y.beam.ghostVtotal ≤ y.beam.line) : y.moved = y.beamFrame := by
  rw [Sys.moved, if_pos ⟨hs, hl⟩]

/-- The cycles GHOST_TICK waits (R56). -/
theorem cdiv_ghost {k acc tick : Nat} (hlo : 256 * k + acc < tick) (hhi : tick ≤ 256 * (k + 1) + acc) : max 1 (cdiv (tick - acc) 256) = k + 1 := by
  unfold cdiv; omega

theorem Sys.ghostCycles_advances {y z : Sys} {n : Nat} (hz : z = y.refCycles n) (ht : y.beam.ghostTick ≠ 0) (hge : y.beam.ghostTick ≤ 256 * n + y.beam.acc)
    (hs : y.beam.source = 2) (hf : y.beamFollows = false) :
    y.ghostCycles n = Sys.beamAdvance { z with beam := { y.beam with acc := 256 * n + y.beam.acc - y.beam.ghostTick } } := by
  subst hz
  have ha : ¬ y.beam.acc + 256 * n < y.beam.ghostTick := by omega
  unfold Sys.ghostCycles
  dsimp only
  rw [if_neg (by exact ht), if_neg (by exact ha), if_pos]
  · rw [Nat.add_comm (256 * n)]; rfl
  · show ((y.beam.source == 2) && !y.beamFollows) = true
    simp [hs, hf]

end Sys2Proof.Machine

section
open Sys2Proof.Machine

/-- Settles O21: an advance in SOLO is `Sys.moved`, whose cases are those of R54, R57 and R62. -/
theorem beamTicks : Obligations.BeamTicks := by
  unfold Obligations.BeamTicks
  refine ⟨?_, ?_, ?_, ?_, ?_, fun y => rfl⟩
  · intro s hon hsrc hruns hfol
    change onSys _ s = _
    rw [onSys, if_pos (by simp [hon, hsrc, hruns, hfol])]
  · intro k s hp hon hsrc hfol hacc hlo hhi
    refine ⟨_, rfl, rfl, rfl, ?_⟩
    have ht : s.sys.beam.ghostTick ≠ 0 := by omega
    change execGhostTick s = _
    rw [execGhostTick, if_neg (by simp [hp]), onSys, if_neg ht, cdiv_ghost hlo hhi, Sys.ghostCycles_advances rfl ht hhi hsrc hfol]
  · intro y hc hw ht z hz
    rw [hz]
    exact (Sys.beamAdvance_solo hc).trans (Sys.moved_tick (y := y.ticked) hw ht rfl)
  · intro y hc hw ht hn
    exact (Sys.beamAdvance_solo hc).trans (Sys.moved_line (y := y.ticked) hw ht hn)
  · intro y hc hs hl
    exact (Sys.beamAdvance_solo hc).trans (Sys.moved_frame (y := y.ticked) hs hl)
end
end

section
/-! ## Holds and the Line Schedule Table (O22) -/

namespace Sys2Proof.Machine

section
variable {y : Sys} {e : BEntry}

/-! ### The hold decision (R66) -/

theorem Sys.holdDecision_fixed (hm : y.beam.master < 2 ∧ (y.pipe y.beam.master).vrr = false) : y.holdDecision e = (y, false) := by
  rw [Sys.holdDecision, if_pos hm]

variable (hm : ¬(y.beam.master < 2 ∧ (y.pipe y.beam.master).vrr = false))
include hm

theorem Sys.holdDecision_open (hg : bitAt y.beam.gates (fld e.w1 0 4) = true) :
    y.holdDecision e = (y.modBeam fun b => { b with gates := clrBit b.gates (fld e.w1 0 4) }, false) := by
  rw [Sys.holdDecision, if_neg hm, if_pos hg]

theorem Sys.holdDecision_timeout (hg : bitAt y.beam.gates (fld e.w1 0 4) = false) (hh : fld e.w1 4 13 ≤ y.beam.held) :
    y.holdDecision e = ((y.modBeam fun b => { b with holdTimeouts := satInc b.holdTimeouts }).beamEvent 1, false) := by
  rw [Sys.holdDecision, if_neg hm, if_neg (by simp [hg]), if_pos hh]

theorem Sys.holdDecision_repeat (hg : bitAt y.beam.gates (fld e.w1 0 4) = false) (hh : y.beam.held < fld e.w1 4 13) :
    y.holdDecision e = (y.modBeam fun b => { b with held := b.held + 1, heldNow := true, tick := 0 }, true) := by
  rw [Sys.holdDecision, if_neg hm, if_neg (by simp [hg]), if_neg (by omega)]

end

/-! ### The table at the beam's position (R63 to R65) -/

section
variable {n : Nat} {y : Sys} {e : BEntry} (he : y.beam.table[y.beam.next]? = some e)
include he

/-- The table's pointer moves past an entry. -/
def Sys.passEntry (y : Sys) : Sys := y.modBeam fun b => { b with next := b.next + 1 }

theorem Sys.runTable_ahead (h : y.beam.line < e.line ∨ (y.beam.line = e.line ∧ y.beam.tick < e.tick)) : Sys.runTable (n + 1) y = y := by
  have hno : (decide (e.line = y.beam.line ∧ e.tick = y.beam.tick) || decide (e.line < y.beam.line ∨ (e.line = y.beam.line ∧ e.tick < y.beam.tick))) = false := by
    simp; omega
  unfold Sys.runTable
  rw [he]
  dsimp only
  rw [if_pos (by rw [hno]; rfl)]

/-- An entry at or before the beam's position is passed, with what it does. -/
theorem Sys.runTable_entry (h : e.line < y.beam.line ∨ (e.line = y.beam.line ∧ e.tick ≤ y.beam.tick)) : Sys.runTable (n + 1) y =
    Sys.runTable n (if e.acts y.beam.phase = false then y.passEntry
      else if e.line = y.beam.line ∧ e.tick = y.beam.tick then y.passEntry.issueEntry y.beam.next e
      else y.passEntry.modBeam fun b => { b with skips := satInc b.skips }) := by
  have hyes : (decide (e.line = y.beam.line ∧ e.tick = y.beam.tick) || decide (e.line < y.beam.line ∨ (e.line = y.beam.line ∧ e.tick < y.beam.tick))) = true := by
    simp; omega
  conv_lhs => unfold Sys.runTable
  rw [he]
  dsimp only
  rw [if_neg (by rw [hyes]; simp)]
  cases e.acts y.beam.phase with
  | false => rfl
  | true =>
    by_cases hh : e.line = y.beam.line ∧ e.tick = y.beam.tick
    · simp only [hh, and_self, decide_true]; rfl
    · simp only [hh, decide_false]; rfl

theorem Sys.runTable_masked (h : e.line < y.beam.line ∨ (e.line = y.beam.line ∧ e.tick ≤ y.beam.tick)) (ha : e.acts y.beam.phase = false) :
    Sys.runTable (n + 1) y = Sys.runTable n y.passEntry := by
  rw [Sys.runTable_entry he h, if_pos ha]

theorem Sys.runTable_skipped (h : e.line < y.beam.line ∨ (e.line = y.beam.line ∧ e.tick < y.beam.tick)) (ha : e.acts y.beam.phase = true) :
    Sys.runTable (n + 1) y = Sys.runTable n (y.passEntry.modBeam fun b => { b with skips := satInc b.skips }) := by
  rw [Sys.runTable_entry he (by omega), if_neg (by simp [ha]), if_neg (by omega)]

theorem Sys.runTable_here (hl : e.line = y.beam.line) (ht : e.tick = y.beam.tick) (ha : e.acts y.beam.phase = true) :
    Sys.runTable (n + 1) y = Sys.runTable n (y.passEntry.issueEntry y.beam.next e) := by
  rw [Sys.runTable_entry he (by omega), if_neg (by simp [ha]), if_pos ⟨hl, ht⟩]

end

section
variable {i : Nat} {y : Sys} {e : BEntry}

theorem Sys.issueEntry_nop (hk : e.kind = 0) : y.issueEntry i e = y := by
  rw [Sys.issueEntry, hk]
  rfl

theorem Sys.issueEntry_mark (hk : e.kind = 3) : y.issueEntry i e = Sys.raise 0 (fld e.w1 0 8) (y.modBeam fun k =>
    { k with mark := put i 0 12 + put y.beam.phase 12 3 + put y.beam.line 15 13 + put y.beam.tick 28 4, markFrame := y.beam.frame }) := by
  rw [Sys.issueEntry, hk]
  rfl

theorem Sys.issueEntry_fire (hk : e.kind = 1) (hb : bitAt y.beam.heldBack e.ctx = false) :
    y.issueEntry i e = y.fire (fld e.w1 0 18) (fld e.w1 18 8) e.ctx := by
  rw [Sys.issueEntry, hk]
  exact if_neg (by simp [hb])

theorem Sys.issueEntry_heldBack (hk : e.kind = 1) (hb : bitAt y.beam.heldBack e.ctx = true) :
    y.issueEntry i e = (y.modBeam fun b => { b with skips := satInc b.skips }).fireMiss := by
  rw [Sys.issueEntry, hk]
  exact if_pos hb

end

/-! ### Fires in SOLO that are not the band board's (R64) -/

section
variable {q arg c : Nat} {y : Sys}

theorem Sys.stillWake_bridle (y : Sys) : y.stillWake.bridle = y.bridle := by unfold Sys.stillWake; split <;> rfl
theorem Sys.stillWake_fg (y : Sys) : y.stillWake.fg = y.fg := by unfold Sys.stillWake; split <;> rfl

/-- The fire rings the queue: its context owns it. -/
theorem Sys.fire_solo (hc : y.glob.config = 0) (hb : y.fg.en = false ∨ (q ≠ y.fg.genQ ∧ q ≠ y.fg.warpQ)) :
    y.fire q arg c = if (y.queue q).isOpen = true ∧ (y.queue q).ctx = c then
        (y.beamWaiter q).elim y.stillWake.fireMiss fun t => y.stillWake.beamRelease t arg none
      else y.stillWake.fireMiss := by
  have hlead : y.stillWake.beamLeads = false := by simp [Sys.beamLeads, hc]
  have hq : y.stillWake.queue q = y.queue q := by simp [Sys.queue, Sys.stillWake_bridle]
  have hw : y.stillWake.beamWaiter q = y.beamWaiter q := by simp [Sys.beamWaiter, Sys.stillWake_bridle]
  unfold Sys.fire
  dsimp only
  simp only [hlead, Bool.false_and, Bool.false_or, Bool.false_eq_true, if_false, hq, hw, Sys.stillWake_fg]
  by_cases hm : (y.queue q).isOpen = true ∧ (y.queue q).ctx = c
  · have hboard : ¬(y.fg.en = true ∧ q = y.fg.genQ) ∧ ¬(y.fg.en = true ∧ q = y.fg.warpQ) := by
      rcases hb with hb | ⟨h1, h2⟩ <;> simp [*]
    cases y.beamWaiter q <;> simp [hm, hboard]
  · have hm' : ((y.queue q).isOpen && (y.queue q).ctx == c) = false := by simpa using hm
    simp [hm, hm']

end

end Sys2Proof.Machine

section
open Sys2Proof.Machine

/-- Settles O22: the four hold decisions, the table's entries by where they lie, and a fire with or without a waiter. -/
theorem beamHoldsAndTable : Obligations.BeamHoldsAndTable := by
  unfold Obligations.BeamHoldsAndTable
  refine ⟨?_, ?_, ?_⟩
  · rintro y y1 e hc hw ht he rfl
    have held : ∀ {p : Sys × Bool}, y.ticked.holdDecision e = p → y.beamAdvance = if p.2 then p.1 else p.1.holdEnds.nextLine := fun hp =>
      (Sys.beamAdvance_solo hc).trans (Sys.moved_held (y := y.ticked) hw ht he hp)
    refine ⟨fun hm => held (Sys.holdDecision_fixed (y := y.ticked) hm), fun hm => ⟨fun hg => held (Sys.holdDecision_open (y := y.ticked) hm hg),
      fun hg hh => ⟨_, rfl, ?_⟩, fun hg hh => held (Sys.holdDecision_repeat (y := y.ticked) hm hg hh)⟩⟩
    have hz := held (Sys.holdDecision_timeout (y := y.ticked) hm hg hh)
    have hlast : (Sys.beamEvent 1 (y.ticked.modBeam fun b => { b with holdTimeouts := satInc b.holdTimeouts })).beam.held = y.beam.held := by simp [Sys.ticked]
    rw [hz, ← hlast]
    rfl
  · rintro n y e he y1 rfl
    refine ⟨Sys.runTable_ahead he, Sys.runTable_masked he, Sys.runTable_skipped he, fun hl ht ha => ?_⟩
    have here := Sys.runTable_here (n := n) he hl ht ha
    exact ⟨fun hk => here.trans (by rw [Sys.issueEntry_nop hk]; rfl), fun hk => here.trans (by rw [Sys.issueEntry_mark hk]; rfl),
      fun hk hb => here.trans (by rw [Sys.issueEntry_fire (y := y.passEntry) hk hb]; rfl), fun hk hb => here.trans (by rw [Sys.issueEntry_heldBack (y := y.passEntry) hk hb]; rfl)⟩
  · intro q arg c y z hc hb hz
    subst hz
    refine ⟨fun ho hx t ht => ?_, fun hnone => ?_⟩
    · rw [Sys.fire_solo hc hb, if_pos ⟨ho, hx⟩, ht]
      rfl
    · rw [Sys.fire_solo hc hb]
      split
      next hm => rw [hnone hm.1 hm.2]; rfl
      next => rfl
end
end

section
/-! ## The Beam block's commands (O23) and the band board (O24) -/

namespace Sys2Proof.Machine

/-! ### The board's control word (R224) -/

theorem setBit_zero_half (w : Nat) : setBit w 0 / 2 = w / 2 := by
  unfold setBit bitAt
  split <;> simp_all; omega

theorem clrBit_zero_half (w : Nat) : clrBit w 0 / 2 = w / 2 := by
  unfold clrBit bitAt
  split <;> simp_all; omega

/-- The fields of BEAM_FG_CTRL lie above its EN bit and below bit 32. -/
theorem Sys.fgFields_of_half {v w : Nat} (h : v / 2 = w % 2 ^ 32 / 2) : Sys.fgFields v = Sys.fgFields w := by
  have h1 : bitAt v 1 = bitAt w 1 := by unfold bitAt; congr 1; omega
  have h2 : fld v 2 8 = fld w 2 8 := by unfold fld; omega
  have h3 : fld v 10 5 = fld w 10 5 := by unfold fld; omega
  funext y
  rw [Sys.fgFields, Sys.fgFields, h1, h2, h3]

section
variable {w : Nat} {s : State} (hc : s.sys.glob.config ≠ 2)
include hc

theorem exec_fgEnable : exec (.fgEnable w) s = .next { s with sys := s.sys.fgEnable (setBit (w % 2 ^ 32) 0) } := by
  change onSys (Sys.mirrored _ _ _) s = _
  rw [onSys, Sys.mirrored_plain hc]

theorem exec_fgDisable : exec (.fgDisable w) s = .next { s with sys := (s.sys.fgFields w).modFg fun g => { g with stopping := g.en } } := by
  change onSys (Sys.mirrored _ _ _) s = _
  rw [onSys, Sys.mirrored_plain hc, Sys.fgDisableWrite, Sys.fgFields_of_half (clrBit_zero_half _)]

theorem exec_fgClrCounts : exec .fgClrCounts s = .next { s with sys := s.sys.fgClear 0 } := by
  change onSys (Sys.mirrored _ _ _) s = _
  rw [onSys, Sys.mirrored_plain hc]

end

section
variable {w : Nat} {y z : Sys} (hz : z = y.fgFields w)
include hz

theorem Sys.fgEnable_busy (hi : y.fgIdle = false) : y.fgEnable (setBit (w % 2 ^ 32) 0) = z.reject := by
  have hi' : z.fgIdle = false := by rw [hz]; exact hi
  rw [Sys.fgEnable, Sys.fgFields_of_half (setBit_zero_half _), ← hz, if_neg (by simp [hi'])]

theorem Sys.fgEnable_badConfig (hk : z.fgConfigOk = false) : y.fgEnable (setBit (w % 2 ^ 32) 0) = z.reject := by
  rw [Sys.fgEnable, Sys.fgFields_of_half (setBit_zero_half _), ← hz, if_neg (by simp [hk])]

variable (hi : y.fgIdle = true) (hk : z.fgConfigOk = true)
include hi hk

theorem Sys.fgEnable_starts {x : Sys} (hr : z.fgRegionsOk (y.compositor.getD 0) = (x, true)) : y.fgEnable (setBit (w % 2 ^ 32) 0) =
    (x.modFg fun g => { g with en := true, stopping := false, openGen := none, openWarp := none, cutGen := false, cutWarp := false }).bandsReset := by
  have hi' : z.fgIdle = true := by rw [hz]; exact hi
  have hr' : z.fgRegionsOk (z.compositor.getD 0) = (x, true) := by rw [← hr, hz]; rfl
  rw [Sys.fgEnable, Sys.fgFields_of_half (setBit_zero_half _), ← hz, if_pos (by simp [hi', hk]), hr']

theorem Sys.fgEnable_badRegions {x : Sys} (hr : z.fgRegionsOk (y.compositor.getD 0) = (x, false)) : y.fgEnable (setBit (w % 2 ^ 32) 0) = x.reject := by
  have hi' : z.fgIdle = true := by rw [hz]; exact hi
  have hr' : z.fgRegionsOk (z.compositor.getD 0) = (x, false) := by rw [← hr, hz]; rfl
  rw [Sys.fgEnable, Sys.fgFields_of_half (setBit_zero_half _), ← hz, if_pos (by simp [hi', hk]), hr']

end

/-! ### The oldest held fire that may go (R226) -/

/-- The chain of a held fire's band is still being cancelled. -/
def Sys.cancelling (y : Sys) (h : HeldFire) : Prop := (if h.kind = 0 then (y.band h.band).gen else (y.band h.band).warp) = .cancelling

/-- The queue a held fire rings. -/
def Sys.heldQueue (y : Sys) (h : HeldFire) : Nat := if h.kind = 0 then y.fg.genQ else y.fg.warpQ

/-- The task group a held fire goes to: none when its frame's commit point has passed. -/
def Sys.releasable (y : Sys) (h : HeldFire) : Option Nat := if y.nextCommit h.band ≠ h.frame then none else y.beamWaiter (y.heldQueue h)

/-- A held fire goes to its task group. -/
def Sys.releaseHeld (y : Sys) (h : HeldFire) (t : Nat) : Sys := if h.kind = 0 then y.genFire t h.band h.frame else y.warpFire t h.band h.frame

/-- The held fire leaves the list. -/
def Sys.unhold (y : Sys) (l : List HeldFire) : Sys := { y with fg := { y.fg with held := l } }

theorem exec_heldFireRelease {s : State} {h : HeldFire} {before after : List HeldFire} (hl : s.sys.fg.held = before ++ h :: after)
    (hb : ∀ k ∈ before, s.sys.cancelling k) (hh : ¬ s.sys.cancelling h) {y : Sys} (hy : y = s.sys.unhold (before ++ after)) :
    exec .heldFireRelease s = .next { s with sys := (s.sys.releasable h).elim y.fireMiss (y.releaseHeld h) } := by
  have hfind : s.sys.fg.held.find? (fun h => (if h.kind = 0 then (s.sys.band h.band).gen else (s.sys.band h.band).warp) != .cancelling) = some h := by
    rw [hl, List.find?_append, List.find?_eq_none.2 (fun k hk => by simpa [Sys.cancelling] using hb k hk)]
    simp only [Option.none_or]
    exact List.find?_cons_of_pos (by simpa [Sys.cancelling] using hh)
  have herase : s.sys.fg.held.erase h = before ++ after := by
    rw [hl, List.erase_append_right _ (fun hm => hh (hb h hm)), List.erase_cons_head]
  have hy' : (s.sys.modFg fun g => { g with held := g.held.erase h }) = y := by rw [hy, Sys.unhold, ← herase]; rfl
  have hn : y.nextCommit h.band = s.sys.nextCommit h.band := by rw [hy]; rfl
  have hw : y.beamWaiter (if h.kind = 0 then y.fg.genQ else y.fg.warpQ) = s.sys.beamWaiter (s.sys.heldQueue h) := by rw [hy]; rfl
  change execHeldFireRelease s = _
  rw [execHeldFireRelease, onSys]
  dsimp only
  rw [hfind]
  dsimp only
  rw [hy', hn, hw, Sys.releasable]
  by_cases hp : s.sys.nextCommit h.band ≠ h.frame
  · rw [if_pos hp, if_pos hp]
    rfl
  · rw [if_neg hp, if_neg hp]
    cases s.sys.beamWaiter (s.sys.heldQueue h) <;> rfl

/-! ### Commit points (R231) -/

theorem Sys.band_modBand (y : Sys) (b : Nat) (f : Band → Band) : (y.modBand b f).band b = f (y.band b) := by
  rw [Sys.band, Sys.modBand, Sys.modFg_fg, tget_tmod_same]; rfl

@[simp] theorem Sys.fgEvent_fg (y : Sys) (k : Nat) : (y.fgEvent k).fg = { y.fg with events := setBit y.fg.events k } := by
  unfold Sys.fgEvent
  dsimp only
  split <;> simp

section
variable (y : Sys) (b n lvl doneAt : Nat)

/-- A commit point counts the level at which its band is shown (R231, R241). -/
def Sys.countLevel : Sys := y.modFg fun f =>
    { f with level1 := if lvl = 1 then satInc f.level1 else f.level1, level2 := if lvl = 2 then satInc f.level2 else f.level2,
             level3 := if lvl = 3 then satInc f.level3 else f.level3, cur1 := if lvl = 1 then f.cur1 + 1 else f.cur1,
             cur2 := if lvl = 2 then f.cur2 + 1 else f.cur2, cur3 := if lvl = 3 then f.cur3 + 1 else f.cur3,
             minSlack := if lvl < 3 then min f.minSlack (min 0xFFFF (f.ticks - doneAt)) else f.minSlack }

/-- The events of a level below 1. -/
def Sys.levelEvents : Sys :=
  let z := if lvl = 2 then y.fgEvent 0 else if lvl = 3 then y.fgEvent 1 else y
  if lvl = 3 ∧ z.fg.irqEn = true then z.raise 0 z.fg.vector else z

/-- A band's state at its commit point for frame n. -/
def Band.commit (n : Nat) (k : Band) : Band :=
  { k with handed := k.shown, committed := some n, frame := (n + 1) % 2 ^ 32, gen := k.gen.after, warp := k.warp.after, reproj := false }

/-- The band's state goes to scanout, and its chains are idle for the next frame. -/
def Sys.handOver : Sys :=
  let z := y.modBand b (Band.commit n)
  if b + 1 = z.bandCount then
    z.modFg fun f => { f with last := put f.cur1 0 9 + put f.cur2 9 9 + put f.cur3 18 9, cur1 := 0, cur2 := 0, cur3 := 0 }
  else z

theorem Sys.levelEvents_fg : ∃ e, (y.levelEvents lvl).fg = { y.fg with events := e } := by
  unfold Sys.levelEvents
  extract_lets z
  have hz : ∃ e, z.fg = { y.fg with events := e } := by
    simp only [z]
    split
    · exact ⟨_, Sys.fgEvent_fg y 0⟩
    · split
      · exact ⟨_, Sys.fgEvent_fg y 1⟩
      · exact ⟨_, rfl⟩
  split
  · simpa using hz
  · exact hz

theorem Sys.handOver_band : (y.handOver b n).band b = (y.band b).commit n := by
  refine Eq.trans ?_ (Sys.band_modBand y b _)
  unfold Sys.handOver
  dsimp only
  split <;> rfl

/-- The counts of the levels at which bands were shown. -/
def Fg.levels (f : Fg) : Nat × Nat × Nat := (f.level1, f.level2, f.level3)

theorem Sys.handOver_levels : (y.handOver b n).fg.levels = y.fg.levels := by
  unfold Sys.handOver
  dsimp only
  split <;> rfl

end

/-- What is handed over at a commit point, once the band has its picture: y is the state with it. -/
theorem Sys.commit_tail (y : Sys) (b n lvl doneAt : Nat) {z : Sys} (hz : z = ((y.countLevel lvl doneAt).levelEvents lvl).handOver b n) :
    z.band b = (y.band b).commit n ∧ z.fg.levels = (y.countLevel lvl doneAt).fg.levels := by
  obtain ⟨e, he⟩ := Sys.levelEvents_fg (y.countLevel lvl doneAt) lvl
  have hb : ((y.countLevel lvl doneAt).levelEvents lvl).band b = y.band b := by rw [Sys.band, he]; rfl
  subst hz
  refine ⟨?_, ?_⟩
  · rw [Sys.handOver_band, hb]
  · rw [Sys.handOver_levels, he]
    rfl

/-- The level at which a band is shown at its commit point (R231). -/
def Band.level (k : Band) : Nat := if k.warp = .done then (if k.reproj then 2 else 1) else 3

/-- The picture a band shows from its commit point on: its output slot, else what it has, with the chains that still run cancelled. -/
def Sys.picture (y : Sys) (b lvl : Nat) : Sys :=
  if lvl < 3 then y.modBand b fun k => { k with shown := some k.out }
  else
    let z := if (y.band b).warp = .running then (y.cancelChain b 1).modFg fun f => { f with warpLate := satInc f.warpLate } else y
    if (y.band b).gen = .running then (z.cancelChain b 0).modFg fun f => { f with genLate := satInc f.genLate } else z

theorem Sys.commitBand_eq (y : Sys) (b n : Nat) : y.commitBand b n =
    (((y.picture b (y.band b).level).countLevel (y.band b).level (y.band b).doneAt).levelEvents (y.band b).level).handOver b n := rfl

/-- A band whose WARP chain is done is shown from its output slot (R231). -/
theorem Sys.commitBand_done {y : Sys} {b n lvl : Nat} (hw : (y.band b).warp = .done) (hl : (if (y.band b).reproj then 2 else 1) = lvl) :
    y.commitBand b n = (((y.modBand b fun k => { k with shown := some k.out }).countLevel lvl (y.band b).doneAt).levelEvents lvl).handOver b n := by
  have hlvl : (y.band b).level = lvl := (if_pos hw).trans hl
  have h3 : lvl < 3 := by rw [← hl]; split <;> omega
  rw [Sys.commitBand_eq, hlvl, Sys.picture, if_pos h3]

/-- A band no chain of which is done or runs keeps what it shows (R231). -/
theorem Sys.commitBand_idle {y : Sys} {b n : Nat} (hw : (y.band b).warp = .idle) (hg : (y.band b).gen = .idle) :
    y.commitBand b n = ((y.countLevel 3 (y.band b).doneAt).levelEvents 3).handOver b n := by
  have hlvl : (y.band b).level = 3 := if_neg (by simp [hw])
  have hpic : y.picture b 3 = y := by simp [Sys.picture, hw, hg]
  rw [Sys.commitBand_eq, hlvl, hpic]

end Sys2Proof.Machine

section
open Sys2Proof.Machine

/-- Settles O23: each row is one write of the Beam block, which a TANDEM worker rejects. -/
theorem beamCommands : Obligations.BeamCommands := by
  unfold Obligations.BeamCommands
  refine ⟨fun s => ?_, fun mask s hc => ?_, fun mask s hc hr ha => ?_⟩
  · change execBeamLineRead s = _
    simp only [execBeamLineRead, onSys, Beam.lineWord, put, putb, Nat.pow_zero, Nat.mul_one]
    rfl
  · refine ⟨?_, ?_, ?_⟩
    all_goals
      change onSys (Sys.mirrored _ _ _) s = _
      rw [onSys, Sys.mirrored_plain hc]
      rfl
  · have hw : s.sys.mirrorWorker = true := by simp [Sys.mirrorWorker, hc, hr, ha]
    simp only [List.forall_mem_cons]
    refine ⟨?_, ?_, ?_, by simp⟩
    all_goals
      change onSys (Sys.mirrored _ _ _) s = _
      rw [onSys, Sys.mirrored_worker hw]
      rfl
end

section
open Sys2Proof.Machine

/-- Settles O24: the board's control word, the oldest held fire that may go, and the commit point by the level it shows. -/
theorem frameGeneration : Obligations.FrameGeneration := by
  unfold Obligations.FrameGeneration
  refine ⟨?_, fun s hc => exec_fgClrCounts hc, ?_, fun b n y => ?_⟩
  · intro w s f hc hf
    have hz : ({ s.sys with fg := f } : Sys) = s.sys.fgFields w := by rw [hf]; rfl
    refine ⟨fun hi => ⟨_, exec_fgEnable hc, rfl, rfl, fun hk y hr => Sys.fgEnable_starts hz hi hk hr, fun hk y hr => Sys.fgEnable_badRegions hz hi hk hr,
      fun hk => Sys.fgEnable_badConfig hz hk⟩, fun hi => ?_, ?_⟩
    · rw [exec_fgEnable hc, Sys.fgEnable_busy hz hi]
    · rw [exec_fgDisable hc, hf]
      rfl
  · intro h before after s y cancelling hcan hl hb hh hy
    have he := exec_heldFireRelease hl (fun k hk => (hcan k).1 (hb k hk)) (fun h' => hh ((hcan h).2 h')) hy
    refine ⟨fun hno => he.trans ?_, fun hn t ht => he.trans ?_⟩
    · have hr : s.sys.releasable h = none := by
        unfold Sys.releasable
        split
        next => rfl
        next hn => exact hno.resolve_left hn
      rw [hr]
      rfl
    · have hr : s.sys.releasable h = some t := (if_neg (by simp [hn])).trans ht
      rw [hr]
      rfl
  · refine ⟨fun hw hr => ?_, fun hw hr => ?_, fun hw hg => ?_⟩
    · obtain ⟨hb, hl⟩ := Sys.commit_tail _ b n 1 _ (Sys.commitBand_done (n := n) hw (by rw [hr]; rfl))
      simp only [Fg.levels, Prod.mk.injEq] at hl
      obtain ⟨h1, h2, h3⟩ := hl
      refine ⟨?_, h1, h2, h3⟩
      rw [hb, Sys.band_modBand, Band.commit, hw]
      rfl
    · obtain ⟨hb, hl⟩ := Sys.commit_tail _ b n 2 _ (Sys.commitBand_done (n := n) hw (by rw [hr]; rfl))
      simp only [Fg.levels, Prod.mk.injEq] at hl
      obtain ⟨h1, h2, h3⟩ := hl
      refine ⟨?_, h2, h1, h3⟩
      rw [hb, Sys.band_modBand]
      rfl
    · obtain ⟨hb, hl⟩ := Sys.commit_tail _ b n 3 _ (Sys.commitBand_idle (n := n) hw hg)
      simp only [Fg.levels, Prod.mk.injEq] at hl
      obtain ⟨h1, h2, h3⟩ := hl
      refine ⟨?_, h3, h1, h2⟩
      rw [hb]
      rfl
end
end

section
/-! ## Doorbells and packet fetch (O25) -/

namespace Sys2Proof.Machine

section
variable {q w : Nat} {y : Sys}

/-- A doorbell that may not act (R324). -/
theorem Sys.doorbell_dropped
    (h : y.glob.ready = false ∨ (y.queue q).isOpen = false ∨ y.enabled (q / 4096) = false ∨ y.domOfStall (q / 4096) = none) :
    y.doorbell q w = (y.modLink fun l => { l with dbDropped := satInc l.dbDropped }).linkEvent 6 := by
  unfold Sys.doorbell
  dsimp only
  split
  · rfl
  next hr => exact if_pos (h.resolve_left hr)

section
variable (hr : y.glob.ready = true) (ho : (y.queue q).isOpen = true) (he : y.enabled (q / 4096) = true) (hd : y.domOfStall (q / 4096) ≠ none) (hw : w < 2 ^ 16)
include hr ho he hd hw

theorem Sys.doorbell_range (h : 2 ^ (y.queue q).ringLog2 < (w + 2 ^ 16 - (y.queue q).read) % 2 ^ 16) :
    y.doorbell q w = (y.modLink fun l => { l with dbRange := satInc l.dbRange }).linkEvent 7 := by
  unfold Sys.doorbell
  rw [Nat.mod_eq_of_lt hw, if_neg (by simp [hr]), if_neg (by simp [ho, he, hd, stallOfQueue]), if_pos h]

theorem Sys.doorbell_rings (h : (w + 2 ^ 16 - (y.queue q).read) % 2 ^ 16 ≤ 2 ^ (y.queue q).ringLog2) {z : Sys}
    (hz : z = if w = (y.queue q).write then y else y.modQueue q fun k => { k with write := w, blocked := false }) :
    y.doorbell q w = if z.glob.config = 1 ∧ z.duo.role = 1 ∧ w ≠ (y.queue q).write then z.hsend (.harness "SCHED" [0, q, w] []) else z := by
  unfold Sys.doorbell
  rw [Nat.mod_eq_of_lt hw, if_neg (by simp [hr]), if_neg (by simp [ho, he, hd, stallOfQueue]), if_neg (by omega), hz]

end
end

/-- A TEAM worker tells its manager over a formed Harness, at once or, while it retrains, afterwards (R389). -/
theorem Sys.hsend_team (p : OutPkt) (y : Sys) : (if y.glob.config = 1 ∧ y.duo.role = 1 then y.hsend p else y) =
    if y.glob.config = 1 ∧ y.duo.role = 1 ∧ y.duo.st = 3 then { y with out := p :: y.out }
    else if y.glob.config = 1 ∧ y.duo.role = 1 ∧ y.duo.st = 4 then y.hpost p else y := by
  by_cases h : y.glob.config = 1 ∧ y.duo.role = 1
  · simp only [h, and_self, true_and, if_true]
    rfl
  · rw [if_neg h, if_neg (by tauto), if_neg (by tauto)]

/-- Outside TANDEM a doorbell only rings. -/
theorem exec_doorbell {q w : Nat} {s : State} (hq : q < 2 ^ 18) (hc : s.sys.glob.config ≠ 2) :
    exec (.doorbell q w) s = .next { s with sys := s.sys.stillWake.doorbell q w } := by
  change execDoorbell q w s = _
  have hc' : s.sys.stillWake.glob.config ≠ 2 := by rw [Sys.stillWake_glob]; exact hc
  simp only [execDoorbell, onSys, Nat.mod_eq_of_lt hq, Sys.mirrored_plain hc']

/-- What the read of the ring gives a queue: its next packet, or a fetch fault (R298). -/
def Sys.ringRead (q : Nat) : Sys × Except Nat (List Byte) → Sys
  | (y, .error _) => y.modQueue q fun k => { k with blocked := true }
  | (y, .ok bs) => ((y.modPool 3 0 (Pool.take 1)).modQueue q fun k =>
      { k with slots := k.slots ++ [{ words := (List.range 16).map (wordAt bs) }], read := (k.read + 1) % 2 ^ 16 }).countPacket q
        { words := (List.range 16).map (wordAt bs) } bs

theorem exec_packetFetch {q : Nat} {s : State} (h : s.sys.mayFetch q = true) {k : Queue} (hk : k = s.sys.queue q) {r : Sys × Except Nat (List Byte)}
    (hr : s.sys.vread none k.ctx (k.ringBase + 64 * (k.read % 2 ^ k.ringLog2)) 64 = r) :
    exec (.packetFetch q) s = .next { s with sys := Sys.ringRead q r } := by
  subst hk hr
  change execPacketFetch q s = _
  rw [execPacketFetch, onSys, if_pos h]
  dsimp only
  obtain ⟨y, _ | bs⟩ := s.sys.vread none _ _ _ <;> rfl

end Sys2Proof.Machine

section
open Sys2Proof.Machine

/-- Settles O25: a doorbell by what its queue may do and where its WRITE lies; a fetch by what the read of the ring gives. -/
theorem doorbellsAndFetch : Obligations.DoorbellsAndFetch := by
  unfold Obligations.DoorbellsAndFetch
  refine ⟨?_, ?_⟩
  · rintro q w s y hq hw hc rfl
    refine ⟨fun h => ?_, fun hr ho he hd => ⟨fun h => ?_, fun h => ⟨fun hs => ?_, fun hs => ⟨_, rfl, ?_⟩⟩⟩⟩
    · rw [exec_doorbell hq hc, Sys.doorbell_dropped h]
      rfl
    · rw [exec_doorbell hq hc, Sys.doorbell_range hr ho he hd hw h]
      rfl
    · rw [exec_doorbell hq hc, Sys.doorbell_rings hr ho he hd hw h (if_pos hs).symm, if_neg (by simp [hs])]
    · rw [exec_doorbell hq hc, Sys.doorbell_rings hr ho he hd hw h (if_neg hs).symm]
      simp only [ne_eq, hs, not_false_eq_true, and_true]
      exact congrArg (fun z => Host.Outcome.next { s with sys := z }) (Sys.hsend_team _ _)
  · intro q s k hk hr ho hne hl hb hp hx hf hh
    have hmay : s.sys.mayFetch q = true := by
      subst hk
      simp [Sys.mayFetch, *]
    exact ⟨fun y bs hv p hp => hp ▸ exec_packetFetch hmay hk hv, fun y e hv => exec_packetFetch hmay hk hv⟩
end
end

section
/-! ## CLR_COUNTS (R8, O60) -/

namespace Sys2Proof.Machine

/-- A counter that its block clears counts what falls in the cycle of the clear (R8). -/
theorem cleared_eq (same k : Nat) : cleared same k = if bitAt same k then 1 else 0 := rfl

theorem cleared_none (k : Nat) : cleared 0 k = 0 := by simp [cleared_eq, bitAt]

theorem Sys.girthClear_none (y : Sys) : y.girthClear 0 = { y with girth :=
    { y.girth with steps := 0, droops := 0, stretch := 0, reasonUs := (List.range 8).map fun k => (k, 0), reasonAcc := 0, peak := 0 } } := by
  simp only [Sys.girthClear, cleared_none]
  rfl

theorem Sys.memClear_none (y : Sys) : y.memClear 0 = { y with mem := { y.mem with
    linkCorr := 0, inlineCorr := 0, uncorr := 0, loftCorr := 0, hits := (List.range 8).map fun d => (d, 0), misses := (List.range 8).map fun d => (d, 0) } } := by
  simp only [Sys.memClear, cleared_none]
  rfl

/-- A stall's row acts on an enabled stall, and is rejected on another. -/
theorem onSys_ifEnabled {k : Nat} (hk : k < 64) (f : Nat → Sys → Sys) (s : State) : onSys (Sys.ifEnabled (k % 64) (f (k % 64))) s =
    if s.sys.enabled k = true then .next { s with sys := f k s.sys } else .next s.rejected := by
  rw [Nat.mod_eq_of_lt hk, onSys, Sys.ifEnabled]
  split <;> rfl

end Sys2Proof.Machine

section
open Sys2Proof.Machine

/-- Settles O60: each row is its block's clear with no event in its cycle; the clear itself counts those that fall in it. -/
theorem clearedCounters : Obligations.ClearedCounters := by
  unfold Obligations.ClearedCounters
  refine ⟨?_, ?_, ?_, ?_, ?_⟩
  · rintro k s hk t rfl
    have hclr : exec (.stallClrCounts k) s = _ := onSys_ifEnabled hk (fun n => Sys.stallClear n 0) s
    have hq : exec (.stallQclrCounts k) s = _ := onSys_ifEnabled hk (fun n => Sys.stallQclear n 0) s
    exact ⟨fun he => ⟨hclr.trans (if_pos he), hq.trans (if_pos he)⟩,
      fun he => ⟨hclr.trans (if_neg (by simp [he])), hq.trans (if_neg (by simp [he]))⟩⟩
  · intro k s hk
    change onSys (Sys.pipeClear (k % 2) 0) s = _
    rw [Nat.mod_eq_of_lt hk]
    rfl
  · rintro s y rfl
    refine ⟨rfl, fun hc => ?_, rfl, rfl, rfl, ?_, rfl, rfl, ?_, rfl, rfl⟩
    · change onSys (Sys.mirrored _ _ _) s = _
      rw [onSys, Sys.mirrored_plain hc]
      rfl
    · change onSys (Sys.girthClear 0) s = _
      rw [onSys, Sys.girthClear_none]
    · change onSys (Sys.memClear 0) s = _
      rw [onSys, Sys.memClear_none]
  · intro same n y hn
    have hn' : n = cleared same := funext hn
    subst hn'
    exact ⟨fun k => rfl, rfl, rfl, rfl, rfl⟩
  · rintro m same s y hm hup hstill rfl
    exact ⟨exec_registerWrite_kept hm hup hstill (by decide) rfl (by decide) (.inl rfl) rfl rfl,
      exec_registerWrite_kept hm hup hstill (by decide) rfl (by decide) (.inl rfl) rfl rfl⟩
end
end

section
/-! ## Girth: decisions and steps of the operating point (O56) -/

namespace Sys2Proof.Machine

/-- The least by a score is one of the list. -/
theorem minBy_mem {α : Type} (f : α → Nat) {l : List α} {a : α} (h : minBy f l = some a) : a ∈ l := by
  induction l with
  | nil => simp [minBy] at h
  | cons b t ih =>
    unfold minBy at h
    cases ht : minBy f t with
    | none => simp_all
    | some c =>
      rw [ht] at h
      dsimp only at h
      split at h
      · exact List.mem_cons_of_mem _ (ih (ht.trans h))
      · simp_all

/-! ### What the governor aims at (R367) -/

@[simp] theorem Sys.settleLimit_target (y : Sys) : y.settleLimit.girth.target = y.girth.target := by
  unfold Sys.settleLimit
  dsimp only
  split <;> rfl

@[simp] theorem Sys.newLimit_target (y : Sys) : y.newLimit.girth.target = y.girth.target := Sys.settleLimit_target _
@[simp] theorem Sys.reprice_target (n : Nat) (y : Sys) : (y.reprice n).girth.target = y.girth.target := Sys.newLimit_target _
@[simp] theorem Sys.avsWrite_target (mv : Nat) (y : Sys) : (y.avsWrite mv).girth.target = y.girth.target := rfl
@[simp] theorem Sys.stepEnd_target (done : Bool) (y : Sys) : (y.stepEnd done).girth.target = y.girth.target := rfl

@[simp] theorem Sys.startStep_target (n : Nat) (y : Sys) : (y.startStep n).girth.target = y.girth.target := by
  unfold Sys.startStep
  dsimp only
  split
  · split <;> simp
  · split
    · split <;> simp
    · rfl

section
variable {y : Sys}

theorem Sys.govern_none (h : y.glob.ready = false ∨ y.girth.state ≠ 0 ∨ y.girth.moving = 1) : y.govern = y := by
  unfold Sys.govern
  exact if_pos h

/-- A score of the governor: the work of a point, the slower point of equals (R367). -/
def Sys.opScore (y : Sys) (n : Nat) : Nat := (2 ^ 48 - opKHz.getD n 0 * y.slots n y.demand) * 8 + (7 - n)

/-- Without throttling the target is the best candidate (R367, R374). -/
theorem Sys.govern_target (hr : y.glob.ready = true) (hs : y.girth.state = 0) (hm : y.girth.moving ≠ 1) (ht : y.girth.throttle = false) :
    y.govern.girth.target = (minBy y.opScore y.opCands.1).getD y.girth.op := by
  unfold Sys.govern
  rw [if_neg (by simp [hr, hs, hm])]
  rcases hc : y.opCands with ⟨cs, ceil⟩
  extract_lets items score floored
  dsimp -zeta only
  extract_lets best target hint slow decided told
  have hbest : target = (minBy y.opScore cs).getD y.girth.op := if_neg (by simp [ht])
  have htold : told.girth.target = target := by
    simp only [told]
    split <;> simp [decided]
  rw [← hbest]
  split <;> simp [htold]

theorem Sys.opCands_fixed (h : y.girth.fixed = true) : y.opCands = ([y.girth.fixedOp], 0) := by
  unfold Sys.opCands
  exact if_pos h

end

/-! ### Steps -/

/-- The regulators have answered (R380). -/
def Sys.avsAnswered (y : Sys) : Sys := y.modGirth fun g => { g with avsFail := false, avsTries := 0 }

/-- What a settled voltage does to the step that asked for it (R370, R373). -/
def Sys.settled (z : Sys) : Sys :=
  match z.girth.step with
  | .voltageUp => ((z.modGirth fun g => { g with op := g.stepTo }).newLimit).stepEnd true
  | .voltageDown => (z.reprice z.girth.op).stepEnd true
  | .forced => (z.reprice 6).stepEnd false
  | .frozenUp => z.modGirth fun g => { g with rampDone := true }
  | _ => z

theorem exec_voltageSettled (s : State) : exec .voltageSettled s = .next { s with sys := s.sys.avsAnswered.settled } := rfl

/-- The third failure of a transaction (R381). -/
def Sys.avsFailed (y : Sys) : Sys := (y.modGirth fun g => { g with avsTries := 0, avsFail := true }).girthEvent 6

/-- What a failed transaction does to the step that asked for it (R381). -/
def Sys.stepFails (z : Sys) : Sys :=
  match z.girth.step with
  | .voltageUp => (z.reprice z.girth.op).stepEnd false
  | .frozenUp => (z.reprice z.girth.op).stepEnd false
  | .voltageDown => (z.reprice z.girth.op).stepEnd true
  | .frozenDown => (z.reprice z.girth.op).stepEnd true
  | .forced => (z.reprice 6).stepEnd false
  | .idle => z

/-- Two retries, then the failure (R380). -/
def Sys.avsTimedOut (y : Sys) : Sys :=
  if y.girth.avsTries < 2 then y.modGirth fun g => { g with avsTries := g.avsTries + 1 } else y.avsFailed.stepFails

theorem exec_avsTimeout (s : State) : exec .avsTimeout s = .next { s with sys := s.sys.avsTimedOut } := rfl

/-- A detector trips (R371). -/
def Sys.tripped (n : Nat) (y : Sys) : Sys :=
  y.modGirth fun g => { g with droopNow := setBit g.droopNow n, droops := satInc g.droops, stretched := true, disturbed := true }

theorem exec_droopTrip {n : Nat} (hn : n < 72) (s : State) : exec (.droopTrip n) s = .next { s with sys := (s.sys.tripped n).freeze } := by
  change execDroopTrip n s = _
  rw [execDroopTrip, Nat.mod_eq_of_lt hn]
  rfl

theorem Sys.freeze_other {z : Sys} (hu : z.girth.step ≠ .voltageUp) (hd : z.girth.step ≠ .voltageDown) : z.freeze = z := by
  unfold Sys.freeze
  split <;> simp_all

/-- A frozen step whose disturbance is over goes on, or ends at its slower end point (R372). -/
def Sys.resumed (y : Sys) : Sys :=
  match y.girth.step with
  | .frozenUp =>
    if y.girth.target ≠ y.girth.stepTo then ((y.reprice y.girth.op).stepEnd false).startStep y.girth.target
    else if y.girth.rampDone then ((y.modGirth fun g => { g with op := g.stepTo }).newLimit).stepEnd true
    else y.modGirth fun g => { g with step := .voltageUp }
  | .frozenDown =>
    if y.girth.target ≠ y.girth.stepTo then ((y.reprice y.girth.op).stepEnd false).startStep y.girth.target
    else (y.modGirth fun g => { g with step := .voltageDown }).avsWrite (opMv.getD y.girth.stepTo 620)
  | _ => y

theorem exec_stepResume (s : State) : exec .stepResume s = .next { s with sys :=
    if s.sys.girth.droopNow ≠ 0 ∨ s.sys.girth.stretched = true then s.sys else s.sys.resumed } := rfl

section
variable {y : Sys}

theorem Sys.resumed_other (hu : y.girth.step ≠ .frozenUp) (hd : y.girth.step ≠ .frozenDown) : y.resumed = y := by
  unfold Sys.resumed
  split <;> simp_all

theorem Sys.resumed_retarget (h : y.girth.step = .frozenUp ∨ y.girth.step = .frozenDown) (ht : y.girth.target ≠ y.girth.stepTo) :
    y.resumed = ((y.reprice y.girth.op).stepEnd false).startStep y.girth.target := by
  unfold Sys.resumed
  rcases h with h | h <;> rw [h] <;> exact if_pos ht

variable (ht : y.girth.target = y.girth.stepTo)
include ht

theorem Sys.resumed_up (h : y.girth.step = .frozenUp) (hr : y.girth.rampDone = false) : y.resumed = y.modGirth fun g => { g with step := .voltageUp } := by
  unfold Sys.resumed
  rw [h]
  dsimp only
  rw [if_neg (by simp [ht]), if_neg (by simp [hr])]

theorem Sys.resumed_done (h : y.girth.step = .frozenUp) (hr : y.girth.rampDone = true) :
    y.resumed = ((y.modGirth fun g => { g with op := g.stepTo }).newLimit).stepEnd true := by
  unfold Sys.resumed
  rw [h]
  dsimp only
  rw [if_neg (by simp [ht]), if_pos hr]

theorem Sys.resumed_down (h : y.girth.step = .frozenDown) :
    y.resumed = (y.modGirth fun g => { g with step := .voltageDown }).avsWrite (opMv.getD y.girth.stepTo 620) := by
  unfold Sys.resumed
  rw [h]
  dsimp only
  rw [if_neg (by simp [ht])]

end

end Sys2Proof.Machine

section
open Sys2Proof.Machine

/-- Settles O56: the governor's target, and each row by the phase of the step it finds. -/
theorem girthSteps : Obligations.GirthSteps := by
  unfold Obligations.GirthSteps
  refine ⟨fun s => rfl, fun y => ⟨Sys.govern_none, fun hr hs hm ht => ⟨fun hf => ?_, fun _ => ?_⟩⟩, ?_, ?_, ?_, ?_, ?_⟩
  · rw [Sys.govern_target hr hs hm ht, Sys.opCands_fixed hf]
    rfl
  · rw [Sys.govern_target hr hs hm ht]
    cases h : minBy y.opScore y.opCands.1 with
    | none => exact .inl rfl
    | some n => exact .inr (minBy_mem _ h)
  · intro s z hz
    have hz' : z = s.sys.avsAnswered := hz
    have step : z.girth.step = s.sys.girth.step := by rw [hz]
    rw [exec_voltageSettled, ← hz', ← step]
    exact ⟨fun h => by rw [Sys.settled, h]; rfl, fun h => by rw [Sys.settled, h], fun h => by rw [Sys.settled, h], fun h => by rw [Sys.settled, h]; rfl,
      fun h => by rcases h with h | h <;> rw [Sys.settled, h]⟩
  · intro s z
    rw [exec_avsTimeout]
    refine ⟨fun h => ?_, fun h hz => ?_⟩
    · rw [Sys.avsTimedOut, if_pos h]
      rfl
    · have hz' : z = s.sys.avsFailed := hz
      have step : z.girth.step = s.sys.girth.step := by rw [hz]; simp
      have op : z.girth.op = s.sys.girth.op := by rw [hz]; simp
      rw [Sys.avsTimedOut, if_neg (by omega), ← hz', ← step, ← op]
      exact ⟨fun h => by rw [Sys.stepFails, h], fun h => by rcases h with h | h <;> rw [Sys.stepFails, h],
        fun h => by rcases h with h | h <;> rw [Sys.stepFails, h], fun h => by rw [Sys.stepFails, h]⟩
  · intro n e s z hn hz
    have hz' : z = s.sys.tripped n := hz
    have step : z.girth.step = s.sys.girth.step := by rw [hz]
    have price : z.girth.priceOp = s.sys.girth.priceOp := by rw [hz]
    have clear : exec (.droopClear e) s = .next { s with sys := s.sys.modGirth fun g =>
        if g.stretched then { g with droopNow := 0, stretched := false, stretch := satAdd g.stretch e } else g } := rfl
    rw [exec_droopTrip hn, ← hz', ← step, ← price]
    refine ⟨fun h => by rw [Sys.freeze, h]; rfl, fun h => by rw [Sys.freeze, h]; rfl, fun hu hd => by rw [Sys.freeze_other hu hd], fun h => ?_, fun h => ?_⟩
    · simp only [clear, Sys.modGirth, h, if_true]
    · simp only [clear, Sys.modGirth, h, Bool.false_eq_true, if_false]
  · intro s
    rw [exec_stepResume]
    refine ⟨fun h => by rw [if_pos h], fun hd hs => ?_⟩
    rw [if_neg (by simp [hd, hs])]
    exact ⟨fun h1 h2 => by rw [Sys.resumed_other h1 h2], fun h ht => by rw [Sys.resumed_retarget h ht],
      fun ht => ⟨fun h hr => by rw [Sys.resumed_up ht h hr]; rfl, fun h hr => by rw [Sys.resumed_done ht h hr]; rfl, fun h => by rw [Sys.resumed_down ht h]; rfl⟩⟩
  · intro s y
    refine ⟨fun hy => ?_, rfl, fun hh hl => ?_, fun h => ?_⟩
    · rw [hy]
      rfl
    · change execSquallHoldExpire s = _
      rw [execSquallHoldExpire, onSys, if_pos (by simp [hh, hl])]
      rfl
    · change execSquallHoldExpire s = _
      rw [execSquallHoldExpire, onSys, if_neg (by rcases h with h | h <;> simp [h])]
end
end

section
/-! ## The memory system's upkeep and fault detection (O55) -/

namespace Sys2Proof.Machine

/-! ### Channels (R344 to R346) -/

section
variable {c : Nat} {s : State} {k : Chan} (hc : c < 16) (hk : k = s.sys.chan c)
include hc hk

theorem exec_refreshInterval (w : Bool) : exec (.refreshInterval c w) s = .next { s with sys :=
    (if k.st ≠ 2 then s.sys else s.sys.modChan c fun k => { k with debt := if w = true ∧ k.debt < 8 then k.debt + 1 else 0 }) } := by
  change execRefreshInterval c w s = _
  rw [execRefreshInterval, onSys, Nat.mod_eq_of_lt hc, hk]

theorem exec_wckDriftSample (b : Bool) : exec (.wckDriftSample c b) s = .next { s with sys :=
    (if k.st = 2 ∧ b = true then s.sys.modChan c fun k => { k with retrains := k.retrains + 1 } else s.sys) } := by
  change execWckDriftSample c b s = _
  rw [execWckDriftSample, onSys, Nat.mod_eq_of_lt hc, hk]

theorem exec_selfRefreshEntry : exec (.selfRefreshEntry c) s = .next { s with sys :=
    (if k.st = 2 ∧ s.sys.mem.srIdle ≠ 0 ∧ (s.sys.mem.chanDom c).isSome = true then s.sys.modChan c fun k => { k with st := 3, debt := 0 } else s.sys) } := by
  change execSelfRefreshEntry c s = _
  rw [execSelfRefreshEntry, onSys, Nat.mod_eq_of_lt hc, hk]

theorem exec_selfRefreshExit : exec (.selfRefreshExit c) s = .next { s with sys :=
    (if k.st = 3 ∧ (s.sys.mem.chanDom c).isSome = true ∧ s.sys.girth.state ≠ 2 then s.sys.modChan c fun k => { k with st := 2 } else s.sys) } := by
  change execSelfRefreshExit c s = _
  rw [execSelfRefreshExit, onSys, Nat.mod_eq_of_lt hc, hk]

theorem exec_mr4Poll_inactive (h : k.st ≠ 2) (rate : Nat) (b : Bool) : exec (.mr4Poll c rate b) s = .next s := by
  subst hk
  change execMr4Poll c rate b s = _
  rw [execMr4Poll, onSys]
  dsimp only
  rw [Nat.mod_eq_of_lt hc, if_pos h]

theorem exec_mr4Poll_active (h : k.st = 2) {rate : Nat} (hr : rate < 32) (b : Bool) {y : Sys}
    (hy : y = (s.sys.modChan c fun k => { k with mr4 := rate, hot := b }).modMem fun m => { m with hot := m.chans.any fun k => k.2.hot }) :
    exec (.mr4Poll c rate b) s = .next { s with sys :=
      (if b then (y.modGirth fun g => { g with memLevel := max 4 g.memLevel }).memEvent 1 else y) } := by
  subst hk
  change execMr4Poll c rate b s = _
  rw [execMr4Poll, onSys]
  dsimp only
  rw [Nat.mod_eq_of_lt hc, Nat.mod_eq_of_lt hr, if_neg (by simp [h]), hy]

end

/-! ### Patrol scrub (R349) -/

section
variable {b f : Nat} {s : State}

theorem exec_patrolScrub_off (h : s.sys.mem.inlineEcc = false ∨ s.sys.mem.scrub = 0 ∨ s.sys.mem.memEnd < 64 * b + 64) : exec (.patrolScrub b f) s = .next s := by
  change execPatrolScrub b f s = _
  rw [execPatrolScrub, onSys, if_pos h]

/-- What is found in a block that has not failed before. -/
theorem exec_patrolScrub (he : s.sys.mem.inlineEcc = true) (hs : s.sys.mem.scrub ≠ 0) (hb : 64 * b + 64 ≤ s.sys.mem.memEnd)
    (hbad : s.sys.mem.bad.contains b = false) : exec (.patrolScrub b f) s = .next { s with sys :=
      (if f = 2 then ((s.sys.modMem fun m => { m with bad := b :: m.bad }).uncorrectable b).logFault { cls := 3, action := 2, status := 0, block := 1, addr := 64 * b }
      else if f = 1 then (s.sys.modMem fun m => { m with inlineCorr := satInc m.inlineCorr }).modFlt fun f => { f with corrected := satInc f.corrected }
      else s.sys) } := by
  change execPatrolScrub b f s = _
  rw [execPatrolScrub, onSys, if_neg (by simp [he, hs, hb])]
  by_cases hf : f = 2
  · simp only [hf, hbad, and_self, if_true, Sys.modMem_mem]
    simp
  · simp only [hf, hbad, false_and, if_false, Bool.false_eq_true]

end

/-! ### LOFT_CMD (R354) -/

section
variable {d : Nat}

theorem bitAt_loftCmd (d : Nat) : bitAt (d % 8 + 2 ^ 4) 4 = true ∧ bitAt (d % 8 + 2 ^ 4) 3 = false ∧ bitAt (d % 8 + 2 ^ 3 + 2 ^ 4) 4 = true ∧
    bitAt (d % 8 + 2 ^ 3 + 2 ^ 4) 3 = true := by
  simp only [bitAt, beq_iff_eq, beq_eq_false_iff_ne, ne_eq]
  omega

variable (hd : d < 8)
include hd

theorem fld_loftCmd : fld (d % 8 + 2 ^ 4) 0 3 = d ∧ fld (d % 8 + 2 ^ 3 + 2 ^ 4) 0 3 = d := by
  unfold fld
  omega

theorem exec_loftWriteBack (s : State) : exec (.loftWriteBack d) s = .next { s with sys := (if bitAt s.sys.mem.loftBusy d then s.sys.reject
    else s.sys.modMem fun m => { m with loftBusy := setBit m.loftBusy d, loftInval := clrBit m.loftInval d }) } := by
  obtain ⟨h4, h3, -, -⟩ := bitAt_loftCmd d
  change onSys (Sys.loftCmd (d % 8 + 2 ^ 4)) s = _
  simp only [onSys, Sys.loftCmd, (fld_loftCmd hd).1, h4, h3, Bool.not_true, Bool.false_eq_true, if_false]

theorem exec_loftWriteBackInvalidate (s : State) : exec (.loftWriteBackInvalidate d) s = .next { s with sys :=
    (if bitAt s.sys.mem.loftBusy d then s.sys.reject
    else s.sys.modMem fun m => { m with loftBusy := setBit m.loftBusy d, loftInval := setBit m.loftInval d }) } := by
  obtain ⟨-, -, h4, h3⟩ := bitAt_loftCmd d
  change onSys (Sys.loftCmd (d % 8 + 2 ^ 3 + 2 ^ 4)) s = _
  simp only [onSys, Sys.loftCmd, (fld_loftCmd hd).2, h4, h3, Bool.not_true, Bool.false_eq_true, if_false, if_true]

theorem exec_loftCmdDone (s : State) : exec (.loftCmdDone d) s = .next { s with sys := (if bitAt s.sys.mem.loftBusy d then
    (s.sys.modMem fun m => { m.cleanDom d (bitAt m.loftInval d) with loftBusy := clrBit m.loftBusy d, loftInval := clrBit m.loftInval d }).memEvent 4
    else s.sys) } := by
  change execLoftCmdDone d s = _
  rw [execLoftCmdDone, onSys, Nat.mod_eq_of_lt hd]

end

/-! ### The log (R405) -/

/-- An entry of a log that is not full yet. -/
theorem Sys.logFault_room (e : LogE) {y : Sys} (h : y.flt.logCount < 512) : y.logFault e =
    Sys.fltEvent 0 { y with flt := { y.flt with log := tset y.flt.log y.flt.logCount (e.words y.glob.refCycles), logCount := y.flt.logCount + 1 } } := by
  have hinc : satInc y.flt.logCount = y.flt.logCount + 1 := by simp only [satInc, cntMax]; omega
  unfold Sys.logFault
  rw [if_neg (by omega), Nat.mod_eq_of_lt h, Sys.modFlt, hinc]

/-! ### FAULT_DETECT by site (R400) -/

section
variable (a b : Nat) (p : Bool) (s : State)

/-- What a failing row of the raster engine is logged as. -/
def rasterError : LogE := { cls := 5, action := 4, status := 0x30, block := 3 }

theorem exec_faultDetect_core : exec (.faultDetect 1 a b p) s = .next { s with sys :=
    (if s.sys.enabled (a % 4096 / 64) = true then s.sys.coreFault (a % 4096) p else s.sys) } := rfl

theorem exec_faultDetect_stall : exec (.faultDetect 2 a b p) s = .next { s with sys :=
    (if s.sys.enabled (a % 64) = true then s.sys.stallFault (a % 64) else s.sys) } := rfl

theorem exec_faultDetect_granule : exec (.faultDetect 3 a b p) s = .next { s with sys :=
    (if s.sys.enabled (a % 4096 / 64) = true ∧ b < 0x100000 then s.sys.granuleFaultAt (a % 4096) b else s.sys) } := rfl

theorem exec_faultDetect_block : exec (.faultDetect 4 a b p) s = .next { s with sys := s.sys.blockFaultAt a (b % 4096) } := rfl

theorem exec_faultDetect_raster : exec (.faultDetect 6 a b p) s = .next { s with sys :=
    (s.sys.raster.active.elim (s.sys.logFault rasterError) fun q => (s.sys.logFault rasterError).passStop q true 0x30) } := by
  have hr : (s.sys.logFault rasterError).raster = s.sys.raster := (Sys.logFault_accessed _ _).raster
  rw [← hr]
  change Host.Outcome.next { s with sys :=
    (match (s.sys.logFault rasterError).raster.active with
    | some p => (s.sys.logFault rasterError).passStop p true 0x30
    | none => s.sys.logFault rasterError) } = _
  cases (s.sys.logFault rasterError).raster.active <;> rfl

theorem exec_faultDetect_vision (hn : s.sys.onEngine (a % 6) = none) :
    exec (.faultDetect 7 a b p) s = .next { s with sys := s.sys.logFault { cls := 5, action := 7, status := 0, block := 4 } } := by
  change execFaultDetect 7 a b p s = _
  rw [execFaultDetect, onSys]
  dsimp only
  rw [hn]
  rfl

theorem exec_faultDetect_pipe : exec (.faultDetect 8 a b p) s = .next { s with sys :=
    ((s.sys.logFault { cls := 5, action := 2, status := 0, block := 5 + a % 2 }).modPipe (a % 2) fun q =>
      { q with underPx := satInc q.underPx, underLines := satInc q.underLines }).pipeEvent (a % 2) 0 } := rfl

theorem exec_faultDetect_control : exec (.faultDetect 10 a b p) s = .next { s with sys :=
    (s.sys.logFault { cls := 8, action := 6, status := 0x30, block := a % 14 }).enterDieCalm 0x08 0x30 } := rfl

end

end Sys2Proof.Machine

section
open Sys2Proof.Machine

/-- Settles O55: the rows of a channel, the scrub and LOFT_CMD by their conditions, FAULT_DETECT site by site. -/
theorem memoryAndFaultRows : Obligations.MemoryAndFaultRows := by
  unfold Obligations.MemoryAndFaultRows
  refine ⟨?_, ?_, ?_, ?_, fun s l hl => by rw [hl]; rfl, fun e y h => ⟨_, rfl, Sys.logFault_room e h⟩⟩
  · intro c rate w b s k hc hr hk
    simp only [exec_refreshInterval hc hk, exec_wckDriftSample hc hk, exec_selfRefreshEntry hc hk, exec_selfRefreshExit hc hk]
    refine ⟨fun h => ⟨?_, exec_mr4Poll_inactive hc hk h rate b, ?_, ?_⟩, ?_, fun h hd hg => ?_⟩
    · rw [if_pos h]
    · rw [if_neg (by simp [h])]
    · rw [if_neg (by simp [h])]
    · rintro h put rfl
      have hd : s.sys.mem.chanDom c ≠ none ↔ (s.sys.mem.chanDom c).isSome = true := Option.ne_none_iff_isSome
      refine ⟨?_, ?_, ?_, ?_, ?_, ?_, ?_⟩
      · rw [if_neg (by simp [h]), hk]
        rfl
      · rw [if_pos ⟨h, trivial⟩, hk]
        rfl
      · rw [if_neg (by simp)]
      · rintro y rfl
        refine ⟨_, rfl, (exec_mr4Poll_active hc hk h hr b rfl).trans ?_⟩
        rw [hk]
        rfl
      · intro hi hn
        rw [if_pos ⟨h, hi, hd.1 hn⟩, hk]
        rfl
      · intro hno
        rw [if_neg (by rcases hno with hno | hno <;> simp [hno])]
      · rw [if_neg (by simp [h])]
    · rw [if_pos ⟨h, Option.ne_none_iff_isSome.1 hd, hg⟩, hk]
      rfl
  · intro b f s
    refine ⟨exec_patrolScrub_off, fun he hs hb hbad => ?_⟩
    rw [exec_patrolScrub he hs hb hbad, exec_patrolScrub he hs hb hbad, exec_patrolScrub he hs hb hbad]
    exact ⟨rfl, rfl, rfl⟩
  · intro d s hd
    rw [exec_loftWriteBack hd, exec_loftWriteBackInvalidate hd, exec_loftCmdDone hd]
    refine ⟨fun h => ?_, fun h => ?_⟩
    · simp only [h, if_true]
      exact ⟨rfl, rfl, _, rfl, rfl⟩
    · simp only [h, Bool.false_eq_true, if_false]
      exact ⟨trivial, rfl, rfl⟩
  · intro a b p s
    refine ⟨_, rfl, rfl, rfl, rfl, rfl, fun ha he => ⟨?_, fun hb => ?_⟩, fun ha he => ?_, fun hb => ?_, rfl, fun hn => ?_, fun q hq => ?_, fun ha hn => ?_,
      fun ha => ?_, fun ha => ?_⟩
    · rw [exec_faultDetect_core, Nat.mod_eq_of_lt ha, if_pos he]
    · rw [exec_faultDetect_granule, Nat.mod_eq_of_lt ha, if_pos ⟨he, hb⟩]
    · rw [exec_faultDetect_stall, Nat.mod_eq_of_lt ha, if_pos he]
    · rw [exec_faultDetect_block, Nat.mod_eq_of_lt hb]
    · rw [exec_faultDetect_raster, hn]
      rfl
    · rw [exec_faultDetect_raster, hq]
      rfl
    · rw [exec_faultDetect_vision _ _ _ _ (by rwa [Nat.mod_eq_of_lt ha])]
    · rw [exec_faultDetect_pipe, Nat.mod_eq_of_lt ha]
      rfl
    · rw [exec_faultDetect_control, Nat.mod_eq_of_lt ha]
end
end

section
/-! ## The AUX channel (R264, O53) -/

namespace Sys2Proof.Machine

/-- Changes that agree on the pipe's state are the same. -/
theorem Sys.modPipe_congr {n : Nat} {y : Sys} {f g : Pipe → Pipe} (h : f (y.pipe n) = g (y.pipe n)) : y.modPipe n f = y.modPipe n g := by
  unfold Sys.modPipe
  unfold Sys.pipe at h
  split <;> simp_all [Sys.modPipe0, Sys.modPipe1]

theorem Sys.auxGo_busy {n : Nat} {y : Sys} (h : (y.pipe n).auxSt = 1) (w : Nat) : y.auxGo n w = y.reject := by
  rw [Sys.auxGo, if_pos h]

section
variable {addr len cmd : Nat} (ha : addr < 2 ^ 20) (hl : len < 16) (hk : cmd < 4)
include ha hl hk

/-- The words of AUX_CMD fit its fields. -/
theorem auxWord_eq : auxWord addr len cmd % 2 ^ 26 = addr + 2 ^ 20 * len + 2 ^ 24 * cmd := by
  unfold auxWord put
  omega

theorem auxWord_fields : fld (addr + 2 ^ 20 * len + 2 ^ 24 * cmd) 24 2 = cmd ∧ fld (addr + 2 ^ 20 * len + 2 ^ 24 * cmd) 0 20 = addr ∧
    fld (addr + 2 ^ 20 * len + 2 ^ 24 * cmd) 20 4 = len := by
  unfold fld
  omega

variable {n : Nat} {y : Sys}

/-- While the pipe's own transaction has the channel the driver's waits. -/
theorem Sys.auxGo_waits (h : (y.pipe n).auxSt ≠ 1) (ho : (y.pipe n).auxOwn = true) : y.auxGo n (auxWord addr len cmd) =
    y.modPipe n fun p => { p with auxCmd := addr + 2 ^ 20 * len + 2 ^ 24 * cmd, auxSt := 1, auxReply := 3 } := by
  rw [Sys.auxGo, if_neg h, auxWord_eq ha hl hk, Sys.driverSend, Sys.pipe_modPipe_same, if_pos ho]
  exact Sys.modPipe_congr (by simp [ho])

theorem Sys.auxGo_sends (h : (y.pipe n).auxSt ≠ 1) (ho : (y.pipe n).auxOwn = false) : y.auxGo n (auxWord addr len cmd) =
    (y.modPipe n fun p => { p with auxCmd := addr + 2 ^ 20 * len + 2 ^ 24 * cmd, auxSt := 1, auxReply := 3, auxTries := 0, auxDefer := false }).emit
      (.aux n cmd addr (len + 1) (if cmd % 2 = 0 then (wordsBytes (y.pipe n).auxData).take (len + 1) else [])) := by
  obtain ⟨hc, ha', hl'⟩ := auxWord_fields ha hl hk
  have hm : (y.modPipe n fun p => { p with
      auxCmd := auxWord addr len cmd % 2 ^ 26, auxSt := 1, auxReply := 3, auxTries := if p.auxOwn then p.auxTries else 0, auxDefer := p.auxDefer && p.auxOwn }) =
      y.modPipe n fun p => { p with auxCmd := addr + 2 ^ 20 * len + 2 ^ 24 * cmd, auxSt := 1, auxReply := 3, auxTries := 0, auxDefer := false } :=
    Sys.modPipe_congr (by rw [auxWord_eq ha hl hk]; simp [ho])
  rw [Sys.auxGo, if_neg h, hm, Sys.driverSend, Sys.pipe_modPipe_same, if_neg (by simp [ho])]
  simp only [Sys.auxSend, Pipe.auxBytes, Sys.pipe_modPipe_same, hc, ha', hl']

end

section
variable {n : Nat} {s : State}

theorem onSys_auxGo_busy {w : Nat} (hn : n < 2) (h : (s.sys.pipe n).auxSt = 1) : onSys (Sys.auxGo (n % 2) w) s = .next s.rejected := by
  rw [onSys, Nat.mod_eq_of_lt hn, Sys.auxGo_busy h]
  rfl

variable {addr len cmd : Nat} (ha : addr < 2 ^ 20) (hl : len < 16) (hk : cmd < 4) (hn : n < 2)
include ha hl hk hn

theorem onSys_auxGo_waits (h : (s.sys.pipe n).auxSt ≠ 1) (ho : (s.sys.pipe n).auxOwn = true) : onSys (Sys.auxGo (n % 2) (auxWord addr len cmd)) s =
    .next { s with sys := (s.sys.modPipe n fun p => { p with auxCmd := addr + 2 ^ 20 * len + 2 ^ 24 * cmd, auxSt := 1, auxReply := 3 }) } := by
  rw [onSys, Nat.mod_eq_of_lt hn, Sys.auxGo_waits ha hl hk h ho]

theorem onSys_auxGo_sends (h : (s.sys.pipe n).auxSt ≠ 1) (ho : (s.sys.pipe n).auxOwn = false) : onSys (Sys.auxGo (n % 2) (auxWord addr len cmd)) s =
    .next { s with sys := ((s.sys.modPipe n fun p =>
      { p with auxCmd := addr + 2 ^ 20 * len + 2 ^ 24 * cmd, auxSt := 1, auxReply := 3, auxTries := 0, auxDefer := false }).emit
      (.aux n cmd addr (len + 1) (if cmd % 2 = 0 then (wordsBytes (s.sys.pipe n).auxData).take (len + 1) else []))) } := by
  rw [onSys, Nat.mod_eq_of_lt hn, Sys.auxGo_sends ha hl hk h ho]

end

/-! ### Replies -/

/-- A reply on the channel (R264). -/
def Sys.auxReplied (n code : Nat) (data : List Byte) (y : Sys) : Sys :=
  let p := y.pipe n
  if (p.auxOwn = false ∧ p.auxSt ≠ 1) ∨ p.auxDefer = true then y
  else if 2 ≤ code % 4 ∧ p.auxTries < 7 then y.modPipe n fun p => { p with auxDefer := true }
  else if p.auxOwn then y.ownDone n
  else match code % 4 with
    | 0 => (if fld p.auxCmd 24 1 = 1 then y.modPipe n fun p => { p with auxData := auxStore p.auxData (fld p.auxCmd 20 4 + 1) data } else y).auxEnd n 2 0
    | 1 => y.auxEnd n 3 1
    | _ => y.auxEnd n 3 2

/-- The reply to a transaction does not come (R264). -/
def Sys.auxTimedOut (n : Nat) (y : Sys) : Sys :=
  if (y.pipe n).auxDefer then y else if (y.pipe n).auxOwn then y.ownDone n else if (y.pipe n).auxSt = 1 then y.auxEnd n 3 3 else y

/-- A deferred transaction is sent again (R264). -/
def Sys.auxRetried (n : Nat) (y : Sys) : Sys :=
  if ((y.pipe n).auxOwn = true ∨ (y.pipe n).auxSt = 1) ∧ (y.pipe n).auxDefer = true then
    let z := y.modPipe n fun p => { p with auxDefer := false, auxTries := p.auxTries + 1 }
    if (y.pipe n).auxOwn then z.capabilityRead n else z.auxSend n
  else y

section
variable {n : Nat} (hn : n < 2) (s : State)
include hn

theorem exec_auxReply (code : Nat) (data : List Byte) : exec (.auxReply n code data) s = .next { s with sys := s.sys.auxReplied n code data } := by
  change execAuxReply n code data s = _
  rw [execAuxReply, onSys, Nat.mod_eq_of_lt hn]
  rfl

theorem exec_auxTimeout : exec (.auxTimeout n) s = .next { s with sys := s.sys.auxTimedOut n } := by
  change execAuxTimeout n s = _
  rw [execAuxTimeout, onSys, Nat.mod_eq_of_lt hn]
  rfl

theorem exec_auxDeferRetry : exec (.auxDeferRetry n) s = .next { s with sys := s.sys.auxRetried n } := by
  change execAuxDeferRetry n s = _
  rw [execAuxDeferRetry, onSys, Nat.mod_eq_of_lt hn]
  rfl

end

section
variable {n : Nat} {y : Sys} (data : List Byte)

/-- The pipe's own transaction ends; one of the driver's that waited goes out. -/
theorem Sys.ownDone_own (ho : (y.pipe n).auxOwn = true) {z : Sys} (hz : z = y.modPipe n fun p => { p with auxOwn := false, auxTries := 0, auxDefer := false }) :
    y.ownDone n = if (y.pipe n).auxSt = 1 then z.auxSend n else z := by
  rw [Sys.ownDone, if_pos ho, hz]
  dsimp only
  rw [Sys.pipe_modPipe_same]

theorem Sys.auxReplied_idle (h : ((y.pipe n).auxOwn = false ∧ (y.pipe n).auxSt ≠ 1) ∨ (y.pipe n).auxDefer = true) (code : Nat) :
    y.auxReplied n code data = y := by
  rw [Sys.auxReplied, if_pos h]

theorem Sys.auxTimedOut_idle (h : ((y.pipe n).auxOwn = false ∧ (y.pipe n).auxSt ≠ 1) ∨ (y.pipe n).auxDefer = true) : y.auxTimedOut n = y := by
  unfold Sys.auxTimedOut
  rcases h with ⟨ho, hs⟩ | hd
  · simp [ho, hs]
  · rw [if_pos hd]

section
variable (ho : (y.pipe n).auxOwn = true) (hd : (y.pipe n).auxDefer = false)
include ho hd

theorem Sys.auxReplied_own {code : Nat} (hc : code % 4 < 2) : y.auxReplied n code data = y.ownDone n := by
  rw [Sys.auxReplied, if_neg (by simp [ho, hd]), if_neg (by omega), if_pos ho]

theorem Sys.auxTimedOut_own : y.auxTimedOut n = y.ownDone n := by
  rw [Sys.auxTimedOut, if_neg (by simp [hd]), if_pos ho]

end

section
variable (hs : (y.pipe n).auxSt = 1) (ho : (y.pipe n).auxOwn = false) (hd : (y.pipe n).auxDefer = false)
include hs ho hd

theorem Sys.auxReplied_ack : y.auxReplied n 0 data =
    (if fld (y.pipe n).auxCmd 24 1 = 1 then y.modPipe n fun p => { p with auxData := auxStore p.auxData (fld p.auxCmd 20 4 + 1) data } else y).auxEnd n 2 0 := by
  rw [Sys.auxReplied, if_neg (by simp [hs, hd]), if_neg (by omega), if_neg (by simp [ho])]
  rfl

theorem Sys.auxReplied_nack : y.auxReplied n 1 data = y.auxEnd n 3 1 := by
  rw [Sys.auxReplied, if_neg (by simp [hs, hd]), if_neg (by omega), if_neg (by simp [ho])]
  rfl

omit ho in
theorem Sys.auxReplied_defer (ht : (y.pipe n).auxTries < 7) : y.auxReplied n 2 data = y.modPipe n fun p => { p with auxDefer := true } := by
  rw [Sys.auxReplied, if_neg (by simp [hs, hd]), if_pos ⟨by omega, ht⟩]

theorem Sys.auxReplied_last (ht : 7 ≤ (y.pipe n).auxTries) : y.auxReplied n 2 data = y.auxEnd n 3 2 := by
  rw [Sys.auxReplied, if_neg (by simp [hs, hd]), if_neg (by omega), if_neg (by simp [ho])]
  rfl

theorem Sys.auxTimedOut_driver : y.auxTimedOut n = y.auxEnd n 3 3 := by
  rw [Sys.auxTimedOut, if_neg (by simp [hd]), if_neg (by simp [ho]), if_pos hs]

end

end

end Sys2Proof.Machine

section
open Sys2Proof.Machine

/-- Settles O53: the driver's GO by who has the channel, then replies, retries and timeouts by whose transaction they end. -/
theorem auxRows : Obligations.AuxRows := by
  rintro n addr len data s p hn ha hl rfl
  refine ⟨?_, fun hs ho hd => ?_, fun ho hd y hy => ?_, fun h => ?_, fun ho hd => ?_, fun hs ho hd => ?_⟩
  · simp only [List.forall_mem_cons]
    exact ⟨⟨onSys_auxGo_busy hn, onSys_auxGo_waits ha hl (cmd := 0) (by omega) hn, onSys_auxGo_sends ha hl (cmd := 0) (by omega) hn⟩,
      ⟨onSys_auxGo_busy hn, onSys_auxGo_waits ha hl (cmd := 1) (by omega) hn, onSys_auxGo_sends ha hl (cmd := 1) (by omega) hn⟩,
      ⟨onSys_auxGo_busy hn, onSys_auxGo_waits ha hl (cmd := 2) (by omega) hn, onSys_auxGo_sends ha hl (cmd := 2) (by omega) hn⟩,
      ⟨onSys_auxGo_busy hn, onSys_auxGo_waits ha hl (cmd := 3) (by omega) hn, onSys_auxGo_sends ha hl (cmd := 3) (by omega) hn⟩, by simp⟩
  · simp only [exec_auxReply hn, exec_auxTimeout hn, exec_auxDeferRetry hn]
    refine ⟨fun h0 => ?_, fun h1 => ?_, ?_, fun ht => ?_, fun ht => ?_, ?_, ?_⟩
    · rw [Sys.auxReplied_ack data hs ho hd, if_neg (by omega)]
    · rw [Sys.auxReplied_ack data hs ho hd, if_pos h1]
    · rw [Sys.auxReplied_nack data hs ho hd]
    · rw [Sys.auxReplied_defer data hs hd ht]
    · rw [Sys.auxReplied_last data hs ho hd ht]
    · rw [Sys.auxTimedOut_driver hs ho hd]
    · rw [Sys.auxRetried, if_neg (by simp [hd])]
  · simp only [List.forall_mem_cons]
    refine ⟨?_, ?_, ?_, by simp⟩
    · rw [exec_auxReply hn, Sys.auxReplied_own data ho hd (by omega), Sys.ownDone_own ho hy]
    · rw [exec_auxReply hn, Sys.auxReplied_own data ho hd (by omega), Sys.ownDone_own ho hy]
    · rw [exec_auxTimeout hn, Sys.auxTimedOut_own ho hd, Sys.ownDone_own ho hy]
  · rw [exec_auxReply hn, exec_auxTimeout hn, Sys.auxReplied_idle data h, Sys.auxTimedOut_idle h]
    exact ⟨rfl, rfl⟩
  · rw [exec_auxDeferRetry hn, Sys.auxRetried, if_pos ⟨.inl ho, hd⟩, if_pos ho]
    rfl
  · rw [exec_auxDeferRetry hn, Sys.auxRetried, if_pos ⟨.inr hs, hd⟩, if_neg (by simp [ho])]
end
end

section
/-! ## A vector unmasked while it is pending (R335, O54) -/

namespace Sys2Proof.Machine

/-- A READY die in SOLO whose vector 0 is masked and pending. -/
def maskedPending : State :=
  { State.reset with sys := { State.reset.sys with
      glob := { State.reset.sys.glob with ready := true }, link := { State.reset.sys.link with vecs := [(0, { mask := true, pending := true })] } } }

/-- The MASK bit of vector 0. -/
def Sys.vec0Mask (y : Sys) : Bool := (tget ({} : Vec) y.link.vecs 0).mask

/-- A write that clears MASK leaves it 0, though the raise that was pending goes out. -/
theorem maskedPending_unmasked : ∃ t, exec (.vecMaskClear 0) maskedPending = .next t ∧ t.sys.vec0Mask = false := ⟨_, rfl, by decide⟩

end Sys2Proof.Machine

section
open Sys2Proof.Machine

/-- Refutes O54: of a vector masked and pending, the statement's last state has the vector's reset value, whose MASK is 1, where the write that
clears MASK leaves it 0. -/
theorem not_hostLinkRows : ¬ Obligations.HostLinkRows := by
  unfold Obligations.HostLinkRows
  rintro ⟨-, -, -, -, -, -, hvec, -⟩
  have h := hvec 0 maskedPending _ (by decide) rfl rfl rfl rfl
  obtain ⟨t, ht, hmask⟩ := maskedPending_unmasked
  rw [ht] at h
  injection h with h
  rw [h] at hmask
  revert hmask
  decide
end
end

section
/-! ## Display pipes (O52) -/

namespace Sys2Proof.Machine

/-! ### What a pipe's frame start leaves -/

section
variable (n : Nat) (y : Sys)

@[simp] theorem Sys.modPipe_beam (f : Pipe → Pipe) : (y.modPipe n f).beam = y.beam := by
  unfold Sys.modPipe
  split <;> rfl

@[simp] theorem Sys.sendPps_beam : (y.sendPps n).beam = y.beam := by
  unfold Sys.sendPps
  split <;> rfl

@[simp] theorem Sys.signalReplay_beam : (y.signalReplay n).beam = y.beam := by
  unfold Sys.signalReplay
  dsimp only
  split
  · rfl
  · exact Sys.modPipe_beam n y _

@[simp] theorem Sys.frameSdps_beam : (y.frameSdps n).beam = y.beam := by
  unfold Sys.frameSdps
  dsimp only
  split <;> split <;> rfl

@[simp] theorem Sys.firstFrame_beam : (y.firstFrame n).beam = y.beam := by
  unfold Sys.firstFrame
  dsimp only
  split
  · simp [Sys.holdTurn]
  · split
    · simp [Sys.holdTurn]
    · split
      · split <;> simp [Sys.holdTurn]
      · simp [Sys.holdTurn]

@[simp] theorem Sys.frameSdps_pipe (m : Nat) : (y.frameSdps n).pipe m = y.pipe m := by
  unfold Sys.frameSdps
  dsimp only
  split <;> split <;> rfl

theorem Sys.signalReplay_st : ((y.signalReplay n).pipe n).st = (y.pipe n).st := by
  unfold Sys.signalReplay
  dsimp only
  split
  · rfl
  · change ((y.modPipe n _).pipe n).st = _
    rw [Sys.pipe_modPipe_same]

@[simp] theorem Sys.stillWake_pipe : y.stillWake.pipe n = y.pipe n := by
  unfold Sys.stillWake
  split <;> rfl

/-- A scan reads; no pipe changes by it. -/
theorem Sys.scan_pipe (a k : Nat) : (y.scan a k).1.pipe n = y.pipe n := by
  unfold Sys.scan
  split
  · rfl
  · split
    · have h := Sys.uncorrectable_accessed ‹_› y
      simp [Sys.pipe, h.pipe0, h.pipe1]
    · rfl

/-- A trained pipe's first frame makes it ACTIVE (R247, R256). -/
theorem Sys.firstFrame_trained (hs : (y.pipe n).st = .training) (ht : (y.pipe n).trained = true) : ((y.firstFrame n).pipe n).st = .active := by
  unfold Sys.firstFrame
  dsimp only
  rw [if_pos (by simp [hs, ht]), Sys.frameSdps_pipe, Sys.signalReplay_st, Sys.pipe_modPipe_same]

end

/-! ### Enabling and the link -/

section
variable {n : Nat} {y : Sys}

theorem Sys.pipeEnable_enabled (he : (y.pipe n).en = true) : y.pipeEnable n = y := by
  rw [Sys.pipeEnable, if_pos he]

theorem Sys.pipeEnable_barred (he : (y.pipe n).en = false) (h : (y.pipe n).present = false ∨ y.glob.ready = false ∨ y.pipesBarred = true) :
    y.pipeEnable n = y.reject := by
  rw [Sys.pipeEnable, if_neg (by simp [he]), if_pos h]

section
variable (he : (y.pipe n).en = false) (hp : (y.pipe n).present = true) (hr : y.glob.ready = true) (hb : y.pipesBarred = false)
include he hp hr hb

theorem Sys.pipeEnable_noPll (h1 : (y.pipe n).needsPllx n = true) (h2 : (y.pipe (1 - n)).en = true) (h3 : (y.pipe (1 - n)).needsPllx (1 - n) = true) :
    y.pipeEnable n = y.pipeEvent n 5 := by
  rw [Sys.pipeEnable, if_neg (by simp [he]), if_neg (by simp [hp, hr, hb]), if_pos (by simp [h1, h2, h3])]

theorem Sys.pipeEnable_trains (h : (y.pipe n).needsPllx n = false ∨ (y.pipe (1 - n)).en = false ∨ (y.pipe (1 - n)).needsPllx (1 - n) = false) :
    y.pipeEnable n = (y.modPipe n fun p =>
      { p with en := true, st := .training, trained := false, stillReq := false, exitReq := false, su := none, suRun := none, auxOwn := true, auxTries := 0 }).capabilityRead n := by
  rw [Sys.pipeEnable, if_neg (by simp [he]), if_neg (by simp [hp, hr, hb]), if_neg (by rcases h with h | h | h <;> simp [h])]

end

theorem Sys.linkDown_down (h : (y.pipe n).st = .off ∨ (y.pipe n).st = .linkDown) : y.linkDown n = y := by
  rw [Sys.linkDown, if_pos h]

theorem Sys.linkDown_up (ho : (y.pipe n).st ≠ .off) (hl : (y.pipe n).st ≠ .linkDown) : y.linkDown n =
    ((y.modPipe n fun p => { p with
      st := .linkDown, trained := false, stillReq := false, exitReq := false, su := none, suRun := none, line0 := false, waiting := [], replay := false }).pipeEvent n 3).timingStopped n := by
  rw [Sys.linkDown, if_neg (by simp [ho, hl])]

/-- HPD is low; event 4 is set. -/
def Sys.hpdLow (n : Nat) (y : Sys) : Sys := (y.modPipe n fun p => { p with hpd := false }).pipeEvent n 4

theorem Sys.hpdLow_st : ((y.hpdLow n).pipe n).st = (y.pipe n).st := by
  rw [Sys.hpdLow, Sys.pipeEvent_pipe, Sys.pipe_modPipe_same, Sys.pipe_modPipe_same]

end

/-! ### Rows of a pipe -/

section
variable {n : Nat} (hn : n < 2) (s : State)
include hn

theorem exec_pipeEnable : exec (.pipeEnable n) s = .next { s with sys := s.sys.pipeEnable n } := by
  change onSys (Sys.pipeEnable (n % 2)) s = _
  rw [Nat.mod_eq_of_lt hn]
  rfl

theorem exec_laneLockLoss : exec (.laneLockLoss n) s = .next { s with sys := s.sys.linkDown n } := by
  change onSys (Sys.linkDown (n % 2)) s = _
  rw [Nat.mod_eq_of_lt hn]
  rfl

theorem exec_hpdLowTimeout : exec (.hpdLowTimeout n) s = .next { s with sys := (s.sys.hpdLow n).linkDown n } := by
  change execHpdLowTimeout n s = _
  rw [execHpdLowTimeout, Nat.mod_eq_of_lt hn]
  rfl

/-- What the end of link training does (R256). -/
def Sys.trainingEnded (n : Nat) (ok : Bool) (y : Sys) : Sys :=
  let p := y.pipe n
  if p.st ≠ .training ∨ p.trained = true then y
  else if ok then
    ((y.ownDone n).modPipe n fun p => { p with trained := true, rate := p.rateCode, lanes := fld (p.w 0) 1 2 }).emit
      (.trained n p.rateCode (fld (p.w 0) 1 2) (bitAt (p.w 0) 19) (p.fec n))
  else ((y.ownDone n).modPipe n fun p => { p with st := .off, en := false }).pipeEvent n 7

theorem exec_linkTrainingEnd (ok : Bool) : exec (.linkTrainingEnd n ok) s = .next { s with sys := s.sys.trainingEnded n ok } := by
  change execLinkTrainingEnd n ok s = _
  rw [execLinkTrainingEnd, Nat.mod_eq_of_lt hn]
  rfl

/-- A frame start of a pipe (R57, R247). -/
def Sys.frameStarted (n : Nat) (y : Sys) : Sys :=
  let p := y.pipe n
  let leads := y.beam.on && !y.beamFollows && (y.beam.master == n || y.beam.newMaster == some n)
  if y.domainUp (12 + n) = false then y
  else if p.waits then
    if y.beam.on && y.beam.master == n && !y.beamFollows && !(y.beam.line == 0 && y.beam.tick == 0) then y
    else
      let y := y.firstFrame n
      if y.beam.on && y.beam.master == n && !y.beamFollows then y.beamTo n else y
  else if p.runs && y.beam.source != n then
    let y := y.frameOf n
    if leads && (y.pipe n).runs then y.beamTo n else y
  else y

theorem exec_pipeFrameStart : exec (.pipeFrameStart n) s = .next { s with sys := s.sys.frameStarted n } := by
  change execPipeFrameStart n s = _
  rw [execPipeFrameStart, Nat.mod_eq_of_lt hn]
  rfl

/-- A line fetch may not begin (R247, R248). -/
def Sys.noFetch (y : Sys) (n line : Nat) : Prop :=
  (y.pipe n).runs = false ∨ (y.pipe n).vactive ≤ line ∨ (y.pipe n).inUpdate line = false ∨ y.domainUp (12 + n) = false ∨ y.fetchDue n line = false

theorem exec_lineFetchStart_none {line : Nat} (late : Nat) (h : s.sys.noFetch n line) : exec (.lineFetchStart n line late) s = .next s := by
  change execLineFetchStart n line late s = _
  rw [execLineFetchStart, onSys, Nat.mod_eq_of_lt hn]
  exact congrArg (fun y => Host.Outcome.next { s with sys := y }) (if_pos h)

omit hn in
/-- Outside Calm and band mode a line is scanned from the frame buffer. -/
theorem Sys.fetchLine_plain {y z : Sys} {n line late : Nat} {bs : List Byte} (hc : (y.pipe n).calm = false) (hb : (y.pipe n).bandMode = false)
    (hs : y.scan ((y.pipe n).fbNow + line * (y.pipe n).pitchNow) ((y.pipe n).hactive * (y.pipe n).pxBytes) = (z, some bs)) :
    y.fetchLine n line late = z.sendLine n line late ((y.pipe n).pixelsOf bs) := by
  have hz : z.pipe n = y.pipe n := by
    rw [← Sys.scan_pipe n y ((y.pipe n).fbNow + line * (y.pipe n).pitchNow) ((y.pipe n).hactive * (y.pipe n).pxBytes), hs]
  have hfeed : y.feed n line = (z, .pixels bs) := by
    unfold Sys.feed
    dsimp only
    rw [if_neg (by simp [hc]), if_neg (by simp [hb]), hs]
  rw [Sys.fetchLine, hfeed]
  dsimp only
  rw [hz]

/-- A line after the first one. -/
theorem exec_lineFetchStart {line : Nat} (late : Nat) (h : ¬ s.sys.noFetch n line) (h0 : 0 < line) :
    exec (.lineFetchStart n line late) s = .next { s with sys := s.sys.fetchLine n line late } := by
  change execLineFetchStart n line late s = _
  rw [execLineFetchStart, onSys, Nat.mod_eq_of_lt hn]
  refine congrArg (fun y => Host.Outcome.next { s with sys := y }) ((if_neg h).trans ?_)
  dsimp only
  rw [if_neg (by omega)]

theorem exec_stillExit : exec (.stillExit n) s = .next { s with sys := s.sys.stillExit n } := by
  change onSys (Sys.stillExit (n % 2)) s = _
  rw [Nat.mod_eq_of_lt hn]
  rfl

/-- The timer of Calm runs out (R259). -/
def Sys.calmTimed (n : Nat) (y : Sys) : Sys :=
  let p := y.pipe n
  if p.calm && p.timer && !p.expired && p.cause != 0 then
    (y.modPipe n fun p => { p with expired := true, timer := false, exitReq := p.exitReq || p.st == .still }).pipeEvent n 2
  else y

theorem exec_calmTimerExpire : exec (.calmTimerExpire n) s = .next { s with sys := s.sys.calmTimed n } := by
  change execCalmTimerExpire n s = _
  rw [execCalmTimerExpire, Nat.mod_eq_of_lt hn]
  rfl

end

/-! ### Still on pipe 0 (R254, R255) -/

section
variable {a b : Nat} {s : State}

/-- The range of a selective update, with one that still waits. -/
def Pipe.armed (a b : Nat) (p : Pipe) : Pipe := { p with su := some ((p.su.elim a fun r => min r.1 a), (p.su.elim b fun r => max r.2 b)) }

theorem Sys.suArm_eq (ha : a < 2 ^ 13) (hb : b < 2 ^ 13) {y z : Sys} (hz : z = y.stillWake.modPipe 0 fun p => { p with suFirst := a, suLast := b }) :
    y.suArm 0 a b = if (y.pipe 0).calm = true ∨ (y.pipe 0).st ≠ .still then z.reject else z.modPipe 0 (Pipe.armed a b) := by
  have hp : z.pipe 0 = { y.pipe 0 with suFirst := a, suLast := b } := by rw [hz, Sys.pipe_modPipe_same, Sys.stillWake_pipe]
  rw [Sys.suArm, if_pos rfl, Nat.mod_eq_of_lt ha, Nat.mod_eq_of_lt hb]
  rw [← hz, hp]
  refine if_congr Iff.rfl rfl (Sys.modPipe_congr ?_)
  rw [hp]
  cases h : (y.pipe 0).su <;> simp [Pipe.armed, h]

end

end Sys2Proof.Machine

section
open Sys2Proof.Machine

/-- Settles O52: each row of a pipe by the pipe's state, with Still and selective updates on pipe 0. -/
theorem pipeRows : Obligations.PipeRows := by
  unfold Obligations.PipeRows
  refine ⟨?_, ?_⟩
  · rintro n s p q hn rfl rfl
    simp only [exec_pipeEnable hn, exec_linkTrainingEnd hn, exec_laneLockLoss hn, exec_hpdLowTimeout hn, exec_pipeFrameStart hn, exec_stillExit hn,
      exec_calmTimerExpire hn]
    refine ⟨fun he => ?_, fun he h => ?_, fun he hp hr hb => ⟨fun h1 h2 h3 => ?_, fun h => ?_⟩, fun hs ht => ⟨?_, fun ho => ?_, ?_⟩, fun h => ?_, ?_, ?_,
      fun h => ⟨?_, _, rfl, ?_⟩, fun ho hl down hd => ⟨?_, ?_⟩, fun hw hr => ?_, fun hw hu hm => ?_, Sys.firstFrame_trained n s.sys,
      fun hw hu hr hs hm hnew => ?_, fun line late h => exec_lineFetchStart_none hn s late h, fun line late y bs hr h0 hl hi hu hf hc hb hscan => ?_, ?_, ?_,
      fun h => ?_, fun h => ?_, fun h => ?_, fun h => ?_⟩
    · rw [Sys.pipeEnable_enabled he]
    · rw [Sys.pipeEnable_barred he h]
      rfl
    · rw [Sys.pipeEnable_noPll he hp hr hb h1 h2 h3]
    · rw [Sys.pipeEnable_trains he hp hr hb h]
      rfl
    · rw [Sys.trainingEnded, if_neg (by simp [hs, ht]), if_pos rfl]
    · rw [Sys.ownDone, if_neg (by simp [ho])]
    · rw [Sys.trainingEnded, if_neg (by simp [hs, ht]), if_neg (by simp)]
    · rw [Sys.trainingEnded, if_pos h]
    · change execHpdPulse n s = _
      rw [execHpdPulse, Nat.mod_eq_of_lt hn]
      rfl
    · change execHpdRise n s = _
      rw [execHpdRise, Nat.mod_eq_of_lt hn]
      rfl
    · rw [Sys.linkDown_down h]
    · rw [Sys.linkDown_down (by rwa [Sys.hpdLow_st])]
      rfl
    · rw [Sys.linkDown_up ho hl, hd]
    · rw [Sys.linkDown_up (by rwa [Sys.hpdLow_st]) (by rwa [Sys.hpdLow_st]), hd]
      rfl
    · simp [Sys.frameStarted, hw, hr]
    · have hm' : (s.sys.beam.master == n) = false := by simpa using hm
      simp [Sys.frameStarted, hw, hu, hm']
    · have hm' : (s.sys.beam.master == n) = false := by simpa using hm
      have hnew' : (s.sys.beam.newMaster == some n) = false := by simpa using hnew
      simp [Sys.frameStarted, hw, hu, hr, hs, hm', hnew']
    · have hno : ¬ s.sys.noFetch n line := by simp [Sys.noFetch, hr, hl, hi, hu, hf]
      rw [exec_lineFetchStart hn s late hno h0, Sys.fetchLine_plain hc hb hscan]
    · change onSys (Sys.calmCause (n % 2) 0) s = _
      rw [Nat.mod_eq_of_lt hn]
      rfl
    · change onSys (Sys.calmClear (n % 2) 0) s = _
      rw [Nat.mod_eq_of_lt hn]
      rfl
    · simp [Sys.calmTimed, h]
    · rw [Sys.calmTimed, if_neg (by rcases h with h | h | h | h <;> simp [h])]
    · rw [Sys.stillExit, Sys.modPipe_congr]
      split <;> simp [h]
    · rw [Sys.stillExit, Sys.modPipe_congr]
      split <;> simp [h]
  · rintro a b s p y rfl ha hb hy
    refine ⟨fun h1 h2 h3 h4 => ?_, fun h => ?_, fun h => ?_, fun hc hs => ?_⟩
    · change onSys (Sys.stillEnter 0) s = _
      rw [onSys, Sys.stillEnter, if_pos ⟨rfl, h1, h2, h3, h4⟩]
    · change onSys (Sys.stillEnter 0) s = _
      rw [onSys, Sys.stillEnter, if_neg (by rcases h with h | h | h | h <;> simp [h])]
      rfl
    · change onSys (Sys.suArm 0 a b) s = _
      rw [onSys, Sys.suArm_eq ha hb hy, if_pos h]
    · change onSys (Sys.suArm 0 a b) s = _
      rw [onSys, Sys.suArm_eq ha hb hy, if_neg (by simp [hc, hs])]
      rfl
end
end

section
/-! ## The Duo (O58) -/

namespace Sys2Proof.Machine

section
variable {s : State}

/-! ### Forming and holding -/

theorem exec_harnessTrainEnd_idle (h : s.sys.glob.config = 0 ∨ s.sys.duo.st ≠ 1) : exec .harnessTrainEnd s = .next s := by
  change execHarnessTrainEnd s = _
  rw [execHarnessTrainEnd, onSys, if_pos h]

/-- What the end of the Harness's training makes of the machine (R383, R386). -/
def Sys.formed (y : Sys) : Sys :=
  Sys.emit (.harness "HELLO" [y.glob.config, putb y.glob.duoId 0] y.glob.patternDigest) (Sys.emit (.init 1 128 128 2048)
    ([(0, 128), (1, 2048), (2, 128), (3, 16384)].foldl (fun z p => z.modPool 2 p.1 fun _ => Pool.init p.2)
      (y.modDuo fun u => { u with st := 2, hm := { ph := 128, nph := 128, pd := 2048 } })))

theorem exec_harnessTrainEnd (hc : s.sys.glob.config ≠ 0) (hs : s.sys.duo.st = 1) :
    exec .harnessTrainEnd s = .next { s with sys := s.sys.formed } := by
  change execHarnessTrainEnd s = _
  rw [execHarnessTrainEnd, onSys, if_neg (by simp [hc, hs])]
  rfl

theorem Sys.formed_pools (y : Sys) : y.formed.pool 2 0 = Pool.init 128 ∧ y.formed.pool 2 1 = Pool.init 2048 ∧ y.formed.pool 2 2 = Pool.init 128 ∧
    y.formed.pool 2 3 = Pool.init 16384 := by
  simp [Sys.formed, Sys.emit, Sys.modOut, Sys.modPool, Sys.modCons, Sys.modDuo, Sys.pool, poolKey, tget_tmod_other]

theorem exec_duoFormTimeout : exec .duoFormTimeout s = .next { s with sys :=
    (if s.sys.glob.config ≠ 0 ∧ s.sys.glob.ready = true ∧ (s.sys.duo.st = 1 ∨ s.sys.duo.st = 2) ∧ s.sys.duo.split = false then s.sys.splitBrain else s.sys) } :=
  rfl

theorem exec_duoHoldTimeout : exec .duoHoldTimeout s = .next { s with sys :=
    (if s.sys.duo.hold = true ∧ s.sys.duo.split = false ∧ s.sys.duo.st ≠ 1 ∧ s.sys.duo.st ≠ 2 then s.sys.splitBrain else s.sys) } :=
  rfl

/-- A HELLO agrees with what this die is (R383). -/
def Sys.helloAgrees (c d : Nat) (dg : List Byte) (x : Nat) (y : Sys) : Prop :=
  c = y.glob.config ∧ bitAt d 0 ≠ y.glob.duoId ∧ (y.glob.config ≠ 2 ∨ dg = y.glob.patternDigest) ∧ (y.glob.config ≠ 1 ∨ Nat.land x y.validMask = 0)

theorem exec_hello_idle (c d : Nat) (dg : List Byte) (x : Nat) (ds : List Nat) (h : s.sys.glob.config = 0 ∨ s.sys.duo.st ≠ 2) :
    exec (.hello c d dg x ds) s = .next s := by
  change execHello c d dg x ds s = _
  rw [execHello, onSys, if_pos h]

section
variable {c d x : Nat} {dg : List Byte} (ds : List Nat) (hc : s.sys.glob.config ≠ 0) (hs : s.sys.duo.st = 2)
include hc hs

theorem exec_hello_agrees (ha : s.sys.helloAgrees c d dg x) : exec (.hello c d dg x ds) s = .next { s with sys := Sys.linkFlows (Sys.hflush
    (s.sys.modDuo fun u => { u with
      st := 3, alone := false, claims := [], unmirrored := s.sys.aliveJobs, peerCtxs := x
      peerDoms := (List.range (ds.length / 2)).map fun i => (ds.getD (2 * i) 0, ds.getD (2 * i + 1) 0) })) } := by
  change execHello c d dg x ds s = _
  rw [execHello, onSys, if_neg (by simp [hc, hs]), if_pos (by exact ha)]

theorem exec_hello_differs (ha : ¬ s.sys.helloAgrees c d dg x) :
    exec (.hello c d dg x ds) s = .next { s with sys := (s.sys.duoEvent 6).enterHold } := by
  change execHello c d dg x ds s = _
  rw [execHello, onSys, if_neg (by simp [hc, hs]), if_neg (by exact ha)]
end

/-! ### Heartbeats and roles -/

/-- The heartbeat a die sends (R385). -/
def Sys.heartbeat (y : Sys) : OutPkt :=
  .harness "HBEAT" [8 + put y.duo.role 4 2 + putb y.glob.duoId 6 + putb y.flt.dieCalm 7 + putb y.duo.hold 8 + put y.duo.seq 9 23, y.duo.epoch,
    wordAt y.glob.patternDigest 0, 0] []

theorem exec_hbeatSend_idle (h : s.sys.glob.config = 0 ∨ (s.sys.duo.st ≠ 2 ∧ s.sys.duo.st ≠ 3 ∧ s.sys.duo.st ≠ 4)) :
    exec .hbeatSend s = .next s := by
  change execHbeatSend s = _
  rw [execHbeatSend, onSys, if_pos h]

theorem exec_hbeatSend (hc : s.sys.glob.config ≠ 0) (h : s.sys.duo.st = 2 ∨ s.sys.duo.st = 3 ∨ s.sys.duo.st = 4) :
    exec .hbeatSend s = .next { s with sys :=
      ((if s.sys.duo.st = 2 then s.sys.emit s.sys.heartbeat else s.sys.hsend s.sys.heartbeat).modDuo fun u => { u with seq := (u.seq + 1) % 2 ^ 23 }) } := by
  change execHbeatSend s = _
  rw [execHbeatSend, onSys, if_neg (by rintro (h' | ⟨h2, h3, h4⟩) <;> simp_all)]
  rfl

/-- A heartbeat of the peer recorded (R394). -/
def Sys.heard (w e d : Nat) (y : Sys) : Sys :=
  y.modDuo fun u => { u with peerLive := true, peerEpoch := e, peerCalm := bitAt w 7, peerDigest0 := d, claims := (fld w 4 2 :: u.claims).take 2 }

/-- The die takes a claim and an epoch, and holds or leaves hold by the agreement (R394, R396). -/
def Sys.settle (c : Nat × Nat) (y : Sys) : Sys := ((y.modDuo fun u => { u with epoch := c.2 }).setRole c.1).resolve

theorem exec_hbeat_idle (w e d : Nat) (h : s.sys.glob.config = 0 ∨ s.sys.duo.st ≠ 3) : exec (.hbeat w e d) s = .next s := by
  change execHbeat w e d s = _
  rw [execHbeat, onSys, if_pos h]

theorem exec_hbeat {w e d : Nat} (he : e < 2 ^ 32) (hd : d < 2 ^ 32) (hc : s.sys.glob.config ≠ 0) (hs : s.sys.duo.st = 3) :
    exec (.hbeat w e d) s = .next { s with sys := (s.sys.heard w e d).settle ((s.sys.heard w e d).claimNow e (bitAt w 7)) } := by
  change execHbeat w e d s = _
  rw [execHbeat, onSys, if_neg (by simp [hc, hs]), Nat.mod_eq_of_lt he, Nat.mod_eq_of_lt hd]
  rfl

/-- The peer counted and logged as silent (R394). -/
def Sys.silent (y : Sys) : Sys :=
  ((y.modDuo fun u => { u with peerLive := false, claims := [], hbMissed := satInc u.hbMissed }).duoEvent 0).logFault { cls := 7, action := 8, status := 0x41, block := 8 }

/-- The claim after the silence, the Harness DOWN and the die in hold (R394, R395). -/
def Sys.alone (r : Nat) (y : Sys) : Sys := ((y.setRole r).harnessDown).enterHold

theorem exec_peerSilenceTimeout_idle (h : s.sys.glob.config = 0 ∨ s.sys.duo.peerLive = false) : exec .peerSilenceTimeout s = .next s := by
  change execPeerSilenceTimeout s = _
  rw [execPeerSilenceTimeout, onSys, if_pos h]

@[simp] theorem Sys.logFault_duo (e : LogE) (y : Sys) : (y.logFault e).duo = y.duo := by
  unfold Sys.logFault
  dsimp only
  split <;> simp [Sys.modFlt]

@[simp] theorem Sys.logFault_dieCalm (e : LogE) (y : Sys) : (y.logFault e).flt.dieCalm = y.flt.dieCalm := by
  unfold Sys.logFault
  dsimp only
  split <;> simp [Sys.modFlt]

theorem Sys.silent_role (y : Sys) : y.silent.duo.role = y.duo.role := by
  rw [Sys.silent, Sys.logFault_duo, Sys.duoEvent_duo]
  rfl

theorem Sys.silent_epoch (y : Sys) : y.silent.duo.epoch = y.duo.epoch := by
  rw [Sys.silent, Sys.logFault_duo, Sys.duoEvent_duo]
  rfl

theorem Sys.silent_dieCalm (y : Sys) : y.silent.flt.dieCalm = y.flt.dieCalm := by
  rw [Sys.silent, Sys.logFault_dieCalm, Sys.duoEvent_flt]
  rfl

/-- The role a die takes once its peer is silent (R394). -/
def Sys.takeRole (y : Sys) : Sys :=
  let stuck := y.duo.role = 1 ∧ y.duo.epoch = 2 ^ 32 - 1
  let z := if y.duo.role = 1 ∧ ¬ stuck then y.modDuo fun u => { u with epoch := u.epoch + 1 } else y
  if stuck ∨ z.flt.dieCalm = true then z.setRole 1 else z.setRole 2

theorem exec_peerSilenceTimeout (hc : s.sys.glob.config ≠ 0) (hp : s.sys.duo.peerLive = true) :
    exec .peerSilenceTimeout s = .next { s with sys := s.sys.silent.takeRole.harnessDown.enterHold } := by
  change execPeerSilenceTimeout s = _
  rw [execPeerSilenceTimeout, onSys, if_neg (by simp [hc, hp])]
  rfl

section
variable {y : Sys}

theorem Sys.takeRole_worker (hr : y.duo.role = 1) (he : y.duo.epoch ≠ 2 ^ 32 - 1) (hd : y.flt.dieCalm = false) :
    y.takeRole = (y.modDuo fun u => { u with epoch := u.epoch + 1 }).setRole 2 := by
  have hs : ¬ (y.duo.role = 1 ∧ y.duo.epoch = 2 ^ 32 - 1) := fun h => he h.2
  rw [Sys.takeRole, if_neg, if_pos ⟨hr, hs⟩]
  rw [if_pos ⟨hr, hs⟩]
  rintro (h | h)
  · exact hs h
  · exact absurd (hd.symm.trans h) (by decide)

theorem Sys.takeRole_exhausted (hr : y.duo.role = 1) (he : y.duo.epoch = 2 ^ 32 - 1) : y.takeRole = y.setRole 1 := by
  rw [Sys.takeRole, if_pos (.inl ⟨hr, he⟩), if_neg (fun h => h.2 ⟨hr, he⟩)]

theorem Sys.takeRole_manager (hr : y.duo.role = 2) (hd : y.flt.dieCalm = false) : y.takeRole = y.setRole 2 := by
  have hn : ¬ y.duo.role = 1 := by simp [hr]
  rw [Sys.takeRole, if_neg, if_neg fun h => hn h.1]
  rw [if_neg fun h => hn h.1]
  simp [hn, hd]

/-- A manager is taken over from only when these hold (R394, R399). -/
def Sys.mayTakeOver (y : Sys) : Prop :=
  y.glob.config ≠ 0 ∧ y.duo.role = 1 ∧ y.duo.peerLive = true ∧ y.duo.claims.head? = some 2 ∧ y.duo.hold = false ∧ y.flt.dieCalm = false

theorem Sys.takeover_barred (h : ¬ y.mayTakeOver) : y.takeover = y.reject := by
  rw [Sys.takeover, if_pos]
  by_contra hn
  simp only [not_or, not_not, Bool.not_eq_false, Bool.not_eq_true] at hn
  exact h hn

theorem Sys.takeover_allowed (h : y.mayTakeOver) : y.takeover = if y.duo.epoch = 2 ^ 32 - 1 then y else
    (((y.logFault { cls := 7, action := 9, status := 0, block := 8 }).modDuo fun u => { u with epoch := u.epoch + 1 }).setRole 2).resolve := by
  obtain ⟨hc, hr, hp, hh, ho, hd⟩ := h
  rw [Sys.takeover, if_neg (by simp [hc, hr, hp, hh, ho, hd])]

/-- The claim a die that is not in Calm settles on, by its own epoch and the peer's (R394). -/
theorem Sys.claimNow_awake (h : y.flt.dieCalm = false) (e : Nat) : y.claimNow e false =
    if e < y.duo.epoch then (2, y.duo.epoch) else if y.duo.epoch = e ∧ y.glob.duoId = false then (2, y.duo.epoch) else (1, e) := by
  rw [Sys.claimNow]
  simp [h]

theorem Sys.claimNow_calm (h : y.flt.dieCalm = true) (e : Nat) (c : Bool) : y.claimNow e c = (1, y.duo.epoch) := by
  rw [Sys.claimNow]
  simp [h]

/-- Settling on the epoch that stands is a change of role alone. -/
theorem Sys.settle_own (r : Nat) : y.settle (r, y.duo.epoch) = (y.setRole r).resolve := rfl

end

/-! ### Messages over the Harness -/

theorem exec_beampos_idle (l t h sr p f : Nat) (hi : s.sys.duo.st ≠ 3 ∨ s.sys.beamFollows = false) : exec (.beampos l t h sr p f) s = .next s := by
  change execBeampos l t h sr p f s = _
  rw [execBeampos, onSys, if_neg (by rintro ⟨h3, hb⟩; simp [h3, hb] at hi)]

theorem exec_beampos {l t sr p f : Nat} (h : Nat) (hl : l < 2 ^ 13) (ht : t < 16) (hsr : sr < 4) (hp : p < 8) (hf : f < 2 ^ 32) (h3 : s.sys.duo.st = 3)
    (hb : s.sys.beamFollows = true) : exec (.beampos l t h sr p f) s = .next { s with sys :=
      (if f = s.sys.beam.frame then s.sys else (s.sys.applyBeam id).fgStopNow).modBeam fun b => { b with
        line := l, tick := t, heldNow := bitAt h 0, source := sr, phase := p, frame := f } } := by
  change execBeampos l t h sr p f s = _
  rw [execBeampos, onSys, if_pos ⟨h3, hb⟩, Nat.mod_eq_of_lt hl, Nat.mod_eq_of_lt ht, Nat.mod_eq_of_lt hsr, Nat.mod_eq_of_lt hp, Nat.mod_eq_of_lt hf]

/-- The shadow with the words of a SCHED message (R390). -/
def Sys.shadowed (ws : List Nat) (y : Sys) : Sys := y.modDuo fun u => { u with shadow := ws :: u.shadow }

section
variable (hc : s.sys.glob.config ≠ 0) (h3 : s.sys.duo.st = 3)
include hc h3

theorem exec_sched_doorbell (q w : Nat) : exec (.sched [0, q, w]) s = .next { s with sys := s.sys.shadowed [0, q, w] } := by
  change execSched [0, q, w] s = _
  rw [execSched, onSys, if_neg (by simp [hc, h3])]
  rfl

theorem exec_sched_fire (q a c : Nat) (hr : s.sys.duo.role = 1) :
    exec (.sched [1, q, a, c]) s = .next { s with sys := (s.sys.shadowed [1, q, a, c]).workerFire q a c } := by
  change execSched [1, q, a, c] s = _
  have hx : execSched [1, q, a, c] s = .next { s with sys :=
      (if (s.sys.shadowed [1, q, a, c]).duo.role = 1 then (s.sys.shadowed [1, q, a, c]).workerFire q a c else s.sys.shadowed [1, q, a, c]) } := by
    rw [execSched, onSys, if_neg (by simp [hc, h3])]
    rfl
  rw [hx, if_pos (by exact hr)]

theorem exec_sched_dispatch {t n c : Nat} {z : Sys} (hz : z = s.sys.shadowed [2, t, n, c]) (hr : s.sys.duo.role = 1) (ht : z.tgReady t = true)
    (hn : (z.tg t).head = some n) (hf : z.coreFree c = true) : exec (.sched [2, t, n, c]) s = .next { s with sys :=
      ((z.requestPick (.fresh t n c)).grantAll (z.requestPick (.fresh t n c)).girth.reqs.length) } := by
  change execSched [2, t, n, c] s = _
  have hx : execSched [2, t, n, c] s = .next { s with sys :=
      (if z.duo.role = 1 ∧ z.tgReady t = true ∧ (z.tg t).head = some n ∧ z.coreFree c = true then
        (z.requestPick (.fresh t n c)).grantAll (z.requestPick (.fresh t n c)).girth.reqs.length else z) } := by
    rw [execSched, onSys, if_neg (by simp [hc, h3]), hz]
    rfl
  rw [hx, if_pos ⟨by rw [hz]; exact hr, ht, hn, hf⟩]

theorem exec_sched_cancel {j st : Nat} (hj : j < 4096) (hs : st < 256) (h2 : s.sys.glob.config = 2) (hr : s.sys.duo.role = 1) :
    exec (.sched [3, j, st]) s = .next { s with sys := (s.sys.shadowed [3, j, st]).cancelJob j st } := by
  change execSched [3, j, st] s = _
  have hx : execSched [3, j, st] s = .next { s with sys := (if (s.sys.shadowed [3, j, st]).glob.config = 2 ∧ (s.sys.shadowed [3, j, st]).duo.role = 1 then
      (s.sys.shadowed [3, j, st]).cancelJob (j % 4096) (st % 256) else s.sys.shadowed [3, j, st]) } := by
    rw [execSched, onSys, if_neg (by simp [hc, h3])]
    rfl
  rw [hx, if_pos (by exact ⟨h2, hr⟩), Nat.mod_eq_of_lt hj, Nat.mod_eq_of_lt hs]
end

end
end Sys2Proof.Machine
end

section
/-! ## What the other die asks and answers (O58) -/

namespace Sys2Proof.Machine

section
variable {s : State} {y : Sys}

theorem Sys.hsend_formed (p : OutPkt) (h : y.duo.st = 3) : y.hsend p = y.emit p := by rw [Sys.hsend, if_pos h]

/-- What a remote read that arrives makes of the machine, its credit returned (R388). -/
def Sys.answerRead (tag k e a n : Nat) (y : Sys) : Sys :=
  let answer := fun (st : Nat) (bs : List Byte) (y : Sys) => y.hsend (.harness "RRSP" [tag, k, e, st] bs)
  if y.flt.dieCalm = true ∨ y.mem.memEnd < a + n then answer 0x30 [] y
  else match y.mem.fails .host a n with
    | some b => answer 0x30 [] ((y.uncorrectable b).logFault { cls := 3, action := 4, status := 0x30, block := 1, addr := 64 * b })
    | none => answer 0 (y.mem.load .host a n).2 { y with mem := (y.mem.load .host a n).1 }

theorem exec_rreq {tag k e n : Nat} (a : Nat) (htag : tag < 2 ^ 16) (hk : k < 64) (he : e < 256) (hn : n < 64) (hc : s.sys.glob.config = 1)
    (h3 : s.sys.duo.st = 3) : exec (.rreq tag k e a n) s = .next { s with sys := (s.sys.emit (.crd 1 0 1 0)).answerRead tag k e a n } := by
  change execRreq tag k e a n s = _
  rw [execRreq, onSys, if_neg (by simp [hc, h3]), Nat.mod_eq_of_lt htag, Nat.mod_eq_of_lt hk, Nat.mod_eq_of_lt he, Nat.mod_eq_of_lt hn]
  rfl

section
variable (tag k e : Nat) {a n : Nat} (h3 : y.duo.st = 3)
include h3

theorem Sys.answerRead_barred (h : y.flt.dieCalm = true ∨ y.mem.memEnd < a + n) :
    y.answerRead tag k e a n = y.emit (.harness "RRSP" [tag, k, e, 0x30] []) := by
  rw [Sys.answerRead, if_pos h]
  exact Sys.hsend_formed _ h3

theorem Sys.answerRead_reads (hd : y.flt.dieCalm = false) (ha : a + n ≤ y.mem.memEnd) (hf : y.mem.fails .host a n = none) :
    y.answerRead tag k e a n = Sys.emit (.harness "RRSP" [tag, k, e, 0] (y.mem.load .host a n).2) { y with mem := (y.mem.load .host a n).1 } := by
  rw [Sys.answerRead, if_neg (by simp [hd, Nat.not_lt.2 ha]), hf]
  exact Sys.hsend_formed (y := { y with mem := (y.mem.load .host a n).1 }) _ h3
end

/-- What a response that lands makes of its entry (R288, R388). -/
def Sys.answered (k e st tag : Nat) (bs : List Byte) (y : Sys) : Sys :=
  let m := tget ({} : Mbox) (y.stall k).mbox e
  if y.duo.st ≠ 3 ∨ m.pending = false ∨ m.tag ≠ tag then y
  else if m.orphan then y.modStall k fun q => { q with mbox := tset q.mbox e {} }
  else y.mboxFull k e st (!y.glob.duoId) (bs.take 56)

theorem exec_rrsp {tag k e st : Nat} (bs : List Byte) (htag : tag < 2 ^ 16) (hk : k < 64) (he : e < 256) (hst : st < 256) :
    exec (.rrsp tag k e st bs) s = .next { s with sys := s.sys.answered k e st tag bs } := by
  change execRrsp tag k e st bs s = _
  rw [execRrsp, onSys, Nat.mod_eq_of_lt htag, Nat.mod_eq_of_lt hk, Nat.mod_eq_of_lt he, Nat.mod_eq_of_lt hst]
  rfl

/-! ### Digests -/

/-- The digest of a key compared, or kept until this die has its own (R393). -/
def Sys.digestIn (key : Nat) (dg : List Byte) (y : Sys) : Sys :=
  match y.duo.waiting.find? (fun w => w.1 == key) with
  | none => y.modDuo fun u => { u with early := u.early ++ [(key, leNat dg)] }
  | some w => if w.2.2 = leNat dg then (y.matched key).tryDone w.2.1 else y.failDigest key 0x40

theorem exec_digest (key : Nat) (dg : List Byte) (hc : s.sys.glob.config = 2) (hr : s.sys.duo.role = 2) (h3 : s.sys.duo.st = 3)
    (ha : s.sys.duo.alone = false) : exec (.digest key dg) s = .next { s with sys := s.sys.digestIn key dg } := by
  change execDigest key dg s = _
  rw [execDigest, onSys, if_neg (by simp [hc, hr, h3, ha])]
  rfl

/-! ### The peer window -/

/-- The form and the state R387 asks of a peer-window request of n bytes. -/
def Sys.peerRefused (a n : Nat) (y : Sys) : Prop := y.glob.config ≠ 1 ∨ y.duo.st ≠ 3 ∨ n = 0 ∨ 256 < n ∨ 4096 < a % 4096 + n

theorem Sys.not_peerRefused {a n : Nat} (hc : y.glob.config = 1) (h3 : y.duo.st = 3) (h0 : 0 < n) (hn : n ≤ 256) (ha : a % 4096 + n ≤ 4096) :
    ¬ y.peerRefused a n := by
  rintro (h | h | h | h | h)
  · exact h hc
  · exact h h3
  all_goals omega

section
variable {tag a n : Nat} {bs : List Byte} (htag : tag < 1024)

theorem exec_peerWrite (tag : Nat) (hn : bs.length = n) (hr : ¬ s.sys.peerRefused a n) :
    exec (.peerWindowRequest true tag a n bs) s = .next { s with sys :=
      (if s.sys.mem.memEnd < a + n then s.sys else if s.sys.sealed a n then s.sys.emit (.crd 1 1 0 (units n))
        else { s.sys.emit (.crd 1 1 0 (units n)) with mem := s.sys.mem.store .host a bs }) } := by
  subst hn
  change execPeerWindowRequest true tag a _ bs s = _
  rw [execPeerWindowRequest, onSys]
  dsimp only
  rw [if_pos rfl, if_neg (by exact hr)]
  rfl

/-- A read of the peer answered with what memory gives (R387), its credit returned. -/
def Sys.answerPeer (tag a n : Nat) (y : Sys) : Sys :=
  match y.mem.fails .host a n with
  | some b => ((y.uncorrectable b).logFault { cls := 3, action := 4, status := 0x30, block := 1, addr := 64 * b }).hpost (.harness "CPLE" [tag, 1] [])
  | none => Sys.hpost (.harness "CPL" [tag] (y.mem.load .host a n).2) { y with mem := (y.mem.load .host a n).1 }

include htag

theorem exec_peerRead (bs : List Byte) (hr : ¬ s.sys.peerRefused a n) :
    exec (.peerWindowRequest false tag a n bs) s = .next { s with sys :=
      (if s.sys.mem.memEnd < a + n then s.sys.hpost (.harness "CPLE" [tag, 1] []) else (s.sys.emit (.crd 1 0 1 0)).answerPeer tag a n) } := by
  change execPeerWindowRequest false tag a n bs s = _
  rw [execPeerWindowRequest, onSys, Nat.mod_eq_of_lt htag]
  simp only [Bool.false_eq_true, if_false]
  rw [if_neg (by exact hr)]
  rfl

/-- What the completion of a read of this die makes of the machine (R387). -/
def Sys.peerCompleted (tag : Nat) (ok : Bool) (bs : List Byte) (y : Sys) : Sys :=
  match y.duo.hm.readOf tag with
  | none => y.lateCpl
  | some r =>
    if !ok then ((y.endPeerRead r).failXfer r.xfer 0x30).linkFlows
    else if bs.length ≠ r.len then (y.modLink fun l => { l with malformed := satInc l.malformed }).linkEvent 8
    else ((y.endPeerRead r).landed r bs).linkFlows

theorem exec_peerWindowCompletion (ok : Bool) (bs : List Byte) (h3 : s.sys.duo.st = 3) :
    exec (.peerWindowCompletion tag ok bs) s = .next { s with sys := s.sys.peerCompleted tag ok bs } := by
  change execPeerWindowCompletion tag ok bs s = _
  rw [execPeerWindowCompletion, onSys, if_neg (by simp [h3]), Nat.mod_eq_of_lt htag]
  rfl

/-- CPL_TIMEOUT of a read over the Harness (R329). -/
theorem exec_cplTimeout_harness {r : Read} (hc : s.sys.glob.config ≠ 0) (h : s.sys.duo.hm.readOf tag = some r) :
    exec (.cplTimeout 1 tag) s = .next { s with sys := ((((s.sys.endPeerRead r).linkEvent 3).logLink).failXfer r.xfer 0x30).linkFlows } := by
  change execCplTimeout 1 tag s = _
  rw [execCplTimeout, onSys, if_pos (by simp [Sys.isHarness, hc]), Nat.mod_eq_of_lt htag, h]
end

theorem exec_harnessCreditReturn {ph pd nph : Nat} (h1 : ph < 2 ^ 10) (h2 : pd < 2 ^ 20) (h3 : nph < 2 ^ 10) (hs : s.sys.duo.st = 3) :
    exec (.harnessCreditReturn ph pd nph) s =
      .next { s with sys := ((((s.sys.hledgerBack 0 ph).hledgerBack 1 pd).hledgerBack 2 nph).hflush).linkFlows } := by
  change execHarnessCreditReturn ph pd nph s = _
  rw [execHarnessCreditReturn, onSys, if_pos hs, Nat.mod_eq_of_lt h1, Nat.mod_eq_of_lt h2, Nat.mod_eq_of_lt h3]

end
end Sys2Proof.Machine

section
open Sys2Proof.Machine

/-- Settles O58: each row has one equation that gives its effect outside its guard and inside it, and the clauses of the statement are its cases. -/
theorem duoRows : Obligations.DuoRows := by
  refine ⟨fun s => ⟨exec_harnessTrainEnd_idle, fun hc hs => ?_, fun hc hr h hp => ⟨?_, ?_⟩,
      fun hh hp h1 h2 => ⟨?_, ?_⟩, exec_hbeatSend_idle, fun hc h => ?_, fun hc h => ?_, exec_peerSilenceTimeout_idle, fun hc hp y hy => ⟨fun hr he hd => ?_,
      fun hr he => ?_, fun hr hd => ?_⟩, fun h => ?_, fun h => ⟨_, rfl, ?_⟩, fun ok hok => ⟨fun h => ?_, fun h he => ?_, fun h he => ⟨_, rfl, ?_⟩⟩⟩,
    fun c d x dg ds s => ⟨exec_hello_idle c d dg x ds, fun hc hs => ⟨fun h => ?_, fun h1 h2 h3 h4 => ?_⟩⟩,
    fun w e d0 s y he hd0 => ⟨exec_hbeat_idle w e d0, fun hc hs hy => ⟨fun hd hp => ⟨fun h => ?_, fun h => ?_, fun h => ?_⟩, fun hd => ?_⟩⟩,
    fun l t h sr p f s hl ht hsr hp hf => ⟨exec_beampos_idle l t h sr p f, fun h3 hb y hy => ?_⟩,
    fun s y hy hc h3 => ⟨fun q w => ?_, fun q a c hr => ?_, fun t n c z hz hr ht hn hf => ⟨_, rfl, ?_⟩, fun j st hj hs h2 hr => ?_⟩,
    fun tag k e a n st bs s y m htag hk he hn hst hb hy hm => ⟨fun hc h3 => ⟨fun h => ?_, fun hd ha hf => ?_⟩, fun h => ?_, fun h3 hp ht => ⟨fun ho => ?_, fun ho => ?_⟩⟩,
    fun key b k f dg s hc hr h3 ha hb hk => ⟨fun h => ?_, fun w h => ?_, fun h => ?_, ?_⟩,
    fun tag a n bs s htag hc h3 hn0 hn ha => ⟨fun h => ⟨?_, fun hb => ?_⟩, fun h => ⟨fun hb hs => ⟨_, rfl, ?_⟩, fun hf => ⟨_, rfl, ?_⟩⟩, fun h => ?_,
      fun r h => ⟨?_, fun hb => ?_, ?_⟩, fun ph pd nph hph hpd hnph => exec_harnessCreditReturn hph hpd hnph h3⟩⟩
  · obtain ⟨h0, h1, h2, h3⟩ := s.sys.formed_pools
    exact ⟨_, exec_harnessTrainEnd hc hs, rfl, h0, h1, h2, h3, rfl⟩
  · rw [exec_duoFormTimeout, if_pos ⟨hc, hr, h, hp⟩]
  · rw [exec_duoHoldTimeout, if_neg (by rintro ⟨-, -, h1, h2⟩; exact h.elim h1 h2)]
  · rw [exec_duoHoldTimeout, if_pos ⟨hh, hp, h1, h2⟩]
  · rw [exec_duoFormTimeout, if_neg (by rintro ⟨-, -, h, -⟩; exact h.elim h1 h2)]
  · rw [exec_hbeatSend hc (h.imp id .inl)]
    rcases h with h | h
    · rw [if_pos h]
      rfl
    · rw [if_neg (by simp [h]), Sys.hsend_formed _ h]
      rfl
  · rw [exec_hbeatSend hc (.inr (.inr h)), if_neg (by simp [h]), Sys.hsend, if_neg (by simp [h]), if_pos h]
    rfl
  · rw [hy, exec_peerSilenceTimeout hc hp, Sys.takeRole_worker (by rwa [Sys.silent_role]) (by rwa [Sys.silent_epoch]) (by rwa [Sys.silent_dieCalm])]
    rfl
  · rw [hy, exec_peerSilenceTimeout hc hp, Sys.takeRole_exhausted (by rwa [Sys.silent_role]) (by rwa [Sys.silent_epoch])]
    rfl
  · rw [hy, exec_peerSilenceTimeout hc hp, Sys.takeRole_manager (by rwa [Sys.silent_role]) (by rwa [Sys.silent_dieCalm])]
    rfl
  · change onSys Sys.assume s = _
    rw [onSys, Sys.assume, if_neg (by simp [h])]
    rfl
  · change onSys Sys.assume s = _
    rw [onSys, Sys.assume, if_pos h]
    rfl
  · change onSys Sys.takeover s = _
    rw [onSys, Sys.takeover_barred (by rwa [hok] at h)]
    rfl
  · change onSys Sys.takeover s = _
    rw [onSys, Sys.takeover_allowed (by rwa [hok] at h), if_pos he]
  · change onSys Sys.takeover s = _
    rw [onSys, Sys.takeover_allowed (by rwa [hok] at h), if_neg he]
    rfl
  · refine exec_hello_differs ds hc hs ?_
    rintro ⟨h1, h2, h3, h4⟩
    rcases h with h | h | ⟨h, h'⟩ | ⟨h, h'⟩
    · exact h h1
    · exact h2 h
    · exact h3.elim (· h) h'
    · exact h4.elim (· h) h'
  · subst h1
    rw [exec_hello_agrees ds hc hs ⟨rfl, h2, Decidable.not_or_of_imp h3, Decidable.not_or_of_imp h4⟩]
    rfl
  · rw [exec_hbeat he hd0 hc hs, hp, Sys.claimNow_awake (y := s.sys.heard w e d0) hd, if_neg (by exact Nat.not_lt.2 h.le),
      if_neg (by rintro ⟨h', -⟩; exact absurd h' (Nat.ne_of_lt h)), hy]
    rfl
  · rw [exec_hbeat he hd0 hc hs, hp, Sys.claimNow_awake (y := s.sys.heard w e d0) hd, if_pos (by exact h), Sys.settle_own, hy]
    rfl
  · rw [exec_hbeat he hd0 hc hs, hp, Sys.claimNow_awake (y := s.sys.heard w e d0) hd, if_neg (by exact Nat.not_lt.2 h.ge), hy]
    by_cases hi : s.sys.glob.duoId = true
    · rw [if_neg (by rintro ⟨-, h'⟩; exact absurd (hi.symm.trans h') (by decide)), if_pos hi, h]
      rfl
    · rw [if_pos ⟨h.symm, by exact Bool.eq_false_iff.2 hi⟩, if_neg hi]
      rfl
  · rw [exec_hbeat he hd0 hc hs, Sys.claimNow_calm (y := s.sys.heard w e d0) hd, Sys.settle_own, hy]
    rfl
  · rw [hy, exec_beampos h hl ht hsr hp hf h3 hb]
    rfl
  · rw [hy, exec_sched_doorbell hc h3]
    rfl
  · rw [hy, exec_sched_fire hc h3 q a c hr]
    rfl
  · exact exec_sched_dispatch hc h3 (by rw [hz, hy]; rfl) hr ht hn hf
  · rw [hy, exec_sched_cancel hc h3 hj hs h2 hr]
    rfl
  · rw [exec_rreq a htag hk he hn hc h3, hy, Sys.answerRead_barred (y := s.sys.emit (.crd 1 0 1 0)) tag k e h3 h]
  · rw [exec_rreq a htag hk he hn hc h3, hy, Sys.answerRead_reads (y := s.sys.emit (.crd 1 0 1 0)) tag k e h3 hd ha hf]
    rfl
  · rw [exec_rrsp bs htag hk he hst, Sys.answered, ← hm, if_pos h]
  · rw [exec_rrsp bs htag hk he hst, Sys.answered, ← hm, if_neg (by simp [h3, hp, ht]), if_pos ho]
  · rw [exec_rrsp bs htag hk he hst, Sys.answered, ← hm, if_neg (by simp [h3, hp, ht]), if_neg (by simp [ho]), List.take_of_length_le hb]
  · rw [exec_digest key dg hc hr h3 ha, Sys.digestIn, h]
    rfl
  · rw [exec_digest key dg hc hr h3 ha, Sys.digestIn, h]
    rfl
  · change onSys _ s = _
    rw [onSys, if_pos h]
  · change execBandDigestLate b k f s = _
    rw [execBandDigestLate, Nat.mod_eq_of_lt hb, Nat.mod_eq_of_lt hk]
    rfl
  · rw [exec_peerRead htag bs (Sys.not_peerRefused hc h3 hn0 hn ha), if_pos h]
  · rw [exec_peerWrite tag hb (Sys.not_peerRefused hc h3 hn0 hn ha), if_pos h]
  · rw [exec_peerWrite tag hb (Sys.not_peerRefused hc h3 hn0 hn ha), if_neg (by omega), if_neg (by simp [hs])]
    rfl
  · have hf' : (s.sys.emit (.crd 1 0 1 0)).mem.fails .host a n = none := hf
    rw [exec_peerRead htag bs (Sys.not_peerRefused hc h3 hn0 hn ha), if_neg (by omega), Sys.answerPeer, hf']
  · rw [exec_peerWindowCompletion htag true bs h3, Sys.peerCompleted, h]
  · rw [exec_peerWindowCompletion htag false bs h3, Sys.peerCompleted, h]
    rfl
  · rw [exec_peerWindowCompletion htag true bs h3, Sys.peerCompleted, h]
    simp [hb]
  · exact exec_cplTimeout_harness htag (by simp [hc]) h
end
end

section
/-! ## Vision commands (O50) -/

namespace Sys2Proof.Machine

section
variable {s : State} {y : Sys}

/-! ### A vision packet at the head of its queue -/

theorem Pkt.reservedOk_vision {p : Pkt} (h : p.reservedOk [2, 3] = true) :
    (fld (p.word 0) 18 14 != 0 || p.word 1 != 0 || ((List.range 12).any fun i => p.word (4 + i) != 0)) = false := by
  obtain ⟨h0, hw⟩ := (Bool.and_eq_true _ _).mp h
  have hz : ∀ i, i < 15 → [2, 3].contains (i + 1) = false → p.word (i + 1) = 0 := fun i hi hc => by
    have := List.all_eq_true.mp hw i (List.mem_range.mpr hi)
    rw [hc, Bool.false_or] at this
    exact of_decide_eq_true this
  have h1 : p.word 1 = 0 := hz 0 (by decide) (by decide)
  have ha : ((List.range 12).any fun i => p.word (4 + i) != 0) = false := List.any_eq_false.mpr fun i hi => by
    have hlt := List.mem_range.mp hi
    have := hz (i + 3) (by omega) (by simp)
    simp [show 4 + i = i + 3 + 1 by omega, this]
  simp [beq_iff_eq.mp h0, h1, ha]

/-- A well-formed vision command joins the block queue when it has a free slot (R218, R297). -/
def Sys.visionQueue (c : VCmd) (q : Nat) (y : Sys) : Sys :=
  if (y.pool 3 1).free = 0 then y
  else (Sys.startHead q (some c.id) ((y.modPool 3 1 (Pool.take 1)).modVision fun v => { v with cmds := v.cmds ++ [c], next := v.next + 1 })).visionPreempt c.kind

/-- The command a vision packet's descriptor gives, admitted by its form and its regions (R203). -/
def Sys.visionAdmit (c : VCmd) (addr q : Nat) (y : Sys) : Sys :=
  if c.formOk = false ∨ addr % 64 ≠ 0 then y.packetComplete q 0x10 0
  else if (y.regionsOk c).2 then (y.regionsOk c).1.visionQueue c q else (y.regionsOk c).1.packetComplete q 0x10 0

section
variable {q : Nat} {p : Pkt} {rest : List Pkt} {z : Sys} {bs : List Byte}
variable {x : Sys} (hslots : (x.queue q).slots = p :: rest) (htype : p.type = 3)
  (hread : ∃ w, x.vread none (x.queue q).ctx (p.word 2 + 2 ^ 32 * p.word 3) 128 = (w, .ok bs)) (htake : x.takeIn q = (y, some p))
  (hres : p.reservedOk [2, 3] = true) (hread' : y.vread none (x.queue q).ctx (p.word 2 + 2 ^ 32 * p.word 3) 128 = (z, .ok bs))
include hslots htype hread htake hres hread'

theorem Sys.visionPacket_head {want : Nat → Bool} (hw : want (fld (wordAt bs 0) 0 2) = true) : x.visionPacket want q =
    z.visionAdmit { id := z.vision.next, queue := q, ctx := (x.queue q).ctx, job := p.job, desc := bs } (p.word 2 + 2 ^ 32 * p.word 3) q := by
  obtain ⟨w, hread⟩ := hread
  rw [Sys.visionPacket, hslots]
  dsimp only
  rw [if_neg (by simp [htype]), hread]
  dsimp only
  rw [if_neg (by simp [hw]), htake]
  dsimp only
  rw [Pkt.reservedOk_vision hres, if_neg (by simp), hread']
  dsimp only
  rw [Sys.visionAdmit]
  split
  · rfl
  · split
    · next h => simp [h]
    · next h => simp [h]; rfl
end

/-! ### Engines and flag lines -/

/-- The block queue's choice for a free engine asks for its permits and runs with them (R218, R221). -/
def Sys.visionAsk (n kind : Nat) (c : VCmd) (y : Sys) : Sys :=
  let a := (y.modVCmd c.id fun k => { k with st := 3, engine := n }).askNow
    { holds := [{ who := .vision n, cost := (y.modVCmd c.id fun k => { k with st := 3, engine := n }).cost (if kind = 2 then 25 else 24), ctx := c.ctx }],
      prio := (y.modVCmd c.id fun k => { k with st := 3, engine := n }).basePrio c.ctx, act := .vision n c.id }
  if a.2 then a.1.visionRun c.id else a.1

theorem exec_visionCommandStart {n : Nat} (hn : n < 6) (hu : s.sys.domainUp 11 = true) : exec (.visionCommandStart n) s = .next { s with sys :=
    (if (s.sys.onEngine n).isSome then s.sys.visionPreempt (if n < 4 then 0 else 2)
      else (s.sys.visionNext (if n < 4 then 0 else 2)).elim s.sys fun c => s.sys.visionAsk n (if n < 4 then 0 else 2) c) } := by
  change execVisionCommandStart n s = _
  rw [execVisionCommandStart, onSys, Nat.mod_eq_of_lt hn]
  dsimp only
  rw [if_neg (by simp [hu])]
  cases s.sys.visionNext (if n < 4 then 0 else 2) <;> rfl

/-- The next stripe is out: STRIPES advances, waiters are released, and the last one ends the command (R215, R216). -/
def Sys.stripeDone (c : VCmd) (same : Bool) (y : Sys) : Sys :=
  let c' := { c with stripes := c.stripes + 1, row := 0, level := 0 }
  let v := ((y.modVCmd c.id fun _ => c').writeFlag c' false).flagRelease c' none same
  if c'.stripeCount ≤ c'.stripes then v.visionEnd c' 0x00 else v

/-- What the features of a run leave in the counters (R214, R222). -/
def Sys.countFeatures (c : VCmd) (m : Img) (y : Sys) : Sys :=
  let z := y.modVision fun v => { v with features := satAdd v.features (c.features m).1.length }
  if c.maxFeat < (c.features m).2 then z.visionEvent 0 else z

section
variable {n : Nat} (same : Bool) {c : VCmd} {z w : Sys} {a b : Img} (hn : n < 6) (hc : s.sys.onEngine n = some c) (hst : c.st = 1)
  (hj : (s.sys.job c.job).st = 2) (ha : s.sys.readImg c 0 = (y, .ok a))
include hn hc hst hj ha

theorem exec_flagStripe_features (hk : c.kind = 2)
    (hw : y.vwrite none c.ctx c.out (c.featBytes (a.level c.featLevel)) none = (z, .ok ())) :
    exec (.flagStripeAdvance ⟨n, same⟩) s = .next { s with sys := (z.countFeatures c (a.level c.featLevel)).stripeDone c same } := by
  change execFlagStripeAdvance ⟨n, same⟩ s = _
  rw [execFlagStripeAdvance, onSys, Nat.mod_eq_of_lt hn, hc]
  dsimp only
  rw [if_neg (by simp [hst, hj]), ha]
  dsimp only
  rw [if_pos hk, hw]
  rfl

theorem exec_flagStripe_flow (hk : c.kind ≠ 2) (hb : y.readImg c 1 = (z, .ok b))
    (hw : z.writeStripes c (c.flow a b) (if 0 < c.restarts then 0 else c.stripes) (c.stripes + 1) = (w, .ok ())) :
    exec (.flagStripeAdvance ⟨n, same⟩) s = .next { s with sys :=
      (if c.stripeCount ≤ c.stripes + 1 then w.countFlow (c.flow a b) else w).stripeDone c same } := by
  change execFlagStripeAdvance ⟨n, same⟩ s = _
  rw [execFlagStripeAdvance, onSys, Nat.mod_eq_of_lt hn, hc]
  dsimp only
  rw [if_neg (by simp [hst, hj]), ha]
  dsimp only
  rw [if_neg hk, hb]
  dsimp only
  rw [hw]
  rfl
end

/-- The command on an engine stops, or ends with its job (R217, R219). -/
def Sys.visionStopped (c : VCmd) (row level : Nat) (dir fin : Bool) (y : Sys) : Sys :=
  if (y.job c.job).st = 5 then y.visionFail c (y.job c.job).cancelWith
  else if c.st = 2 ∨ (c.st = 1 ∧ ((y.job c.job).st = 3 ∨ y.duo.hold = true)) then y.visionHalt c row level dir fin
  else y

theorem exec_visionStop {n : Nat} (row level : Nat) (dir fin : Bool) {c : VCmd} (hn : n < 6) (hc : s.sys.onEngine n = some c) :
    exec (.visionStop n row level dir fin) s = .next { s with sys := s.sys.visionStopped c row level dir fin } := by
  change execVisionStop n row level dir fin s = _
  rw [execVisionStop, onSys, Nat.mod_eq_of_lt hn, hc]
  rfl

/-- The first run of a command takes a sequence number and clears its flag line (R215). -/
theorem Sys.visionRun_first {id : Nat} {c : VCmd} (hc : y.vision.cmds.find? (fun c => c.id == id) = some c) (hs : c.started = false) :
    y.visionRun id = ((y.seqNo.2.modVCmd id fun c => { c with st := 1, started := true, startSeq := y.bridle.seq }).vwrite none c.ctx c.flag
      (List.replicate 64 0) none).1 := by
  rw [Sys.visionRun, hc]
  dsimp only
  rw [if_neg (by simp [hs])]
  rfl

end
end Sys2Proof.Machine

section
open Sys2Proof.Machine

/-- Settles O50: a vision packet is carried through its checks in the order of R203, an engine's rows are the cases of what stands on it. -/
theorem visionRows : Obligations.VisionRows := by
  refine ⟨fun q k s p rest y z bs c i hslots htype hread hk hi htake hres hread' hc => ?_, fun n k s hn hk hu => ⟨fun h => ?_, fun h hx => ?_, fun c y z b h hx hy ha => ?_⟩,
    fun id y c hc hs => ⟨_, rfl, Sys.visionRun_first hc hs⟩, fun n same s c y z w a b hn hc hst hj ha c' hc' fin hfin => ⟨fun hk m f hm hf hw => ?_, fun hk hb hw => ?_⟩,
    fun n row level dir fin s c hn hc => ⟨fun h => ?_, fun h hs => ?_, fun h h2 h1 => ?_⟩⟩
  · have hx : exec i s = .next { s with sys := z.visionAdmit c (p.word 2 + 2 ^ 32 * p.word 3) q } := by
      have hh := fun want => Sys.visionPacket_head (want := want) hslots htype hread htake hres hread'
      subst hk hc
      have h4 : fld (wordAt bs 0) 0 2 < 4 := Nat.mod_lt _ (by decide)
      rw [hi]
      split
      · next h1 =>
        change onSys _ s = _
        rw [onSys, hh _ (by simp [h1])]
      · split
        · next h2 =>
          change onSys _ s = _
          rw [onSys, hh _ (by simp [h2])]
        · next h1 h2 =>
          change onSys _ s = _
          rw [onSys, hh _ (by simp; omega)]
    rw [hx, Sys.visionAdmit]
    refine ⟨fun h => by rw [if_pos h], fun hf ha w => ?_⟩
    have hn : ¬ (c.formOk = false ∨ (p.word 2 + 2 ^ 32 * p.word 3) % 64 ≠ 0) := by
      rintro (h | h)
      · exact absurd (hf.symm.trans h) (by decide)
      · exact h ha
    rw [if_neg hn]
    refine ⟨fun h => by simp [h], fun h => ⟨fun h0 => ?_, fun h0 => ?_⟩⟩
    · simp [h, Sys.visionQueue, h0]
    · rw [h, if_pos rfl, Sys.visionQueue, if_neg h0]
  · rw [exec_visionCommandStart hn hu, if_pos (Option.isSome_iff_ne_none.2 h), hk]
  · rw [exec_visionCommandStart hn hu, if_neg (by simp [h]), ← hk, hx]
    rfl
  · have hprice : (if k = 2 then 25 else 24) = if n < 4 then 24 else 25 := by
      rw [hk]
      split <;> rfl
    rw [exec_visionCommandStart hn hu, if_neg (by simp [h]), ← hk, hx, Option.elim, Sys.visionAsk, hprice, ← hy, ha]
  · subst hfin hc' hm hf
    rw [exec_flagStripe_features same hn hc hst hj ha hk hw]
    rfl
  · subst hfin hc'
    rw [exec_flagStripe_flow same hn hc hst hj ha hk hb hw]
    rfl
  · rw [exec_visionStop row level dir fin hn hc, Sys.visionStopped, if_pos h]
  · rw [exec_visionStop row level dir fin hn hc, Sys.visionStopped, if_neg h, if_pos hs]
  · rw [exec_visionStop row level dir fin hn hc, Sys.visionStopped, if_neg h, if_neg (by
      rintro (h' | ⟨h', hd⟩)
      · exact h2 h'
      · obtain ⟨h3, hh⟩ := h1 h'
        simp [h3, hh] at hd)]
end
end

section
/-! ## The vector unit (O45) -/

namespace Sys2Proof.Machine

section
variable {c : Nat} {s : State} {r : Run} (h : s.Issues c r)
include h

/-- A VOP with every operand it uses in place and no EDRAIN in flight writes its lanes (R84). -/
theorem vop_ok {useA useB : Bool} {d a b : Nat} {f : Run → List Nat → List Nat → List Nat} (hd : lanesOk (r.x d).toNat = true)
    (ha : useA = true → lanesOk (r.x a).toNat = true) (hb : useB = true → lanesOk (r.x b).toNat = true) (hq : ∀ q ∈ r.cmds, q.kind ≠ .drain) :
    vop useA useB c d a b f s = .next { s with sys := (s.sys.lsWrite c (r.x d).toNat (laneBytes
      (f r (if useA then lanes (s.sys.lsRead c (r.x a).toNat 64) else []) (if useB then lanes (s.sys.lsRead c (r.x b).toNat 64) else [])))).retire c r } := by
  have hi : ∀ p, s.sys.interlock c p 64 = s.sys := fun p => interlock_none h.run hq
  have ha' : (!useA || lanesOk (r.x a).toNat) = true := by cases useA <;> simp_all
  have hb' : (!useB || lanesOk (r.x b).toNat) = true := by cases useB <;> simp_all
  rw [vop, onSys_awl h]
  simp only [hd, ha', hb', Bool.and_self, if_true, hi, ite_self, h.run]

theorem vop_refused {useA useB : Bool} {d a b : Nat} {f : Run → List Nat → List Nat → List Nat}
    (hbad : lanesOk (r.x d).toNat = false ∨ (useA = true ∧ lanesOk (r.x a).toNat = false) ∨ (useB = true ∧ lanesOk (r.x b).toNat = false)) :
    vop useA useB c d a b f s = .next { s with sys := s.sys.sliverEnd c 0x10 false } := by
  rw [vop, onSys_awl h]
  dsimp only
  rw [if_neg (by rcases hbad with h | ⟨hu, h⟩ | ⟨hu, h⟩ <;> simp_all)]
  rfl

/-- A VOP that writes VA (R84). -/
theorem vopAcc_ok {useB : Bool} {a b : Nat} {f : Run → List Nat → List Nat → List Nat} (ha : lanesOk (r.x a).toNat = true)
    (hb : useB = true → lanesOk (r.x b).toNat = true) (hq : ∀ q ∈ r.cmds, q.kind ≠ .drain) :
    vopAcc useB c a b f s = .next { s with sys := s.sys.retire c { r with va :=
      (f r (lanes (s.sys.lsRead c (r.x a).toNat 64)) (if useB then lanes (s.sys.lsRead c (r.x b).toNat 64) else [])).map (BitVec.ofNat 32) } } := by
  have hi : ∀ p, s.sys.interlock c p 64 = s.sys := fun p => interlock_none h.run hq
  have hb' : (!useB || lanesOk (r.x b).toNat) = true := by cases useB <;> simp_all
  rw [vopAcc, onSys_awl h]
  simp only [ha, hb', Bool.and_self, if_true, hi, ite_self, h.run]

/-- A row whose effect is a lane operation of two operands: it writes, or its sliver ends where an operand is out of place. -/
theorem vop_two {i : Instr} {d a b : Nat} {e : Nat → Nat → Nat} (hx : exec i s = vop true true c d a b (lane2 e) s) {u v : List Nat}
    (hu : u = lanes (s.sys.lsRead c (r.x a).toNat 64)) (hv : v = lanes (s.sys.lsRead c (r.x b).toNat 64)) :
    (lanesOk (r.x d).toNat = true → lanesOk (r.x a).toNat = true → lanesOk (r.x b).toNat = true → (∀ q ∈ r.cmds, q.kind ≠ .drain) →
      exec i s = .next { s with sys := (s.sys.lsWrite c (r.x d).toNat
        (((u.zip v).map fun q => e q.1 q.2).flatMap fun w => leBytes 4 (w % 2 ^ 32))).retire c r }) ∧
    (lanesOk (r.x d).toNat = false ∨ lanesOk (r.x a).toNat = false ∨ lanesOk (r.x b).toNat = false →
      exec i s = .next { s with sys := s.sys.sliverEnd c 0x10 false }) := by
  subst hu hv
  rw [hx]
  refine ⟨fun hd ha hb hq => vop_ok h hd (fun _ => ha) (fun _ => hb) hq, fun hbad => vop_refused h ?_⟩
  exact hbad.imp id (Or.imp (⟨rfl, ·⟩) (⟨rfl, ·⟩))

/-- A row whose effect is a VOP of one operand: it writes, or its sliver ends where an operand is out of place. -/
theorem vop_one {i : Instr} {d a : Nat} {f : Run → List Nat → List Nat → List Nat} (hx : exec i s = vop true false c d a 0 f s) {ws : List Nat}
    (hf : f r (lanes (s.sys.lsRead c (r.x a).toNat 64)) [] = ws) :
    (lanesOk (r.x d).toNat = true → lanesOk (r.x a).toNat = true → (∀ q ∈ r.cmds, q.kind ≠ .drain) →
      exec i s = .next { s with sys := (s.sys.lsWrite c (r.x d).toNat (ws.flatMap fun w => leBytes 4 (w % 2 ^ 32))).retire c r }) ∧
    (lanesOk (r.x d).toNat = false ∨ lanesOk (r.x a).toNat = false →
      exec i s = .next { s with sys := s.sys.sliverEnd c 0x10 false }) := by
  subst hf
  rw [hx]
  exact ⟨fun hd ha hq => vop_ok h hd (fun _ => ha) (by simp) hq, fun hbad => vop_refused h (hbad.imp id fun ha => .inl ⟨rfl, ha⟩)⟩

end
end Sys2Proof.Machine

section
open Sys2Proof.Machine

/-- Settles O45: every row is one of the two shapes of a VOP, whose checks and whose write are proved once. -/
theorem vectorRows : Obligations.VectorRows := by
  rintro c d a b s r z u v f g h rfl rfl rfl hu hv
  refine ⟨?_, ?_, fun hd hq => ?_, fun ha hq => ⟨?_, fun hb => ?_⟩, fun p => rfl⟩
  · simp only [List.forall_mem_cons]
    refine ⟨?_, ?_, ?_, ?_, ?_, ?_, ?_, ?_, by simp⟩
    · exact vop_two (e := fAdd) h rfl hu hv
    · exact vop_two (e := fSub) h rfl hu hv
    · exact vop_two (e := fMul) h rfl hu hv
    · exact vop_two (e := fMin) h rfl hu hv
    · exact vop_two (e := fMax) h rfl hu hv
    · exact vop_two (e := fDiv) h rfl hu hv
    · exact vop_two (e := fun x y => (x + y) % 2 ^ 32) h rfl hu hv
    · exact vop_two (e := fun x y => x * y % 2 ^ 32) h rfl hu hv
  · subst hu
    simp only [List.forall_mem_cons]
    refine ⟨?_, ?_, ?_, ?_, ?_, ?_, ?_, by simp⟩
    · exact vop_one (f := lane1 fExp2) h rfl rfl
    · exact vop_one (f := lane1 fRcp) h rfl rfl
    · exact vop_one (f := lane1 fRsq) h rfl rfl
    · exact vop_one (f := lane1 fCvtI) h rfl rfl
    · exact vop_one (f := lane1 fCvtF) h rfl rfl
    · exact vop_one (f := laneRed (tree fAdd 0)) h rfl rfl
    · exact vop_one (f := laneRed (tree fMax 0)) h rfl rfl
  · change vop false false c d 0 0 (fun r _ _ => r.va.map (·.toNat)) s = _
    rw [vop_ok h hd (by simp) (by simp) hq]
    rfl
  · change vopAcc false c a 0 (fun _ a _ => a) s = _
    rw [hu, vopAcc_ok h ha (by simp) hq]
    rfl
  · change vopAcc true c a b (fun r a b => ((a.zip b).zip r.va).map fun p => fFma p.1.1 p.1.2 p.2.toNat) s = _
    rw [hu, hv, vopAcc_ok h ha (fun _ => hb) hq]
    rfl
end
end

section
/-! ## The set unit and the gather/scatter unit (O46) -/

namespace Sys2Proof.Machine

section
variable {c a : Nat} {s : State} {r r' : Run} {y : Sys} (h : s.Issues c r) (hy : y = s.sys.interlock c 0 0x4000) (hr : (y.core c).run = some r')
include h hy hr

/-! ### Set commands -/

section
variable {d p : Nat} {q : SetD} (hp : p = (r.x a).toNat) (h4 : p % 4 = 0) (hls : p + 20 ≤ 0x4000) (hq : parseSet (y.lsRead c p 20) = some q)
  (haok : q.a.ok (q.nA * q.size) = true) (hab : y.placeBad c q.a 0 (q.nA * q.size) = false)
include hp h4 hls hq haok hab

/-- A set command whose descriptor and inputs pass writes what its rule gives of them, the counts to xd and SET_CNT (R86, R88). -/
theorem setOp_ok {useB : Bool} {f : SetD → List SElem → List SElem → List Byte → Option (List SElem × Nat)} {es : List SElem} {n : Nat}
    (hb : useB = true → q.b.ok (q.nB * q.size) = true ∧ y.placeBad c q.b 0 (q.nB * q.size) = false) (ho : useB = false → q.out.ok 0 = true)
    (hf : f q (q.elems q.nA (y.placeRead c q.a 0 (q.nA * q.size))) (if useB then q.elems q.nB (y.placeRead c q.b 0 (q.nB * q.size)) else [])
      (if lsOk q.nB q.nA then y.lsRead c q.nB q.nA else []) = some (es, n)) (hout : q.out.ok (q.bytes es).length = true) :
    setOp useB c d a f s = .next { s with sys :=
      (y.placeWrite c q.out 0 (q.bytes es)).retire c { r'.setx d (BitVec.ofNat 32 es.length) with setCnt := n } } := by
  have hform : (!q.a.ok (q.nA * q.size) || (useB && !q.b.ok (q.nB * q.size)) || (!useB && !q.out.ok 0)) = false := by
    cases useB <;> simp_all
  have hbad : (y.placeBad c q.a 0 (q.nA * q.size) || (useB && y.placeBad c q.b 0 (q.nB * q.size))) = false := by
    cases useB <;> simp_all
  rw [setOp, onSys_awl h]
  dsimp only
  rw [← hp, if_neg (by rw [lsOk_iff.mpr hls]; simp [h4]), Sys.access, ← hy, hr]
  dsimp only
  rw [hq]
  dsimp only
  rw [hform, hbad, if_neg Bool.false_ne_true, if_neg Bool.false_ne_true, hf]
  dsimp only
  rw [hout, if_neg (by simp)]

end

/-! ### Gather and scatter -/

section
variable {p : Nat} {q : GsD} (hp : p = (r.x a).toNat) (h4 : p % 4 = 0) (hls : p + 16 ≤ 0x4000) (hq : parseGs (y.lsRead c p 16) = some q)
  (hab : y.placeBad c q.a 0 q.idxBytes = false) (haok : q.a.ok q.idxBytes = true)
include hp h4 hls hq haok hab

/-- A gather/scatter command whose descriptor and index list pass comes to its own effect (R90). -/
theorem gsOp_ok (f : GsD → List Nat → Run → Sys → Sys) :
    gsOp c a f s = .next { s with sys := f q (q.indices (y.placeRead c q.a 0 q.idxBytes)) r' y } := by
  rw [gsOp, onSys_awl h]
  dsimp only
  rw [← hp, if_neg (by rw [lsOk_iff.mpr hls]; simp [h4]), Sys.access, ← hy, hr]
  dsimp only
  rw [hq]
  dsimp only
  rw [hab, if_neg Bool.false_ne_true, if_pos haok]

end
end

end Sys2Proof.Machine

section
open Sys2Proof.Machine

/-- Settles O46: a set command and a gather/scatter command are carried through their checks once, each row supplies its rule. -/
theorem setAndGatherRows : Obligations.SetAndGatherRows := by
  refine ⟨fun c d a p s r r' y q h hp h4 hls hy hr hq haok hab ea hea => ⟨fun hbok hbb eb heb hsa hsb => ?_, fun ho => ⟨fun es hes h1 h256 hout => ?_,
      fun es hes hm hm' hout => ?_⟩⟩,
    fun c a p s r r' y q is h hp h4 hls hy hr hq hab haok his => ⟨fun ho hb hbad => ?_, fun hb ho hbad bs n hbs hn => ⟨?_, fun h4' good hgood =>
      ⟨fun he hpool => ?_, fun he hgb => ?_⟩⟩⟩⟩
  · subst hea heb
    simp only [List.forall_mem_cons]
    refine ⟨fun hout => ?_, fun hout => ?_, by simp⟩
    · change execSint c d a s = _
      rw [execSint]
      exact setOp_ok h hy hr hp h4 hls hq haok hab (fun _ => ⟨hbok, hbb⟩) (by simp) (by simp [hsa, hsb]) hout
    · change execSmrg c d a s = _
      rw [execSmrg]
      exact setOp_ok h hy hr hp h4 hls hq haok hab (fun _ => ⟨hbok, hbb⟩) (by simp) (by simp [hsa, hsb]) hout
  · subst hea hes
    change execStopk c d a s = _
    rw [execStopk]
    exact setOp_ok h hy hr hp h4 hls hq haok hab (by simp) (fun _ => ho) (by simp [h1, h256]) hout
  · subst hea hes
    change execScmp c d a s = _
    rw [execScmp]
    exact setOp_ok h hy hr hp h4 hls hq haok hab (by simp) (fun _ => ho) (by simp [lsOk_iff.mpr hm, hm']) hout
  · subst his
    have hg : ((q.indices (y.placeRead c q.a 0 q.idxBytes)).any fun i => q.b.inRange q.size i && y.placeBad c q.b (i * q.size) q.size) = false := by
      refine List.any_eq_false.mpr fun i hi => ?_
      cases hir : q.b.inRange q.size i
      · simp
      · simp [hbad i hi hir]
    change execGath c a s = _
    rw [execGath, gsOp_ok h hy hr hp h4 hls hq hab haok]
    dsimp only
    rw [ho, hb, if_neg (by simp), hg, if_neg Bool.false_ne_true]
    rfl
  · subst his hbs hn
    change execScat c a s = _
    rw [execScat, gsOp_ok h hy hr hp h4 hls hq hab haok]
    dsimp only
    rw [ho, hb, if_neg (by simp), hbad, if_neg Bool.false_ne_true]
    rfl
  all_goals
    have h4n : q.n * q.size = 4 * q.n := by rw [h4', Nat.mul_comm]
    subst his hbs hn hgood
    rw [h4n] at hb hbad
    change execScadd c a s = _
    rw [execScadd, gsOp_ok h hy hr hp h4 hls hq hab haok]
    dsimp only
    rw [if_neg (by simp [h4', hb, ho]), hbad, h4n, h4']
  · rw [if_neg (by simp [he]), if_pos (by simp [he, hpool])]
    rfl
  · have hfine : (!r'.exact && ((q.indices (y.placeRead c q.a 0 q.idxBytes)).zipIdx.filter fun p => q.out.inRange 4 p.1).any
        fun p => y.placeBad c q.out (4 * p.1) 4) = false := by
      cases hx : r'.exact
      · rw [Bool.not_false, Bool.true_and]
        exact List.any_eq_false.mpr fun p hp => by simp [hgb hx p hp]
      · rfl
    rw [Bool.false_or, hfine, if_neg Bool.false_ne_true, if_neg (by rcases he with he | he <;> simp [he])]
    rfl
end
end

section
/-! ## Engine commands (O43) -/

namespace Sys2Proof.Machine

theorem lsOk_eq_false_iff {a n : Nat} : lsOk a n = false ↔ 0x4000 < a + n := by
  rw [lsOk, decide_eq_false_iff_not, Nat.not_le]

/-! ### A command joins those in flight -/

section
variable {c : Nat} {y : Sys} {r : Run} (hr : (y.core c).run = some r)
include hr

theorem issueCmd_mac {k : EngCmd} (hk : k.kind = .mac ∨ k.kind = .conv ∨ k.kind = .drain) :
    y.issueCmd c k = y.retire c { r with cmds := r.cmds ++ [k] } := by
  rw [Sys.issueCmd, hr]
  dsimp only
  rw [if_neg (by rcases hk with hk | hk | hk <;> simp [hk])]

theorem issueCmd_named {k : EngCmd} (hk : k.mask ≠ 0) : y.issueCmd c k = y.retire c { r with cmds := r.cmds ++ [k] } := by
  rw [Sys.issueCmd, hr]
  dsimp only
  rw [if_neg (by simp [hk])]

theorem issueCmd_unnamed {k : EngCmd} (hm : k.mask = 0) (hk : k.kind = .zero ∨ k.kind = .swap) : y.issueCmd c k = y.retire c r := by
  rw [Sys.issueCmd, hr]
  dsimp only
  rw [if_pos ⟨hm, hk⟩]

/-- With EXACT a command takes all of its steps itself (R97). -/
theorem issueMac_exact {k : EngCmd} (hk : k.kind = .mac ∨ k.kind = .conv) (he : r.exact = true) :
    y.issueMac c k = y.retire c { r with cmds := r.cmds ++ [k] } := by
  have hs : y.steal r k = (y, k) := by simp [Sys.steal, he]
  rw [Sys.issueMac, hr]
  dsimp only
  rw [hs]
  exact issueCmd_mac hr (hk.imp id .inl)

/-- Without EXACT an idle core may take the second half of its steps, and which half ends first is open (R97). -/
theorem issueMac_shared {k : EngCmd} (hk : k.kind = .mac ∨ k.kind = .conv) (hs : k.steal = 0) :
    ∃ n z, n ≤ 2 ∧ (z = y ∨ z = { y with chance := y.chance + 1 }) ∧ y.issueMac c k = z.retire c { r with cmds := r.cmds ++ [{ k with steal := n }] } := by
  rw [Sys.issueMac, hr]
  dsimp only
  unfold Sys.steal
  split
  · exact ⟨0, y, by omega, .inl rfl, by rw [issueCmd_mac hr (hk.imp id .inl), ← hs]⟩
  · exact ⟨Config.freeNat y.chance % 3, y.tick, by omega, .inr rfl, issueCmd_mac (y := y.tick) hr (hk.imp id .inl)⟩

end

theorem captureEmma_kind {rd : Nat → Nat → List Byte} {d : Emma} {round seed tensor : Nat} {k : EngCmd}
    (h : captureEmma rd d round seed tensor = some k) : k.kind = .mac ∧ k.steal = 0 := by
  unfold captureEmma at h
  dsimp only at h
  rw [Option.ite_none_left_eq_some] at h
  obtain ⟨-, h⟩ := h
  rw [← Option.some.inj h]
  exact ⟨rfl, rfl⟩

/-! ### EMMA -/

section
variable {c a p : Nat} {s : State} {r r' : Run} {y : Sys} (h : s.Issues c r) (hp : p = (r.x a).toNat)
include h hp

theorem exec_emma_misplaced (hbad : p % 4 ≠ 0 ∨ 0x4000 < p + 16) : exec (.emma c a) s = .next { s with sys := s.sys.sliverEnd c 0x10 false } := by
  change execEmma c a s = _
  rw [execEmma, onSys_awl h]
  dsimp only
  rw [← hp, if_pos (hbad.imp id lsOk_eq_false_iff.mpr)]
  rfl

/-- What an EMMA whose descriptor lies in place makes of the machine (R76, R82). -/
def Sys.emmaRead (c p : Nat) (r : Run) (y : Sys) : Sys :=
  (parseEmma (y.lsRead c p 16)).elim (y.sliverEnd c 0x10 false) fun d =>
    (captureEmma (fun a n => y.lsRead c a n) d r.round r.seed.toNat r.tensor.toNat).elim (y.sliverEnd c 0x10 false) fun k => y.issueMac c k

theorem exec_emma (hy : y = s.sys.interlock c 0 0x4000) (hr : (y.core c).run = some r') (h4 : p % 4 = 0) (hls : p + 16 ≤ 0x4000) :
    exec (.emma c a) s = .next { s with sys := y.emmaRead c p r' } := by
  change execEmma c a s = _
  rw [execEmma, onSys_awl h]
  dsimp only
  rw [← hp, if_neg (by rw [lsOk_iff.mpr hls]; simp [h4]), Sys.access, ← hy, hr, Sys.emmaRead]
  dsimp only
  cases parseEmma (y.lsRead c p 16) with
  | none => rfl
  | some d =>
    dsimp only [Option.elim]
    cases captureEmma (fun a n => y.lsRead c a n) d r'.round r'.seed.toNat r'.tensor.toNat <;> rfl
end

/-! ### EZERO, ESWAP, EDRAIN -/

section
variable {c a m : Nat} {s : State} {r : Run} (h : s.Issues c r)
include h

theorem exec_ezero (hm : m < 16) : exec (.ezero c m) s = .next { s with sys := s.sys.issueCmd c { kind := .zero, mask := m } } := by
  change execEzero c m s = _
  rw [execEzero, onSys_awl h, Nat.mod_eq_of_lt hm]

theorem exec_eswap (hm : m < 16) : exec (.eswap c m) s = .next { s with sys := s.sys.issueCmd c { kind := .swap, mask := m } } := by
  change execEswap c m s = _
  rw [execEswap, onSys_awl h, Nat.mod_eq_of_lt hm]

theorem exec_edrain {p : Nat} (hp : p = (r.x a).toNat) (hm : m < 16) (h4 : p % 4 = 0) (hls : p + 64 * popcount 4 m ≤ 0x4000)
    (hq : ∀ q ∈ r.cmds, q.kind ≠ .drain) :
    exec (.edrain c a m) s = .next { s with sys := s.sys.issueCmd c { kind := .drain, mask := m, addr := p } } := by
  change execEdrain c a m s = _
  rw [execEdrain, onSys_awl h]
  dsimp only
  rw [← hp, if_neg (by rw [lsOk_iff.mpr hls]; simp [h4]), access_none h.run hq, Nat.mod_eq_of_lt hm]

theorem exec_edrain_misplaced {p : Nat} (hp : p = (r.x a).toNat) (hbad : p % 4 ≠ 0 ∨ 0x4000 < p + 64 * popcount 4 m) :
    exec (.edrain c a m) s = .next { s with sys := s.sys.sliverEnd c 0x10 false } := by
  change execEdrain c a m s = _
  rw [execEdrain, onSys_awl h]
  dsimp only
  rw [← hp, if_pos (hbad.imp id lsOk_eq_false_iff.mpr)]
  rfl
end

/-- A command that joins those in flight and whose next word may be fetched leaves them and the next address. -/
theorem retire_cmds {c : Nat} {s : State} {r : Run} (g : r.GoesOn (r.pc + 4)) (qs : List EngCmd) :
    ({ s with sys := s.sys.retire c { r with cmds := qs } } : State) = s.putRun c { r with cmds := qs, pc := r.pc + 4 } :=
  retire_putRun (r := { r with cmds := qs }) ⟨g.aligned, g.low, g.high, g.sound⟩ s

end Sys2Proof.Machine
end

section
/-! ## Engine commands carried out (O43) -/

namespace Sys2Proof.Machine

section
variable {c : Nat} {s : State} {r : Run} {q : EngCmd} {rest : List EngCmd}

theorem modRun_putRun (hr : (s.sys.core c).run = some r) (f : Run → Run) : s.sys.modRun c f = (s.putRun c (f r)).sys := by
  have hr' : (tget {} s.sys.cores c).run = some r := hr
  simp [Sys.modRun, Sys.modCore, Sys.modCores, tmod, State.putRun, State.putCore, Sys.core, hr']

/-- Nothing earlier holds the oldest command back: a search from the front ends on it. -/
theorem find_range_zero {p : Nat → Bool} (h : p 0 = true) (n : Nat) : (List.range (n + 1)).find? p = some 0 := by
  rw [List.range_succ_eq_map, List.find?_cons_of_pos h]

theorem nextCmd_head (q : EngCmd) (rest : List EngCmd) : nextCmd q.kind (q :: rest) = some 0 :=
  find_range_zero (by simp [eligible]) rest.length

/-- The oldest command carried out on one of its engines (R457). -/
theorem applyOn_head (hr : (s.sys.core c).run = some r) (hc : r.cmds = q :: rest) {e : Nat} (hb : bitAt q.mask e = true) :
    s.sys.applyOn q.kind c e = (s.putRun c { r.applyEngine q e with
      cmds := if clrBit q.mask e = 0 then rest else { q with mask := clrBit q.mask e } :: rest }).sys.wakeEngines c := by
  rw [Sys.applyOn, hr]
  dsimp only
  rw [hc, List.length_cons, find_range_zero (by simp [eligible, hb])]
  dsimp only [List.getElem?_cons_zero]
  rw [modRun_putRun hr, hc]
  rfl

theorem exec_ezeroApply {e : Nat} (hr : (s.sys.core c).run = some r) (he : e < 4) (hc : r.cmds = q :: rest) (hb : bitAt q.mask e = true)
    (hk : q.kind = .zero) : exec (.ezeroApply c e) s = .next { s with sys := Sys.wakeEngines c (s.putRun c { r with
      engines := r.engines.set e { r.engines.getD e {} with active := List.replicate 16 0 }
      cmds := if clrBit q.mask e = 0 then rest else { q with mask := clrBit q.mask e } :: rest }).sys } := by
  change execEzeroApply c e s = _
  rw [execEzeroApply, onSys, Nat.mod_eq_of_lt he, ← hk, applyOn_head hr hc hb]
  simp only [Run.applyEngine, hk]

theorem exec_eswapApply {e : Nat} (hr : (s.sys.core c).run = some r) (he : e < 4) (hc : r.cmds = q :: rest) (hb : bitAt q.mask e = true)
    (hk : q.kind = .swap) : exec (.eswapApply c e) s = .next { s with sys := Sys.wakeEngines c (s.putRun c { r with
      engines := r.engines.set e { active := (r.engines.getD e {}).drain, drain := (r.engines.getD e {}).active }
      cmds := if clrBit q.mask e = 0 then rest else { q with mask := clrBit q.mask e } :: rest }).sys } := by
  change execEswapApply c e s = _
  rw [execEswapApply, onSys, Nat.mod_eq_of_lt he, ← hk, applyOn_head hr hc hb]
  simp only [Run.applyEngine, hk]

/-! ### The end of a command -/

theorem Run.applyEngine_cmds (r : Run) (q : EngCmd) (e : Nat) : (r.applyEngine q e).cmds = r.cmds := by
  unfold Run.applyEngine
  cases q.kind <;> dsimp only <;> split <;> rfl

theorem Core.applyCmd_cmds {k : Core} {r : Run} (h : k.run = some r) (q : EngCmd) : ∃ r', (k.applyCmd q).run = some r' ∧ r'.cmds = r.cmds := by
  have hf : ∀ (es : List Nat) (r : Run), (es.foldl (fun r e => r.applyEngine q e) r).cmds = r.cmds := by
    intro es
    induction es with
    | nil => exact fun _ => rfl
    | cons e es ih => exact fun r => (ih _).trans (r.applyEngine_cmds q e)
  rw [Core.applyCmd, h]
  refine ⟨_, rfl, ?_⟩
  dsimp only
  split
  · rfl
  · exact hf _ r

/-- The machine with the oldest command carried out and removed, its expansion saturations counted (R117, R132). -/
def Sys.ended (c : Nat) (q : EngCmd) (rest : List EngCmd) (y : Sys) : Sys :=
  ((y.modCore c fun k => k.applyCmd q).modRun c fun r => { r with cmds := rest }).modStall (c / 64) fun k => { k with expSat := satAdd k.expSat q.expSat }

theorem endCmd_head (hr : (s.sys.core c).run = some r) (hc : r.cmds = q :: rest) : s.sys.endCmd q.kind c =
    if q.malformed then (s.sys.ended c q rest).sliverEnd c 0x10 false else (s.sys.ended c q rest).wakeEngines c := by
  have hcore : ((s.sys.modCore c fun k => k.applyCmd q).core c) = (s.sys.core c).applyCmd q := Sys.core_modCore_same _ _ _
  have hrun : (s.sys.modCore c fun k => k.applyCmd q).modRun c (fun r => { r with cmds := r.cmds.eraseIdx 0 }) =
      (s.sys.modCore c fun k => k.applyCmd q).modRun c fun r => { r with cmds := rest } := by
    obtain ⟨r', hr', hc'⟩ := Core.applyCmd_cmds hr q
    have h : (({ s with sys := s.sys.modCore c fun k => k.applyCmd q } : State).sys.core c).run = some r' := by rw [hcore]; exact hr'
    exact (modRun_putRun h _).trans ((congrArg _ (by rw [hc', hc]; rfl)).trans (modRun_putRun h _).symm)
  rw [Sys.endCmd, hr]
  dsimp only
  rw [hc, nextCmd_head]
  dsimp only [List.getElem?_cons_zero]
  rw [hrun]
  rfl

end
end Sys2Proof.Machine
end

section
/-! ## What carrying out a command does (O43) -/

namespace Sys2Proof.Machine

section
variable {k : Core} {r : Run} {q : EngCmd} {e : Nat} {w : EngWork} (hr : k.run = some r) (hm : q.malformed = false) (hx : q.expSat = 0)
include hr hm hx

/-- A sound command without saturations acts on each engine it names, and an EDRAIN writes its banks (R457). -/
theorem Core.applyCmd_sound : k.applyCmd q = { k with
    run := some ((maskList 4 q.mask).foldl (fun r e => r.applyEngine q e) r)
    ls := if q.kind = .drain then k.ls.write lsGr q.addr (r.drainBytes q.mask) else k.ls } := by
  rw [Core.applyCmd, hr]
  dsimp only
  rw [if_neg (by simp [hm]), if_neg (by simp [hx])]

theorem Core.applyCmd_drain (hk : q.kind = .drain) : k.applyCmd q = { k with ls := k.ls.write 64 q.addr (r.drainBytes q.mask) } := by
  have hfold : ∀ es : List Nat, es.foldl (fun r e => r.applyEngine q e) r = r := by
    intro es
    induction es with
    | nil => rfl
    | cons e es ih =>
      have he : r.applyEngine q e = r := by simp only [Run.applyEngine, hk]
      rw [List.foldl_cons, he, ih]
  rw [Core.applyCmd_sound hr hm hx, hfold, if_pos hk, ← hr]
  rfl

/-- A command of one engine that takes all of its steps itself carries out that engine's work (R72, R73). -/
theorem Core.applyCmd_mac (hs : q.steal = 0) (he : e < 4) (hk : q.kind = .mac ∨ q.kind = .conv) (hmask : q.mask = 2 ^ e) (hw : q.work = [w])
    (hwe : w.engine = e) : k.applyCmd q = { k with run := some { r with
      engines := r.engines.set e ((r.engines.getD e {}).mac w).1, accSat := satAdd r.accSat ((r.engines.getD e {}).mac w).2 } } := by
  have hlist : ∀ e < 4, maskList 4 (2 ^ e) = [e] := by decide
  have hdrain : q.kind ≠ .drain := by rcases hk with hk | hk <;> simp [hk]
  have happly : r.applyEngine q e = { r with
      engines := r.engines.set e ((r.engines.getD e {}).mac w).1, accSat := satAdd r.accSat ((r.engines.getD e {}).mac w).2 } := by
    rcases hk with hk | hk <;> simp [Run.applyEngine, hk, hw, hwe, hs]
  rw [Core.applyCmd_sound hr hm hx, hmask, hlist e he, if_neg hdrain, List.foldl_cons, List.foldl_nil, happly]

end

/-- The three rows that end a command, by the kind they end (R457). -/
theorem exec_endCmd {c : Nat} {s : State} {p : EngKind × Instr} (hp : p ∈ [(EngKind.mac, Instr.emmaEnd c), (.conv, .econvEnd c), (.drain, .edrainEnd c)]) :
    exec p.2 s = onSys (Sys.endCmd p.1 c) s := by
  simp only [List.mem_cons, List.not_mem_nil, or_false] at hp
  rcases hp with rfl | rfl | rfl <;> rfl

theorem Engine.mac_clears (g : Engine) {w : EngWork} (hs : w.steps = []) (hz : w.zeroFirst = true) : (g.mac w).1.active = List.replicate 16 0 := by
  simp [Engine.mac, runSteps, hs, hz]

end Sys2Proof.Machine

section
open Sys2Proof.Machine

/-- Settles O43: issue goes through the two ways a command joins those in flight, carrying out through the oldest command's turn. -/
theorem engineCommands : Obligations.EngineCommands := by
  refine ⟨fun c y r g => retire_ok g y, fun c a n y r hr hq => interlock_none hr hq,
    fun c a p s r r' y h hp hy hr => ⟨exec_emma_misplaced h hp, fun h4 hls => ⟨fun hn => ?_, fun d k hd hk => ⟨fun he => ?_, fun he => ?_⟩⟩⟩,
    fun c a m p s r h g hm hp => ⟨fun h0 => ⟨?_, ?_⟩, fun h0 => ⟨?_, ?_⟩, fun h4 hls hq => ?_, exec_edrain_misplaced h hp⟩,
    fun c e s r q rest qs g hr he hc hb hqs hg => ⟨fun hk => ?_, fun hk => ?_⟩,
    fun c s r q rest hr hc y hy p hp hk => ⟨fun hm => ?_, fun hm => ?_⟩,
    fun k r q e w hr hm hx hs he => ⟨fun hk hmask hw hwe g n hgn => ?_, Core.applyCmd_drain hr hm hx⟩⟩
  · rw [exec_emma h hp hy hr h4 hls, Sys.emmaRead, hn]
    rfl
  · rw [exec_emma h hp hy hr h4 hls, Sys.emmaRead, hd, Option.elim, hk, Option.elim, issueMac_exact hr (.inl (captureEmma_kind hk).1) he]
  · obtain ⟨hkind, hsteal⟩ := captureEmma_kind hk
    obtain ⟨n, z, hn, hz, hx⟩ := issueMac_shared hr (.inl hkind) hsteal
    refine ⟨n, z, hn, hz, ?_⟩
    rw [exec_emma h hp hy hr h4 hls, Sys.emmaRead, hd, Option.elim, hk, Option.elim, hx]
  · rw [exec_ezero h hm, issueCmd_named h.run h0, retire_cmds g]
  · rw [exec_eswap h hm, issueCmd_named h.run h0, retire_cmds g]
  · rw [exec_ezero h hm, issueCmd_unnamed h.run h0 (.inl rfl), retire_putRun g]
  · rw [exec_eswap h hm, issueCmd_unnamed h.run h0 (.inr rfl), retire_putRun g]
  · rw [exec_edrain h hp hm h4 hls hq, issueCmd_mac h.run (.inr (.inr rfl)), retire_cmds g]
  · rw [hqs, hg]
    exact exec_ezeroApply hr he hc hb hk
  · rw [hqs, hg]
    exact exec_eswapApply hr he hc hb hk
  · rw [exec_endCmd hp, onSys, ← hk, endCmd_head hr hc, if_neg (by simp [hm]), hy]
    rfl
  · rw [exec_endCmd hp, onSys, ← hk, endCmd_head hr hc, if_pos hm, hy]
    rfl
  · obtain ⟨rfl, rfl⟩ := Prod.mk.inj hgn
    exact ⟨Core.applyCmd_mac hr hm hx hs he hk hmask hw hwe, rfl, fun hst hz => Engine.mac_clears _ hst hz⟩
end
end

section
/-! ## Convolution and pooling (O44) -/

namespace Sys2Proof.Machine

theorem Econv.capture_kind {d : Econv} {ls lb : Nat → Nat → Option (List Byte)} {round seed tensor : Nat} {q : EngCmd}
    (h : d.capture ls lb round seed tensor = some q) : q.kind = .conv ∧ q.steal = 0 := by
  unfold Econv.capture at h
  simp only at h
  rw [Option.ite_none_left_eq_some] at h
  obtain ⟨-, h⟩ := h
  cases ht : d.tensorGroup ls with
  | none =>
    rw [ht] at h
    cases h
  | some tg =>
    rw [ht] at h
    dsimp only at h
    split at h
    · cases h
    · rw [Option.ite_none_left_eq_some] at h
      obtain ⟨-, h⟩ := h
      rw [← Option.some.inj h]
      exact ⟨rfl, rfl⟩

/-- A pooling has its units and its place. -/
theorem econvPool_units {g : Tg} {d : Econv} (hv : g.vec = true) (hs : d.edge = true → g.setgs = true) (ho : d.out + 64 ≤ 0x4000) :
    (!g.vec || (d.edge && !g.setgs) || !lsOk d.out 64) = false := by
  cases he : d.edge <;> simp_all [lsOk_iff.mpr ho]

section
variable {c a p : Nat} {s : State} {r r' : Run} {y : Sys} {bs : List Byte} {d : Econv}

section
variable (hbs : bs = y.lsRead c p 64) (hd : d = econvFields bs)
include hbs hd

theorem Sys.econvAt_bad (form : Econv → Bool) (h : p % 4 ≠ 0 ∨ 0x4000 < p + 64 ∨ econvReserved bs = false ∨ d.ok = false) :
    y.econvAt c p form = none := by
  subst hd hbs
  unfold Sys.econvAt
  split
  · rfl
  · next hp =>
    obtain ⟨h4, hls⟩ := not_or.mp hp
    have hr : (econvReserved (y.lsRead c p 64) && (econvFields (y.lsRead c p 64)).ok) = false := by
      rcases h with h | h | h | h
      · exact absurd h h4
      · exact absurd (lsOk_eq_false_iff.mpr h) hls
      · simp [h]
      · simp [h]
    dsimp only
    rw [hr, if_neg Bool.false_ne_true]

theorem Sys.econvAt_good {form : Econv → Bool} (h4 : p % 4 = 0) (hls : p + 64 ≤ 0x4000) (hres : econvReserved bs = true) (hok : d.ok = true)
    (hf : form d = true) : y.econvAt c p form = some (some d) := by
  subst hd hbs
  rw [Sys.econvAt, if_neg (by rw [lsOk_iff.mpr hls]; simp [h4])]
  dsimp only
  rw [hres, hok, if_pos (by rfl), if_pos hf]

end

/-! ### Convolution -/

section
variable (h : s.Issues c r) (hy : y = s.sys.interlock c 0 0x4000) (hr : (y.core c).run = some r') (hp : p = (r'.x a).toNat)
include h hy hr hp

theorem econvMac_refused {form : Econv → Bool} (hat : y.econvAt c p form = none) :
    econvMac form c a s = .next { s with sys := y.sliverEnd c 0x10 false } := by
  rw [econvMac, onSys_awl h, Sys.access, ← hy, hr]
  dsimp only
  rw [← hp, hat]
  rfl

section
variable {form : Econv → Bool} (hat : y.econvAt c p form = some (some d))
include hat

theorem econvMac_lacking (hu : (y.tg r'.tg).eng < popcount 4 d.engines ∨ (d.edge = true ∧ (y.tg r'.tg).setgs = false)) :
    econvMac form c a s = .next { s with sys := y.sliverEnd c 0x10 false } := by
  rw [econvMac, onSys_awl h, Sys.access, ← hy, hr]
  dsimp only
  rw [← hp, hat]
  dsimp only
  rw [if_pos hu]
  rfl

variable (hu : ¬ ((y.tg r'.tg).eng < popcount 4 d.engines ∨ (d.edge = true ∧ (y.tg r'.tg).setgs = false)))
include hu

theorem econvMac_empty (he : d.empty = true) :
    econvMac form c a s = .next { s with sys := y.retire c { r' with codes := statusJoin r'.codes 0x11 } } := by
  rw [econvMac, onSys_awl h, Sys.access, ← hy, hr]
  dsimp only
  rw [← hp, hat]
  dsimp only
  rw [if_neg hu, if_pos he]
  rfl

theorem econvMac_captured (he : d.empty = false) {q : EngCmd}
    (hq : d.capture (y.lsGet c) (y.lbGet c d.lbPool true) r'.round r'.seed.toNat r'.tensor.toNat = some q) :
    econvMac form c a s = .next { s with sys := y.issueMac c q } := by
  rw [econvMac, onSys_awl h, Sys.access, ← hy, hr]
  dsimp only
  rw [← hp, hat]
  dsimp only
  rw [if_neg hu, if_neg (by simp [he]), hq]

end

/-! ### Pooling -/

theorem econvPool_refused {op : Nat} (hat : y.econvAt c p (fun d => d.op == op) = none) :
    econvPool op c a s = .next { s with sys := y.sliverEnd c 0x10 false } := by
  rw [econvPool, onSys_awl h, Sys.access, ← hy, hr]
  dsimp only
  rw [← hp, hat]
  rfl

section
variable {op : Nat} (hat : y.econvAt c p (fun d => d.op == op) = some (some d))
include hat

theorem econvPool_lacking (hu : (y.tg r'.tg).vec = false ∨ (d.edge = true ∧ (y.tg r'.tg).setgs = false) ∨ 0x4000 < d.out + 64) :
    econvPool op c a s = .next { s with sys := y.sliverEnd c 0x10 false } := by
  have hc : (!(y.tg r'.tg).vec || (d.edge && !(y.tg r'.tg).setgs) || !lsOk d.out 64) = true := by
    rcases hu with hu | ⟨hu, hu'⟩ | hu
    · simp [hu]
    · simp [hu, hu']
    · simp [lsOk_eq_false_iff.mpr hu]
  rw [econvPool, onSys_awl h, Sys.access, ← hy, hr]
  dsimp only
  rw [← hp, hat]
  dsimp only
  rw [if_pos hc]
  rfl

variable (hv : (y.tg r'.tg).vec = true) (hs : d.edge = true → (y.tg r'.tg).setgs = true) (ho : d.out + 64 ≤ 0x4000)
include hv hs ho

theorem econvPool_empty (he : d.empty = true) :
    econvPool op c a s = .next { s with sys := y.retire c { r' with codes := statusJoin r'.codes 0x11 } } := by
  rw [econvPool, onSys_awl h, Sys.access, ← hy, hr]
  dsimp only
  rw [← hp, hat]
  dsimp only
  rw [econvPool_units hv hs ho, if_neg Bool.false_ne_true, if_pos he]
  rfl

/-- The sixteen channels of a pooling, each from its included taps in window order (R146). -/
theorem econvPool_pools (he : d.empty = false) {tg : Option Group} (htg : d.tensorGroup (y.lsGet c) = some tg) {el : Nat → List AIn}
    (hel : el = fun q => ((List.range (d.kh * d.kw)).filter d.included).map fun k => d.aEl (y.lbGet c d.lbPool true) tg d.ox k (d.chBase + q))
    (hin : ∀ q < 16, d.chBase + q < d.c → ∀ x ∈ el q, x ≠ .out ∧ x ≠ .broken) :
    econvPool op c a s = .next { s with sys := (y.lsWrite c d.out (laneBytes ((List.range 16).map fun q =>
      if d.c ≤ d.chBase + q then 0 else poolOf op ((el q).map d.poolVal)))).retire c r' } := by
  have hbroken : (((List.range 16).map fun q => if d.c ≤ d.chBase + q then none else some (el q)).any
      fun e => (e.getD []).any fun x => x == .out || x == .broken) = false := by
    refine List.any_eq_false.mpr fun e hmem => ?_
    obtain ⟨q, hq, rfl⟩ := List.mem_map.mp hmem
    by_cases hc : d.c ≤ d.chBase + q
    · simp [hc]
    · rw [if_neg hc, Option.getD_some, List.any_eq_true]
      rintro ⟨x, hx, hxb⟩
      obtain ⟨h1, h2⟩ := hin q (List.mem_range.mp hq) (Nat.not_le.mp hc) x hx
      simp [h1, h2] at hxb
  rw [econvPool, onSys_awl h, Sys.access, ← hy, hr]
  dsimp only
  rw [← hp, hat]
  dsimp only
  rw [econvPool_units hv hs ho, if_neg Bool.false_ne_true, if_neg (by simp [he]), htg]
  dsimp only
  subst hel
  rw [if_neg (by exact Bool.eq_false_iff.mp hbroken), List.map_map]
  congr 7
  funext q
  rw [Function.comp_apply]
  by_cases hc : d.c ≤ d.chBase + q
  · rw [if_pos hc, if_pos hc]
  · rw [if_neg hc, if_neg hc]

end
end
end

end Sys2Proof.Machine

section
open Sys2Proof.Machine

/-- Settles O44: the descriptor's rules are decided once for every form, and each form's row is carried through its units, its output and its operands. -/
theorem convolutionCommands : Obligations.ConvolutionCommands := by
  intro c a p s r r' y bs d g h hy hr hp hbs hd hg
  subst hg
  refine ⟨?_, fun h4 hls hres hok => ⟨fun hop k hk => ?_, fun k hk => ?_⟩⟩
  · simp only [List.forall_mem_cons]
    refine ⟨fun hbad => ?_, fun hbad => ?_, fun hbad => ?_, fun hbad => ?_, by simp⟩
    · exact econvMac_refused h hy hr hp (Sys.econvAt_bad hbs hd _ hbad)
    · exact econvMac_refused h hy hr hp (Sys.econvAt_bad hbs hd _ hbad)
    · exact econvPool_refused h hy hr hp (Sys.econvAt_bad hbs hd _ hbad)
    · exact econvPool_refused h hy hr hp (Sys.econvAt_bad hbs hd _ hbad)
  · obtain ⟨form, hx, hf⟩ : ∃ form, exec k s = econvMac form c a s ∧ form d = true := by
      rw [hk]
      cases he : d.edge
      · exact ⟨fun d => d.op == 0 && !d.edge, rfl, by simp [hop, he]⟩
      · exact ⟨fun d => d.op == 0 && d.edge, rfl, by simp [hop, he]⟩
    have hat := Sys.econvAt_good (y := y) (c := c) hbs hd h4 hls hres hok hf
    rw [hx]
    refine ⟨fun hu => econvMac_lacking h hy hr hp hat hu, fun heng hset => ?_⟩
    have hu : ¬ ((y.tg r'.tg).eng < popcount 4 d.engines ∨ (d.edge = true ∧ (y.tg r'.tg).setgs = false)) := by
      rintro (hu | ⟨he, hu⟩)
      · omega
      · exact absurd ((hset he).symm.trans hu) (by decide)
    refine ⟨fun he => econvMac_empty h hy hr hp hat hu he, fun he q hq => ?_⟩
    obtain ⟨hkind, hsteal⟩ := Econv.capture_kind hq
    rw [econvMac_captured h hy hr hp hat hu he hq]
    refine ⟨fun hex => by rw [issueMac_exact hr (.inr hkind) hex], fun hex => ?_⟩
    obtain ⟨n, z, hn, hz, hi⟩ := issueMac_shared hr (.inr hkind) hsteal
    exact ⟨n, z, hn, hz, by rw [hi]⟩
  · have hx : exec k s = econvPool d.op c a s := by
      rcases hk with ⟨hop, rfl⟩ | ⟨hop, rfl⟩ <;> rw [hop] <;> rfl
    have hat := Sys.econvAt_good (y := y) (c := c) (form := fun e => e.op == d.op) hbs hd h4 hls hres hok (by simp)
    rw [hx]
    exact ⟨econvPool_lacking h hy hr hp hat, fun hv hs ho => ⟨econvPool_empty h hy hr hp hat hv hs ho,
      fun he tg htg el hel hin => econvPool_pools h hy hr hp hat hv hs ho he htg hel hin⟩⟩
end
end
